-- ==== Sys2Proof/Word.lean ====
section
/-! DEFINITION. The word types of the block and the bit-field selectors that every file uses. -/

namespace Sys2Proof

/-- A scalar register, a 32-bit device register (R7, R73). -/
abbrev Word := BitVec 32
/-- A 64-bit device register or value pair (R7, R118). -/
abbrev DWord := BitVec 64
/-- One byte of memory. -/
abbrev Byte := BitVec 8
/-- A 48-bit partition address, as a natural number once it is computed (R158). -/
abbrev Addr := Nat

/-- Bits [lo + n - 1 : lo] of a natural number. -/
def field (x lo n : Nat) : Nat := (x >>> lo) % 2 ^ n

/-- Bit `i` of a natural number. -/
def nbit (x i : Nat) : Bool := x.testBit i

/-- `a` divided by `b`, rounded up. -/
def ceilDiv (a b : Nat) : Nat := (a + b - 1) / b

/-- `1` for true. -/
def b2n (b : Bool) : Nat := if b then 1 else 0

end Sys2Proof
end

