-- ==== Sys2Proof/Syntax.lean ====
section
/-! DEFINITION. The commands of the block: one constructor of `Instr` for each row of spec/opcode_table.json,
with the row's operands. The operations of a core are the slots of a long word (R82): each carries the long word it
stands in. -/

namespace Sys2Proof

/-- A PCI Express function: the PF, or VF `n` with `n` from 1 (R367); VF p + 1 serves partition p (R20). -/
inductive Fn where
  | pf
  | vf (n : Nat)
  deriving DecidableEq, Repr

/-- What goes wrong as an access is made: nothing; bits of its code word flip, numbered from data bit 0 to check bit 287, and
those of `hard` come back after a write-back (R166, R436); an error in the storage of the unit that serves it, `ue` where it is
uncorrectable: in a Keep, region `region` of Table 13-4a; or an uncorrectable error in the cells of a staged entry (R467). -/
inductive Upset where
  | none
  | soft (bits : List Nat)
  | hard (bits : List Nat)
  | unit (region : Nat) (ue : Bool)
  | staged (table entry head : Nat)
  deriving DecidableEq, Repr

/-- An access of one whole 32-byte word (R265), or of a part of a scratch word (R465). -/
inductive WordAccess where
  | read
  | write (bytes : List Byte) (poison : Bool)
  | narrow (offset : Nat) (bytes : List Byte)
  deriving DecidableEq, Repr

/-- What starts the test of a core (R432): GO written by a function, or an uncorrectable error in one of the core's internal
arrays, whose number the record gives (Table 13-4). -/
inductive CoreTest where
  | go (fn : Fn) (replace : Bool)
  | coreUe (array : Word)
  deriving DecidableEq, Repr

/-- The condition flag of an asynchronous operation: FLAG_EN and FLAG (R134). -/
structure FlagSel where
  en : Bool
  n : BitVec 3
  deriving DecidableEq, Repr

/-- Register-register operations of the S slot (Table 04-2). -/
inductive AluOp where
  | add | sub | and | or | xor | sll | srl | sra | slt | sltu | mul | mulhu | mulh
  deriving DecidableEq, Repr

/-- Register-immediate operations of the S slot (Table 04-2). -/
inductive AluImmOp where
  | addi | andi | ori | xori | slli | srli | srai | slti
  deriving DecidableEq, Repr

/-- Loads from data memory (Table 04-2). -/
inductive LoadOp where
  | ldb | ldbu | ldh | ldhu | ld
  deriving DecidableEq, Repr

/-- Stores to data memory (Table 04-2). -/
inductive StoreOp where
  | stb | sth | st
  deriving DecidableEq, Repr

/-- Branches of the S slot (Table 04-2). -/
inductive BranchOp where
  | beq | bne | blt | bge | bltu | bgeu
  deriving DecidableEq, Repr

/-- CSR operations of the S slot (Table 04-2). -/
inductive CsrOp where
  | csrr | csrw | csrs | csrc
  deriving DecidableEq, Repr

/-- The S slot (Tables 04-1 and 04-2), with the fields of its layout. -/
inductive SSlot where
  | alu (op : AluOp) (rd ra rb : BitVec 5)
  | aluImm (op : AluImmOp) (rd ra : BitVec 5) (imm : BitVec 16)
  | lui (rd : BitVec 5) (imm : BitVec 16)
  | load (op : LoadOp) (rd ra : BitVec 5) (imm : BitVec 16)
  | store (op : StoreOp) (rv ra : BitVec 5) (imm : BitVec 16)
  | branch (op : BranchOp) (ra rb : BitVec 5) (off : BitVec 16)
  | jal (rd : BitVec 5) (off : BitVec 21)
  | jalr (rd ra : BitVec 5) (imm : BitVec 16)
  | csr (op : CsrOp) (rd ra : BitVec 5) (index : BitVec 12)
  | endTask
  | tret (skip : Bool)
  | icinv (ra rb : BitVec 5)
  deriving DecidableEq, Repr

/-- The Q slot (Tables 04-3 and 04-4). -/
inductive QSlot where
  | bind (qend : BitVec 5) (kind fmt : BitVec 4) (depthM1 : BitVec 6) (param : BitVec 7) (rb : BitVec 5)
  | qmov (qa qb : BitVec 5)
  | qdup (qa qb qc : BitVec 5)
  | qdrop (qa : BitVec 5)
  | tpush (qb ra : BitVec 5) (rowsM1 colsM1 : BitVec 6)
  | tpop (qa ra rd : BitVec 5)
  | qlive (ra rb : BitVec 5)
  deriving DecidableEq, Repr

/-- The D slot (Table 04-5). `size` is SIZE: false for 4 bytes, true for 8 (R136). -/
inductive DSlot where
  | fld (size : Bool) (rd ra : BitVec 5)
  | fst (size : Bool) (rv ra : BitVec 5) (cntEn : Bool) (counter : BitVec 12)
  | atom (size : Bool) (aop scope : BitVec 3) (rd ra rb : BitVec 5)
  | fence (flag : FlagSel) (scope : BitVec 3)
  | semacq (flag : FlagSel) (scope : BitVec 3) (sem : BitVec 12)
  | semrel (flag : FlagSel) (scope : BitVec 3) (sem : BitVec 12)
  | cntwait (flag : FlagSel) (ra : BitVec 5) (counter : BitVec 12)
  | dmak (flag : FlagSel) (ra : BitVec 5) (channel : BitVec 4)
  | tflush (flag : FlagSel) (ra rb : BitVec 5)
  | tinval (flag : FlagSel) (ra rb : BitVec 5)
  | lcfg (flag : FlagSel) (ra : BitVec 5)
  | start (ra : BitVec 5)
  deriving DecidableEq, Repr

/-- Operations of the vector unit (Table 04-9). -/
inductive VOp where
  | vadd | vsub | vmul | vmax | vmin | vadds | vmuls | vfmas | vsubr | vmulr | vrmax | vrsum | vcvt | vcausal
  | vexp | vrcp | vrsq | vgelu | vsilu | vrelu
  deriving DecidableEq, Repr

/-- Operations of the matrix unit (Table 04-12). -/
inductive MOp where
  | mmac | mdrain | mzero | mlda | mtr
  deriving DecidableEq, Repr

/-- The V slot (Table 04-8). -/
structure VSlot where
  op : VOp
  qd : BitVec 5
  qa : BitVec 5
  qb : BitVec 5
  sr : BitVec 5
  keepA : Bool
  keepB : Bool
  round : BitVec 2
  ovf : Bool
  deriving DecidableEq, Repr

/-- The M slot (Table 04-11). -/
structure MSlot where
  op : MOp
  qa : BitVec 5
  qb : BitVec 5
  qc : BitVec 5
  acc : BitVec 2
  keepA : Bool
  keepB : Bool
  zero : Bool
  round : BitVec 2
  ovf : Bool
  deriving DecidableEq, Repr

/-- Tower commands (Table 04-15). -/
inductive TCmd where
  | tattn | tgemv | tappend | tcommit | tdiscard | tflushkv | tfill | tcopy | txform | treduce | tscrub
  deriving DecidableEq, Repr

/-- The T slot (Table 04-14). -/
structure TSlot where
  cmd : TCmd
  rp : BitVec 5
  qret : BitVec 5
  retEn : Bool
  flag : FlagSel
  deriving DecidableEq, Repr

/-- A long word that core `core` would issue at its PC (R82): the WAIT and HINT of its header, and its slots. The slot of
the constructor that carries it is put in place of the one here. `reserved` says which slots, in the order of the header, hold
a reserved opcode or a reserved field that is not zero (R86). -/
structure LongWord where
  core : Nat
  wait : BitVec 8 := 0
  hint : BitVec 2 := 0
  reserved : BitVec 6 := 0
  s : Option SSlot := none
  q : Option QSlot := none
  d : Option DSlot := none
  v : Option VSlot := none
  m : Option MSlot := none
  t : Option TSlot := none
  deriving DecidableEq, Repr

/-- A Volath flit (Table 11-10) as its fields, with the CRC it carries. -/
structure Flit where
  seq : BitVec 12 := 0
  ack : BitVec 12 := 0
  nak : Bool := false
  ftype : BitVec 4 := 1
  credit : BitVec 32 := 0
  vc : BitVec 2 := 0
  op : BitVec 4 := 0
  dstId : BitVec 13 := 0
  srcId : BitVec 13 := 0
  dstPart : BitVec 4 := 0
  srcPart : BitVec 4 := 0
  counter : BitVec 12 := 0
  cntEn : Bool := false
  poison : BitVec 7 := 0
  ttl : BitVec 6 := 63
  ackReq : Bool := false
  first : Bool := false
  aop : BitVec 3 := 0
  tag : BitVec 12 := 0
  len : BitVec 9 := 0
  addr : BitVec 32 := 0
  payload : List Byte := []
  crc : BitVec 64 := 0
  deriving DecidableEq, Repr

/-- What a TRAIN flit carries (R382, R387). -/
structure TrainInfo where
  deviceId : BitVec 13
  link : BitVec 3
  physLane : BitVec 4
  goodLanes : BitVec 9
  phase : BitVec 3
  /-- the initial credits of VC0 to VC3, from CREDIT_INIT on -/
  credits : List Nat
  /-- the next unused SEQ, ACK and CREDIT -/
  seq : BitVec 12 := 0
  ack : BitVec 12 := 0
  credit : BitVec 32 := 0
  deriving DecidableEq, Repr

/-- A failure that a start-up step finds (Table 12-2). -/
inductive BootFailure where
  | core (logical : Nat)
  | floor (tower floor : Nat) (step : Nat)
  | keep (tower : Nat) (step : Nat)
  | repairMap (tower : Nat)
  | landing
  deriving DecidableEq, Repr

/-- Why the brake is applied (R326, Table 13-4 DETAIL of BRAKE). -/
inductive BrakeCause where
  | supply
  | thermal
  | forced
  deriving DecidableEq, Repr

/-- Why the Aldeah processor resets (R406, Table 12-9). -/
inductive AldeahCause where
  | watchdog
  | ecc
  | request
  deriving DecidableEq, Repr

/-- A PLDM for Firmware Update message (R413), as what it asks for. -/
inductive PldmRequest where
  | begin (microcode : Bool)
  | data (offset : Nat) (bytes : List Byte)
  | activate
  | cancel
  deriving DecidableEq, Repr

/-- An SPDM request (R416). -/
inductive SpdmRequest where
  | getCertificate
  | challenge (nonce : List Byte)
  | getMeasurement (index : Nat)
  | keyExchange (data : List Byte)
  deriving DecidableEq, Repr

/-- The path of an SPDM or MCTP message (R410, R416). -/
inductive MgmtPath where
  | inBand (fn : Fn)
  | outOfBand
  deriving DecidableEq, Repr

/-- Which kind of channel of a tower has failed (R438). -/
inductive ChannelKind where
  | bridge
  | tsv
  deriving DecidableEq, Repr

/-- How a function is reset: a function level reset, or entry to D3hot, which acts as one (R374). -/
inductive FlrKind where
  | flr
  | d3hot
  deriving DecidableEq, Repr

/-- A register of a function's configuration space for a feature of Table 11-1. -/
inductive ConfigReg where
  | vfEnable
  /-- the size fields of the Resizable BAR and VF Resizable BAR capabilities -/
  | bar2Size | vfBar2Size
  | maxPayload | maxRead | timeout
  /-- the enables of the Link IDE stream and of the function's Selective IDE stream -/
  | linkIde | selectiveIde
  deriving DecidableEq, Repr

/-- What a host write names: an offset of the function's BAR0, or a register of its configuration space. -/
inductive RegPlace where
  | bar0 (offset : Nat)
  | config (r : ConfigReg)
  deriving DecidableEq, Repr

/-- The commands: one constructor per row of the table, in the table's order. -/
inductive Instr where
  | registerWrite (fn : Fn) (place : RegPlace) (wide : Bool) (value : DWord)
  | cupGranWrite (fn : Fn) (k : Nat) (value : Word)
  | granuleChangeDone (k : Nat)
  | cupolaScratchAccess (granule word : Nat) (access : WordAccess) (upset : Upset)
  | cupolaEviction (spire part line : Nat)
  | ratioChangeRequest (group : Nat) (ratio : BitVec 2)
  | ratioChangeDone (group : Nat)
  | taskPlace (part job : Nat)
  | emptyLongWord (core : Nat) (wait : BitVec 8) (hint : BitVec 2)
  | add (lw : LongWord) (rd ra rb : BitVec 5)
  | sub (lw : LongWord) (rd ra rb : BitVec 5)
  | and (lw : LongWord) (rd ra rb : BitVec 5)
  | or (lw : LongWord) (rd ra rb : BitVec 5)
  | xor (lw : LongWord) (rd ra rb : BitVec 5)
  | sll (lw : LongWord) (rd ra rb : BitVec 5)
  | srl (lw : LongWord) (rd ra rb : BitVec 5)
  | sra (lw : LongWord) (rd ra rb : BitVec 5)
  | slt (lw : LongWord) (rd ra rb : BitVec 5)
  | sltu (lw : LongWord) (rd ra rb : BitVec 5)
  | mul (lw : LongWord) (rd ra rb : BitVec 5)
  | mulhu (lw : LongWord) (rd ra rb : BitVec 5)
  | mulh (lw : LongWord) (rd ra rb : BitVec 5)
  | addi (lw : LongWord) (rd ra : BitVec 5) (imm : BitVec 16)
  | andi (lw : LongWord) (rd ra : BitVec 5) (imm : BitVec 16)
  | ori (lw : LongWord) (rd ra : BitVec 5) (imm : BitVec 16)
  | xori (lw : LongWord) (rd ra : BitVec 5) (imm : BitVec 16)
  | slli (lw : LongWord) (rd ra : BitVec 5) (imm : BitVec 16)
  | srli (lw : LongWord) (rd ra : BitVec 5) (imm : BitVec 16)
  | srai (lw : LongWord) (rd ra : BitVec 5) (imm : BitVec 16)
  | slti (lw : LongWord) (rd ra : BitVec 5) (imm : BitVec 16)
  | lui (lw : LongWord) (rd : BitVec 5) (imm : BitVec 16)
  | ldb (lw : LongWord) (rd ra : BitVec 5) (imm : BitVec 16)
  | ldbu (lw : LongWord) (rd ra : BitVec 5) (imm : BitVec 16)
  | ldh (lw : LongWord) (rd ra : BitVec 5) (imm : BitVec 16)
  | ldhu (lw : LongWord) (rd ra : BitVec 5) (imm : BitVec 16)
  | ld (lw : LongWord) (rd ra : BitVec 5) (imm : BitVec 16)
  | stb (lw : LongWord) (rv ra : BitVec 5) (imm : BitVec 16)
  | sth (lw : LongWord) (rv ra : BitVec 5) (imm : BitVec 16)
  | st (lw : LongWord) (rv ra : BitVec 5) (imm : BitVec 16)
  | beq (lw : LongWord) (ra rb : BitVec 5) (off : BitVec 16)
  | bne (lw : LongWord) (ra rb : BitVec 5) (off : BitVec 16)
  | blt (lw : LongWord) (ra rb : BitVec 5) (off : BitVec 16)
  | bge (lw : LongWord) (ra rb : BitVec 5) (off : BitVec 16)
  | bltu (lw : LongWord) (ra rb : BitVec 5) (off : BitVec 16)
  | bgeu (lw : LongWord) (ra rb : BitVec 5) (off : BitVec 16)
  | jal (lw : LongWord) (rd : BitVec 5) (off : BitVec 21)
  | jalr (lw : LongWord) (rd ra : BitVec 5) (imm : BitVec 16)
  | csrr (lw : LongWord) (rd : BitVec 5) (index : BitVec 12)
  | csrw (lw : LongWord) (rd ra : BitVec 5) (index : BitVec 12)
  | csrs (lw : LongWord) (rd ra : BitVec 5) (index : BitVec 12)
  | csrc (lw : LongWord) (rd ra : BitVec 5) (index : BitVec 12)
  | endTask (lw : LongWord)
  | taskEnd (core : Nat)
  | tret (lw : LongWord) (skip : Bool)
  | icinv (lw : LongWord) (ra rb : BitVec 5)
  | bind (lw : LongWord) (qend : BitVec 5) (kind fmt : BitVec 4) (depthM1 : BitVec 6) (param : BitVec 7) (rb : BitVec 5)
  | qmov (lw : LongWord) (qa qb : BitVec 5)
  | qdup (lw : LongWord) (qa qb qc : BitVec 5)
  | qdrop (lw : LongWord) (qa : BitVec 5)
  | tpush (lw : LongWord) (qb ra : BitVec 5) (rowsM1 colsM1 : BitVec 6)
  | tpop (lw : LongWord) (qa ra rd : BitVec 5)
  | qlive (lw : LongWord) (ra rb : BitVec 5)
  | queueTimeout (core : Nat)
  | cupolaInPush (core queue : Nat)
  | cupolaOutWrite (core queue : Nat)
  | neighbourTileArrival (core queue : Nat)
  | fld (lw : LongWord) (size : Bool) (rd ra : BitVec 5)
  | fldDone (core index : Nat)
  | fst (lw : LongWord) (size : Bool) (rv ra : BitVec 5) (cntEn : Bool) (counter : BitVec 12)
  | fstDone (core index : Nat)
  | atom (lw : LongWord) (size : Bool) (aop scope : BitVec 3) (rd ra rb : BitVec 5)
  | atomicPerform (core index : Nat)
  | atomDone (core index : Nat)
  | fence (lw : LongWord) (flag : FlagSel) (scope : BitVec 3)
  | fenceDone (core index : Nat)
  | semacq (lw : LongWord) (flag : FlagSel) (scope : BitVec 3) (sem : BitVec 12)
  | semacqGrant (part sem : Nat)
  | semrel (lw : LongWord) (flag : FlagSel) (scope : BitVec 3) (sem : BitVec 12)
  | semrelDone (core index : Nat)
  | cntwait (lw : LongWord) (flag : FlagSel) (ra : BitVec 5) (counter : BitVec 12)
  | cntwaitDone (core index : Nat)
  | dmak (lw : LongWord) (flag : FlagSel) (ra : BitVec 5) (channel : BitVec 4)
  | tflush (lw : LongWord) (flag : FlagSel) (ra rb : BitVec 5)
  | tflushDone (core index : Nat)
  | tinval (lw : LongWord) (flag : FlagSel) (ra rb : BitVec 5)
  | tinvalDone (core index : Nat)
  | lcfg (lw : LongWord) (flag : FlagSel) (ra : BitVec 5)
  | lcfgDone (core : Nat)
  | start (lw : LongWord) (ra : BitVec 5)
  | sequencerTile (core : Nat)
  | sliceEnd (core : Nat)
  | sequencerTrap (core : Nat)
  | vadd (lw : LongWord) (qd qa qb : BitVec 5) (keepA keepB : Bool) (round : BitVec 2) (ovf : Bool)
  | vsub (lw : LongWord) (qd qa qb : BitVec 5) (keepA keepB : Bool) (round : BitVec 2) (ovf : Bool)
  | vmul (lw : LongWord) (qd qa qb : BitVec 5) (keepA keepB : Bool) (round : BitVec 2) (ovf : Bool)
  | vmax (lw : LongWord) (qd qa qb : BitVec 5) (keepA keepB : Bool) (round : BitVec 2) (ovf : Bool)
  | vmin (lw : LongWord) (qd qa qb : BitVec 5) (keepA keepB : Bool) (round : BitVec 2) (ovf : Bool)
  | vadds (lw : LongWord) (qd qa sr : BitVec 5) (keepA : Bool) (round : BitVec 2) (ovf : Bool)
  | vmuls (lw : LongWord) (qd qa sr : BitVec 5) (keepA : Bool) (round : BitVec 2) (ovf : Bool)
  | vfmas (lw : LongWord) (qd qa qb sr : BitVec 5) (keepA keepB : Bool) (round : BitVec 2) (ovf : Bool)
  | vsubr (lw : LongWord) (qd qa qb : BitVec 5) (keepA keepB : Bool) (round : BitVec 2) (ovf : Bool)
  | vmulr (lw : LongWord) (qd qa qb : BitVec 5) (keepA keepB : Bool) (round : BitVec 2) (ovf : Bool)
  | vrmax (lw : LongWord) (qd qa : BitVec 5) (keepA : Bool) (round : BitVec 2) (ovf : Bool)
  | vrsum (lw : LongWord) (qd qa : BitVec 5) (keepA : Bool) (round : BitVec 2) (ovf : Bool)
  | vcvt (lw : LongWord) (qd qa : BitVec 5) (keepA : Bool) (round : BitVec 2) (ovf : Bool)
  | vcausal (lw : LongWord) (qd qa sr : BitVec 5) (keepA : Bool) (round : BitVec 2) (ovf : Bool)
  | vexp (lw : LongWord) (qd qa : BitVec 5) (keepA : Bool) (round : BitVec 2) (ovf : Bool)
  | vrcp (lw : LongWord) (qd qa : BitVec 5) (keepA : Bool) (round : BitVec 2) (ovf : Bool)
  | vrsq (lw : LongWord) (qd qa : BitVec 5) (keepA : Bool) (round : BitVec 2) (ovf : Bool)
  | vgelu (lw : LongWord) (qd qa : BitVec 5) (keepA : Bool) (round : BitVec 2) (ovf : Bool)
  | vsilu (lw : LongWord) (qd qa : BitVec 5) (keepA : Bool) (round : BitVec 2) (ovf : Bool)
  | vrelu (lw : LongWord) (qd qa : BitVec 5) (keepA : Bool) (round : BitVec 2) (ovf : Bool)
  | mmac (lw : LongWord) (qa qb : BitVec 5) (acc : BitVec 2) (keepA keepB zero : Bool)
  | mdrain (lw : LongWord) (qc : BitVec 5) (acc : BitVec 2) (zero : Bool) (round : BitVec 2) (ovf : Bool)
  | mzero (lw : LongWord) (acc : BitVec 2)
  | mlda (lw : LongWord) (qa : BitVec 5) (acc : BitVec 2) (keepA : Bool)
  | mtr (lw : LongWord) (qa qc : BitVec 5) (keepA : Bool)
  | tattn (lw : LongWord) (rp qret : BitVec 5) (retEn : Bool) (flag : FlagSel)
  | tgemv (lw : LongWord) (rp qret : BitVec 5) (retEn : Bool) (flag : FlagSel)
  | tappend (lw : LongWord) (rp qret : BitVec 5) (retEn : Bool) (flag : FlagSel)
  | tcommit (lw : LongWord) (rp qret : BitVec 5) (retEn : Bool) (flag : FlagSel)
  | tdiscard (lw : LongWord) (rp qret : BitVec 5) (retEn : Bool) (flag : FlagSel)
  | tflushkv (lw : LongWord) (rp qret : BitVec 5) (retEn : Bool) (flag : FlagSel)
  | tfill (lw : LongWord) (rp qret : BitVec 5) (retEn : Bool) (flag : FlagSel)
  | tcopy (lw : LongWord) (rp qret : BitVec 5) (retEn : Bool) (flag : FlagSel)
  | txform (lw : LongWord) (rp qret : BitVec 5) (retEn : Bool) (flag : FlagSel)
  | treduce (lw : LongWord) (rp qret : BitVec 5) (retEn : Bool) (flag : FlagSel)
  | tscrub (lw : LongWord) (rp qret : BitVec 5) (retEn : Bool) (flag : FlagSel)
  | tcmdHeadCheck (tower : Nat)
  | tcmdStart (tower : Nat)
  | tcmdComplete (tower index : Nat)
  | tcmdReturnPush (tower index : Nat)
  | tcmdWatchdog (tower index : Nat)
  | tseqPurge (tower : Nat)
  | tseqBusyLoRead (tower : Nat)
  | towerAccess (tower wordAddr : Nat) (engineId : BitVec 16) (access : WordAccess) (upset : Upset)
  | narrowWrite (tower wordAddr : Nat) (engineId : BitVec 16) (offset : Nat) (bytes : List Byte) (upset : Upset)
  | colRepairDone (tower floor bank word : Nat)
  | ceWindowExpire (tower frame : Nat)
  | frameTableWrite (tower index : Nat) (value : Word)
  | clrCounts (tower : Nat)
  | sanitise (tower : Nat)
  | sanitiseDone (tower : Nat)
  | twrPinWrite (tower : Nat) (mask : BitVec 16)
  | twrMigrate (tower : Nat) (frame : BitVec 16) (destBand : BitVec 6)
  | migrationDone (tower : Nat)
  | refresh (tower floor bank : Nat)
  | tempReading (tower : Nat) (celsius : List Nat)
  | patrolScrubRow (tower : Nat)
  | hostBar2Write (fn : Fn) (offset : Nat) (bytes : List Byte) (poisoned : Bool)
  | hostBar2Read (fn : Fn) (offset length : Nat)
  | srvSubmit (fn : Fn) (part : Nat) (index : BitVec 12)
  | srvCancel (fn : Fn) (part : Nat) (index : BitVec 12)
  | srvRelease (fn : Fn) (part : Nat) (index : BitVec 12)
  | srvCtlWrite (fn : Fn) (part : Nat) (value : Word)
  | pfxFlush (fn : Fn) (part : Nat)
  | servingStep (part model : Nat)
  | stepResult (part : Nat)
  | promptChunkDone (part request : Nat)
  | lastEntryWrite (part request : Nat)
  | cntAdd (fn : Fn) (part : Nat) (index : BitVec 12) (amount : BitVec 48)
  | semWrite (fn : Fn) (part : Nat) (sem : Nat) (value : Word)
  | jobEnable (fn : Fn) (part job : Nat) (value : Word)
  | jobDisable (fn : Fn) (part job : Nat) (value : Word)
  | pringTail (fn : Fn) (part job : Nat) (tail : Word)
  | ringEntryFetch (part job : Nat)
  | commandComplete (part job : Nat)
  | jobResident (part job : Nat)
  | sliceExpiry (part job : Nat)
  | urgentPreempt (part job : Nat)
  | contextSaveDone (part job : Nat)
  | clear (fn : Fn) (part job : Nat)
  | kill (fn : Fn) (part job : Nat)
  | killDrainEnd (part job : Nat)
  | donation (part job sem : Nat)
  | modelLoadDone (part job : Nat)
  | governorEpoch (hottest : Nat)
  | brake (cause : BrakeCause)
  | brakeRelease (cause : BrakeCause)
  | thermalTrip (site celsius : Nat)
  | g1Entry (group : Nat)
  | g2Entry (group : Nat)
  | g3Entry (group : Nat)
  | g4Entry (group : Nat)
  | govGrpCfgWrite (fn : Fn) (group : Nat) (value : Word)
  | groupWake (group : Nat)
  | g4ExitDone (group : Nat)
  | pjobAcctLoRead (fn : Fn) (part job : Nat)
  | chKick (fn : Fn) (engine channel : Nat) (chain : BitVec 48)
  | phdmaKick (fn : Fn) (part engine channel : Nat) (chain : BitVec 48)
  | abort (fn : Fn) (engine channel : Nat)
  | chDescLoRead (fn : Fn) (engine channel : Nat)
  | chProgLoRead (fn : Fn) (engine channel : Nat)
  | dmaChannelSelect (engine : Nat)
  | dmaDescriptorFetch (engine : Nat)
  | dmaBurst (engine : Nat)
  | rateGapEnd (engine channel : Nat)
  | dmaTransferEnd (engine : Nat)
  | dmaCopy (engine : Nat)
  | compress (engine : Nat)
  | expand (engine : Nat)
  | link (engine : Nat)
  | kn4 (engine : Nat)
  | tableLoad (engine : Nat)
  | tensor (engine : Nat)
  | toQueue (engine : Nat)
  | fromQueue (engine : Nat)
  | cblockExpand (engine : Nat)
  | pctlEnable (fn : Fn) (part : Nat) (value : Word)
  | pctlDisable (fn : Fn) (part : Nat) (value : Word)
  | reset (fn : Fn) (part : Nat) (value : Word)
  | flr (fn : Fn) (how : FlrKind)
  | disableDrainEnd (part : Nat)
  | flrFlushReadDone (part : Nat)
  | cleaningDone (part : Nat)
  | gfeatSelWrite (fn : Fn) (key : BitVec 8) (index : BitVec 16)
  | detectDone (link : Nat) (lanes : BitVec 9)
  | equaliseDone (link : Nat)
  | laneMapDone (link : Nat) (ownGood : BitVec 9)
  | creditInitDone (link : Nat)
  | trainTimeout (link : Nat)
  | train (link : Nat) (info : TrainInfo)
  | idle (link : Nat) (flit : Flit)
  | data (link : Nat) (flit : Flit)
  | ackReport (link : Nat)
  | replayTimeout (link : Nat)
  | write (link : Nat) (flit : Flit)
  | cblock (link : Nat) (flit : Flit)
  | read (link : Nat) (flit : Flit)
  | atomic (link : Nat) (flit : Flit)
  | resp (link : Nat) (flit : Flit)
  | wack (link : Nat) (flit : Flit)
  | err (link : Nat) (flit : Flit)
  | laneFail (link lane : Nat)
  | retrain (fn : Fn) (link : Nat)
  | retrainFail (link : Nat)
  | volLctlClrCounts (fn : Fn) (link : Nat)
  | volIdWrite (fn : Fn) (id : BitVec 13)
  | powerGood (failures : List BootFailure)
  | ready
  | perstAssert
  | perstRelease
  | mbxDoorbell (fn : Fn) (length : BitVec 13)
  | mbxResponse
  | getInfo
  | readSensors
  | readLog
  | writeSettings
  | otpWrite
  | fwStage
  | fwActivate
  | fwActivateFallback
  | pldmFirmwareUpdate (path : MgmtPath) (request : PldmRequest)
  | ucodeApply
  | ucodeIdlePoint (part : Nat)
  | ucodeTimeout (part : Nat)
  | repairPersist
  | debugChallenge
  | debugUnlock
  | debugLock (fn : Fn)
  | logSync (fn : Fn)
  | logFlashCopy
  | sensorSample (values : List (Nat × BitVec 32))
  | spdmRequest (path : MgmtPath) (request : SpdmRequest)
  | mctpRequest (path : MgmtPath) (message : List Byte)
  | aldeahWatchdog
  | aldeahReset (cause : AldeahCause)
  | errorRecordLeave
  | errStatWrite (fn : Fn) (value : Word)
  | errCoreTest (cause : CoreTest) (core : BitVec 9)
  | coreDrained (core : Nat)
  | coreBistDone (core : Nat) (pass : Bool)
  | errGroupTest (fn : Fn) (group : BitVec 4)
  | groupTestDone (group : Nat) (failedStep : Option Nat)
  | twrEvac (fn : Fn) (tower : Nat) (floor : BitVec 4)
  | evacuationDone (tower : Nat)
  | chanFold (tower channel : Nat) (kind : ChannelKind)
  | pwrEnAssert
  | bulkCharged
  | pwrEnDeassert
  | pwrEnIgnoreEnd
  | vinOvervoltage (volts : Nat)
  | supplyFail (millivolts : Nat)
  | holdUpLoss (volts : Nat)
  | junctionOvertemp (site celsius : Nat)
  | regulatorFault (page : Nat)
  | refclkLoss
  | alertResponse
  | aldeahRestartDone
  | volLctlEnable (fn : Fn) (link : Nat) (enable allowX4 : Bool)
  | pcieLinkChange (width rate : Nat) (l0p : Bool)
  deriving DecidableEq, Repr

end Sys2Proof
end

