-- ==== Sys2Proof/Decode.lean ====
section
/-! DEFINITION. The reading of a word as a command: no row of spec/opcode_table.json gives bits, so no word spells a command of
this block. The parcels of program text spell long words: their header (Table 03-8) and their slots (Tables 04-1 to 04-15). -/

namespace Sys2Proof

/-- The command that a word of `nbits` bits spells by the table's bits: none, since the table gives no row bits. -/
def decodeTableWord (_nbits _w : Nat) : Option Instr := none

/-- `x` where every bit of `r` is zero: a reserved field must be zero (R86, R123). -/
def whenZero {n : Nat} {α : Type} (r : BitVec n) (x : α) : Option α := if r = 0 then some x else none

/-! ## S slot (Tables 04-1, 04-2) -/

/-- Layout R: the operations 0x01 to 0x0D. -/
def aluOpOf : Nat → Option AluOp
  | 0x01 => some .add | 0x02 => some .sub | 0x03 => some .and | 0x04 => some .or | 0x05 => some .xor
  | 0x06 => some .sll | 0x07 => some .srl | 0x08 => some .sra | 0x09 => some .slt | 0x0A => some .sltu
  | 0x0B => some .mul | 0x0C => some .mulhu | 0x0D => some .mulh | _ => none

/-- Layout I: the operations 0x10 to 0x17. -/
def aluImmOpOf : Nat → Option AluImmOp
  | 0x10 => some .addi | 0x11 => some .andi | 0x12 => some .ori | 0x13 => some .xori
  | 0x14 => some .slli | 0x15 => some .srli | 0x16 => some .srai | 0x17 => some .slti | _ => none

/-- Layout I: the loads. -/
def loadOpOf : Nat → Option LoadOp
  | 0x20 => some .ldb | 0x21 => some .ldbu | 0x22 => some .ldh | 0x23 => some .ldhu | 0x24 => some .ld | _ => none

/-- Layout ST: the stores. -/
def storeOpOf : Nat → Option StoreOp
  | 0x28 => some .stb | 0x29 => some .sth | 0x2A => some .st | _ => none

/-- Layout B: the branches. -/
def branchOpOf : Nat → Option BranchOp
  | 0x30 => some .beq | 0x31 => some .bne | 0x32 => some .blt | 0x33 => some .bge | 0x34 => some .bltu
  | 0x35 => some .bgeu | _ => none

/-- Layout C: the CSR operations. -/
def csrOpOf : Nat → Option CsrOp
  | 0x38 => some .csrr | 0x39 => some .csrw | 0x3A => some .csrs | 0x3B => some .csrc | _ => none

/-- An S slot; none for a reserved opcode or a reserved field that is not zero (R123, R124). -/
def decodeS (w : BitVec 32) : Option SSlot :=
  let opc := (w.extractLsb' 26 6).toNat
  let rd := w.extractLsb' 21 5
  let ra := w.extractLsb' 16 5
  let imm := w.extractLsb' 0 16
  match aluOpOf opc, aluImmOpOf opc, loadOpOf opc, storeOpOf opc, branchOpOf opc, csrOpOf opc with
  | some op, _, _, _, _, _ => whenZero (w.extractLsb' 0 11) (.alu op rd ra (w.extractLsb' 11 5))
  | _, some op, _, _, _, _ => some (.aluImm op rd ra imm)
  | _, _, some op, _, _, _ => some (.load op rd ra imm)
  | _, _, _, some op, _, _ => some (.store op rd ra imm)
  | _, _, _, _, some op, _ => some (.branch op rd ra imm)
  | _, _, _, _, _, some op => whenZero (w.extractLsb' 12 4) (.csr op rd ra (w.extractLsb' 0 12))
  | _, _, _, _, _, _ => match opc with
    | 0x18 => whenZero ra (.lui rd imm)
    | 0x36 => some (.jal rd (w.extractLsb' 0 21))
    | 0x37 => some (.jalr rd ra imm)
    | 0x3C => whenZero (w.extractLsb' 0 26) .endTask
    | 0x3D => whenZero (w.extractLsb' 1 25) (.tret (w.getLsbD 0))
    | 0x3E => whenZero (rd ++ w.extractLsb' 0 11) (.icinv ra (w.extractLsb' 11 5))
    | _ => none

/-! ## Q slot (Tables 04-3, 04-4) -/

/-- A Q slot; none for a reserved QOP or a reserved field that is not zero (R128, R131). -/
def decodeQ (w : BitVec 32) : Option QSlot :=
  let a := w.extractLsb' 22 5
  let b := w.extractLsb' 17 5
  let c := w.extractLsb' 12 5
  if w.getLsbD 31 then
    some (.bind (w.extractLsb' 26 5) (w.extractLsb' 22 4) (w.extractLsb' 18 4) (w.extractLsb' 12 6) (w.extractLsb' 5 7)
      (w.extractLsb' 0 5))
  else match (w.extractLsb' 27 4).toNat with
    | 1 => whenZero (w.extractLsb' 0 17) (.qmov a b)
    | 2 => whenZero (w.extractLsb' 0 12) (.qdup a b c)
    | 3 => whenZero (w.extractLsb' 0 22) (.qdrop a)
    | 4 => whenZero (w.extractLsb' 0 5) (.tpush a b (w.extractLsb' 11 6) (w.extractLsb' 5 6))
    | 5 => whenZero (w.extractLsb' 0 12) (.tpop a b c)
    | 6 => whenZero (a ++ w.extractLsb' 0 12) (.qlive b c)
    | _ => none

/-! ## D slot (Table 04-5) -/

/-- A D slot; none for a reserved DOP or a reserved field that is not zero (R134). -/
def decodeD (w : BitVec 32) : Option DSlot :=
  let size := w.getLsbD 26
  let flag : FlagSel := ⟨w.getLsbD 26, w.extractLsb' 23 3⟩
  let scope := w.extractLsb' 20 3
  let ra := w.extractLsb' 18 5
  let rb := w.extractLsb' 13 5
  match (w.extractLsb' 27 5).toNat with
  | 0x01 => whenZero (w.extractLsb' 0 16) (.fld size (w.extractLsb' 21 5) (w.extractLsb' 16 5))
  | 0x02 => whenZero (w.extractLsb' 0 3)
      (.fst size (w.extractLsb' 21 5) (w.extractLsb' 16 5) (w.getLsbD 15) (w.extractLsb' 3 12))
  | 0x03 => whenZero (w.extractLsb' 0 5)
      (.atom size (w.extractLsb' 23 3) scope (w.extractLsb' 15 5) (w.extractLsb' 10 5) (w.extractLsb' 5 5))
  | 0x04 => whenZero (w.extractLsb' 0 20) (.fence flag scope)
  | 0x05 => whenZero (w.extractLsb' 0 8) (.semacq flag scope (w.extractLsb' 8 12))
  | 0x06 => whenZero (w.extractLsb' 0 8) (.semrel flag scope (w.extractLsb' 8 12))
  | 0x07 => whenZero (w.extractLsb' 0 6) (.cntwait flag ra (w.extractLsb' 6 12))
  | 0x08 => whenZero (w.extractLsb' 0 14) (.dmak flag ra (w.extractLsb' 14 4))
  | 0x09 => whenZero (w.extractLsb' 0 13) (.tflush flag ra rb)
  | 0x0A => whenZero (w.extractLsb' 0 13) (.tinval flag ra rb)
  | 0x0B => whenZero (w.extractLsb' 0 18) (.lcfg flag ra)
  | 0x0C => whenZero (w.extractLsb' 23 4 ++ w.extractLsb' 0 18) (.start ra)
  | _ => none

/-! ## V, M and T slots (Tables 04-8 to 04-15) -/

/-- The V-slot operations (Table 04-9). -/
def vOpOf : Nat → Option VOp
  | 0x01 => some .vadd | 0x02 => some .vsub | 0x03 => some .vmul | 0x04 => some .vmax | 0x05 => some .vmin
  | 0x06 => some .vadds | 0x07 => some .vmuls | 0x08 => some .vfmas | 0x09 => some .vsubr | 0x0A => some .vmulr
  | 0x0B => some .vrmax | 0x0C => some .vrsum | 0x0D => some .vcvt | 0x0E => some .vcausal | 0x10 => some .vexp
  | 0x11 => some .vrcp | 0x12 => some .vrsq | 0x13 => some .vgelu | 0x14 => some .vsilu | 0x15 => some .vrelu | _ => none

/-- A V slot; none for a reserved VOP or a reserved field that is not zero (R142, R143). -/
def decodeV (w : BitVec 64) : Option VSlot :=
  match vOpOf (w.extractLsb' 58 6).toNat with
  | some op => whenZero (w.extractLsb' 0 33)
      { op := op, qd := w.extractLsb' 53 5, qa := w.extractLsb' 48 5, qb := w.extractLsb' 43 5, sr := w.extractLsb' 38 5,
        keepA := w.getLsbD 37, keepB := w.getLsbD 36, round := w.extractLsb' 34 2, ovf := w.getLsbD 33 }
  | none => none

/-- The M-slot operations (Table 04-12). -/
def mOpOf : Nat → Option MOp
  | 0x01 => some .mmac | 0x02 => some .mdrain | 0x03 => some .mzero | 0x04 => some .mlda | 0x05 => some .mtr | _ => none

/-- An M slot; none for a reserved MOP or a reserved field that is not zero (R146, R147). -/
def decodeM (w : BitVec 64) : Option MSlot :=
  match mOpOf (w.extractLsb' 58 6).toNat with
  | some op => whenZero (w.extractLsb' 0 35)
      { op := op, qa := w.extractLsb' 53 5, qb := w.extractLsb' 48 5, qc := w.extractLsb' 43 5, acc := w.extractLsb' 41 2,
        keepA := w.getLsbD 40, keepB := w.getLsbD 39, zero := w.getLsbD 38, round := w.extractLsb' 36 2, ovf := w.getLsbD 35 }
  | none => none

/-- The tower commands (Table 04-15). -/
def tCmdOf : Nat → Option TCmd
  | 0x1 => some .tattn | 0x2 => some .tgemv | 0x3 => some .tappend | 0x4 => some .tcommit | 0x5 => some .tdiscard
  | 0x6 => some .tflushkv | 0x7 => some .tfill | 0x8 => some .tcopy | 0x9 => some .txform | 0xA => some .treduce
  | 0xB => some .tscrub | _ => none

/-- A T slot; none for a reserved TCMD or a reserved field that is not zero (R151, R152). -/
def decodeT (w : BitVec 64) : Option TSlot :=
  match tCmdOf (w.extractLsb' 20 4).toNat with
  | some c => whenZero (w.extractLsb' 24 40 ++ w.extractLsb' 0 5)
      { cmd := c, rp := w.extractLsb' 15 5, qret := w.extractLsb' 10 5, retEn := w.getLsbD 9,
        flag := ⟨w.getLsbD 8, w.extractLsb' 5 3⟩ }
  | none => none

/-! ## Long words (R82) -/

/-- The number that parcels spell, the first in the lowest bits (R6, R82). -/
def parcelNum : List (BitVec 16) → Nat
  | [] => 0
  | p :: r => p.toNat + 65536 * parcelNum r

/-- A slot of `n` parcels at the front of a list, if it is present: what it decodes to, whether it is reserved, and the parcels
after it. A reserved slot counts as `dflt`, which its long word's trap never runs. None where parcels are missing. -/
def takeSlot {α : Type} (present : Bool) (n : Nat) (decode : Nat → Option α) (dflt : α) (l : List (BitVec 16)) :
    Option (Option α × Bool × List (BitVec 16)) :=
  if !present then some (none, false, l)
  else if l.length < n then none
  else match decode (parcelNum (l.take n)) with
    | some x => some (some x, false, l.drop n)
    | none => some (some dflt, true, l.drop n)

/-- The long word that core `core` reads at the front of its program text, and the parcels after it: the header, then the slots
that are present in the order S, Q, D, V, M, T (R82). -/
def decodeLongWord (core : Nat) : List (BitVec 16) → Option (LongWord × List (BitVec 16))
  | [] => none
  | h :: l => do
    let (s, rs, l) ← takeSlot (h.getLsbD 0) 2 (fun n => decodeS (BitVec.ofNat 32 n)) .endTask l
    let (q, rq, l) ← takeSlot (h.getLsbD 1) 2 (fun n => decodeQ (BitVec.ofNat 32 n)) (.qdrop 0) l
    let (d, rd, l) ← takeSlot (h.getLsbD 2) 2 (fun n => decodeD (BitVec.ofNat 32 n)) (.start 0) l
    let (v, rv, l) ← takeSlot (h.getLsbD 3) 4 (fun n => decodeV (BitVec.ofNat 64 n))
      { op := .vadd, qd := 0, qa := 0, qb := 0, sr := 0, keepA := false, keepB := false, round := 0, ovf := false } l
    let (m, rm, l) ← takeSlot (h.getLsbD 4) 4 (fun n => decodeM (BitVec.ofNat 64 n))
      { op := .mzero, qa := 0, qb := 0, qc := 0, acc := 0, keepA := false, keepB := false, zero := false, round := 0,
        ovf := false } l
    let (t, rt, l) ← takeSlot (h.getLsbD 5) 4 (fun n => decodeT (BitVec.ofNat 64 n))
      { cmd := .tfill, rp := 0, qret := 0, retEn := false, flag := ⟨false, 0⟩ } l
    some ({ core := core, wait := h.extractLsb' 8 8, hint := h.extractLsb' 6 2,
            reserved := BitVec.ofBoolListLE [rs, rq, rd, rv, rm, rt], s := s, q := q, d := d, v := v, m := m, t := t }, l)

end Sys2Proof
end

