-- ==== Sys2Proof/Config.lean ====
section
/-! DEFINITION. What the part fixes (R1, R3), the sizes of KQ12 and KQ08, and the free values: opaque constants
of which nothing can be proved. -/

namespace Sys2Proof

/-- The two parts of Table 00-1 (R1). -/
inductive Variant where
  | kq12
  | kq08
  deriving DecidableEq, Repr

namespace Config

/-- Towers, home groups and partitions of the variant (R1, R3). -/
def units : Variant → Nat
  | .kq12 => 12
  | .kq08 => 8

/-- Logical cores (R3, R17). -/
def cores (v : Variant) : Nat := 24 * units v

/-- Towers per Spire (R14, R15). -/
def towersPerSpire : Variant → Nat
  | .kq12 => 3
  | .kq08 => 2

/-- The Spire of home group `g` (R18). -/
def spireOfGroup (v : Variant) (g : Nat) : Nat := g / towersPerSpire v

/-- The home group of logical core `c` (R18). -/
def groupOfCore (c : Nat) : Nat := c / 24

/-- Spare cores per Spire (Table 13-6). -/
def sparesPerSpire : Variant → Nat
  | .kq12 => 4
  | .kq08 => 2

/-- Enabled cores per Spire (Table 01-9). -/
def coresPerSpire : Variant → Nat
  | .kq12 => 72
  | .kq08 => 48

/-- Whether DMA engine `e` exists (R366). -/
def engineExists (v : Variant) (e : Nat) : Bool := decide (e < units v) || e == 12 || e == 13

/-- A free value (DESIGN CHOICE, log 4): the `index`-th free number drawn for `purpose` when the model's counter stood at
`counter`. No proof can see its value, so a statement that meets one holds for every value. -/
opaque freeValue (purpose counter index : Nat) : Nat

/-- The data as found in a word that was never written (R171, DEDUCED, log 3): a free byte for each place. -/
opaque uninitByte (place : Nat) : BitVec 8

/-- The exponential helper of the bank units (Table 06-1, R229), whose accuracy the spec does not state (DESIGN CHOICE, log 17). -/
opaque helperExp (x : BitVec 32) : BitVec 32

/-- The division of an attention result by its row sum (R229, R230), which the reciprocal helper makes: the spec does not
state its accuracy (DESIGN CHOICE, log 17). -/
opaque helperQuot (x y : BitVec 32) : BitVec 32

/-- The code of an E8M0 tensor for an infinity (`inf`) or for the value (−1)^neg × mag × 2^exp, where no code is exactly that
value: the spec states no such conversion (DESIGN CHOICE, log 31). -/
opaque scaleCode (inf neg : Bool) (mag : Nat) (exp : Int) : BitVec 8

/-- The flags INVALID, OVERFLOW and UNDERFLOW of the same conversion (DESIGN CHOICE, log 31). -/
opaque scaleFlags (inf neg : Bool) (mag : Nat) (exp : Int) : Bool × Bool × Bool

/-- What a tile store holds outside the ranges that a restore brings back (R133: undefined), as bytes by address; every other
byte is 0 (DESIGN CHOICE, log 143). -/
opaque staleTiles (counter core : Nat) : List (Nat × BitVec 8)

/-- A byte of host memory that the device has not written, at a bus address (DESIGN CHOICE, log 11). -/
opaque hostByte (counter addr : Nat) : BitVec 8

/-- Whether the host answers a read of its memory with an error status or a poisoned TLP (R352): the host's own, which no command
brings (DESIGN CHOICE, log 149). -/
opaque hostReadFails (counter addr : Nat) : Bool

/-- The identity key's signature over a message (R415: the private part is sealed; DESIGN CHOICE, log 23). -/
opaque identitySign (message : List (BitVec 8)) : List (BitVec 8)

/-- The public part of the identity key (R415, DESIGN CHOICE, log 23). -/
opaque identityPublic : List (BitVec 8)

/-- SHA-256 of the boot ROM (Table 12-14, measurement 1; DESIGN CHOICE, log 23). -/
opaque bootRomDigest : List (BitVec 8)

/-- The boot ROM version that GET_INFO reports (Table 12-11; DESIGN CHOICE, log 23). -/
opaque bootRomVersion : BitVec 32

/-- VERSION, SVN and DIGEST of the factory's images in flash: of Aldeah's, or with `ucode` of the microcode (R411, DESIGN CHOICE, log 38). -/
opaque factoryVersion (ucode : Bool) : Nat
opaque factorySvn (ucode : Bool) : Nat
opaque factoryDigest (ucode : Bool) : List (BitVec 8)

/-- Whether the key of the leaf certificate is the identity key (R415, DESIGN CHOICE, log 23). -/
opaque certificateMatches : Bool

/-- The device certificate chain in flash (R415, DESIGN CHOICE, log 23). -/
opaque certificateChain : List (BitVec 8)

/-- What a key exchange of SPDM answers (R416): the session's secrets are the device's own (DESIGN CHOICE, log 23). -/
opaque keyShare (counter : Nat) (data : List (BitVec 8)) : List (BitVec 8)

/-- SHA-256 of the factory's bank repair maps followed by the repair journal (Table 12-14): the maps are not modelled
(DESIGN CHOICE, log 24). -/
opaque mapsDigest (journal : List (BitVec 8)) : List (BitVec 8)

/-- Whether the Cupola's own error-correcting code (R465) corrects a word with these bits in error: the spec does not
give its strength (DESIGN CHOICE, log 27). -/
opaque cupolaCorrects (bits : List Nat) : Bool

/-- The neighbour Nj of a core in its Spire's mesh (R98, R116): the spec gives no map of the mesh; none where there is no
neighbour (DESIGN CHOICE, log 29). -/
opaque neighbour (v : Variant) (core j : Nat) : Option Nat

/-- The spread of an approximated function's permitted error, chosen by a free value (R145, DEDUCED, log 16). -/
def freeMod (purpose counter index n : Nat) : Nat := freeValue purpose counter index % n

end Config
end Sys2Proof
end

