-- ==== Sys2Proof/Machine/Sparse.lean ====
section
/-! DEFINITION. Sparse data in one canonical form: pairs of a key and a value, keys strictly rising, no value equal to
what an unlisted key reads as. Byte memories are the case of bytes, where an unlisted byte reads as zero. -/

namespace Sys2Proof.Machine

/-- The value at key `k`; `d` where nothing is listed. -/
def mget {α : Type} (d : α) : List (Nat × α) → Nat → α
  | [], _ => d
  | (j, v) :: r, k => if k = j then v else mget d r k

/-- The pair `(k, v)` in its place among keys that rise. -/
def minsert {α : Type} (k : Nat) (v : α) : List (Nat × α) → List (Nat × α)
  | [] => [(k, v)]
  | (j, w) :: r => if k < j then (k, v) :: (j, w) :: r else (j, w) :: minsert k v r

/-- The map with `v` at key `k`: listed unless `v` is the default. -/
def mset {α : Type} [DecidableEq α] (d : α) (m : List (Nat × α)) (k : Nat) (v : α) : List (Nat × α) :=
  let r := m.filter fun c => !decide (c.1 = k)
  if v = d then r else minsert k v r

/-- Every key listed is above `k`. -/
def allAbove {α : Type} (k : Nat) (m : List (Nat × α)) : Bool :=
  match m with
  | [] => true
  | (j, _) :: _ => decide (k < j)

/-- The canonical form. -/
def mwf {α : Type} [DecidableEq α] (d : α) : List (Nat × α) → Bool
  | [] => true
  | (k, v) :: r => !decide (v = d) && allAbove k r && mwf d r

/-- The map with every key from `lo` up to `lo + n - 1` at its default. -/
def mclear {α : Type} (m : List (Nat × α)) (lo n : Nat) : List (Nat × α) :=
  m.filter fun c => !(decide (lo ≤ c.1) && decide (c.1 < lo + n))

/-- Change the value at one key. -/
def mmodify {α : Type} [DecidableEq α] (d : α) (m : List (Nat × α)) (k : Nat) (f : α → α) : List (Nat × α) :=
  mset d m k (f (mget d m k))

/-- Change every listed value. -/
def mmapv {α : Type} [DecidableEq α] (d : α) (f : Nat → α → α) : List (Nat × α) → List (Nat × α)
  | [] => []
  | (k, v) :: r =>
    let r := (mmapv d f r).filter fun c => !decide (c.1 = k)
    if f k v = d then r else (k, f k v) :: r

/-- A byte memory: pairs of an address and a byte. An unlisted byte reads as zero. -/
abbrev Memory := List Host.Cell

namespace Memory

/-- One byte. -/
def get (m : Memory) (a : Nat) : Byte := mget 0 m a

/-- One byte written. -/
def set (m : Memory) (a : Nat) (b : Byte) : Memory := mset 0 m a b

/-- The canonical form of a byte memory. -/
def wf (m : Memory) : Bool := mwf (0 : Byte) m

/-- `n` bytes from `a`, lowest address first. -/
def bytes (m : Memory) (a : Nat) : Nat → List Byte
  | 0 => []
  | n + 1 => m.get a :: bytes m (a + 1) n

/-- Bytes written from `a`, lowest address first. -/
def setBytes (m : Memory) (a : Nat) : List Byte → Memory
  | [] => m
  | b :: r => (m.set a b).setBytes (a + 1) r

/-- `n` bytes from `a` as a little-endian number (R6). -/
def num (m : Memory) (a : Nat) : Nat → Nat
  | 0 => 0
  | n + 1 => (m.get a).toNat + 256 * num m (a + 1) n

/-- The low `n` bytes of `v` written little-endian from `a` (R6). -/
def setNum (m : Memory) (a : Nat) : Nat → Nat → Memory
  | 0, _ => m
  | n + 1, v => (m.set a (BitVec.ofNat 8 v)).setNum (a + 1) n (v / 256)

/-- `n` bytes from `a` at zero. -/
def zero (m : Memory) (a n : Nat) : Memory := mclear m a n

/-- The `n` bytes from `a`, as a memory of their own that begins at 0. -/
def slice (m : Memory) (a n : Nat) : Memory :=
  (m.filter fun c => decide (a ≤ c.1) && decide (c.1 < a + n)).map fun c => (c.1 - a, c.2)

/-- The listed bytes of `t` written from `a`. -/
def overlay (m : Memory) (a : Nat) : Memory → Memory
  | [] => m
  | (k, b) :: r => (m.overlay a r).set (a + k) b

/-- The `n` bytes from `a` replaced by those of `t`. -/
def paste (m : Memory) (a n : Nat) (t : Memory) : Memory :=
  (m.zero a n).overlay a (t.filter fun c => decide (c.1 < n))

/-- The listed bytes of a list of bytes that begins at `a`. -/
def ofBytes (a : Nat) : List Byte → Memory
  | [] => []
  | b :: r => if b = 0 then ofBytes (a + 1) r else (a, b) :: ofBytes (a + 1) r

end Memory

/-- A little-endian number of `n` bytes, as a list of bytes. -/
def leBytes : Nat → Nat → List Byte
  | 0, _ => []
  | n + 1, v => BitVec.ofNat 8 v :: leBytes n (v / 256)

/-- The little-endian value of a list of bytes. -/
def leNum : List Byte → Nat
  | [] => 0
  | b :: r => b.toNat + 256 * leNum r

/-- The value of a list of bytes, the most significant first. -/
def beNum (l : List Byte) : Nat := l.foldl (fun a b => 256 * a + b.toNat) 0

/-- A big-endian number of `n` bytes. -/
def beBytes (n v : Nat) : List Byte := (leBytes n v).reverse

end Sys2Proof.Machine
end

