-- ==== Sys2Proof/Machine/Numbers.lean ====
section
/-! DEFINITION. Numbers (02_numbers_and_tensors.md): the formats, exact values, the conversions of R40 to R45 and
FP32 arithmetic. A value is exact: a sign, a natural mantissa and an integer exponent. -/

namespace Sys2Proof.Machine

/-- The valid formats of Table 02-1. -/
inductive Format where
  | fp32 | bf16 | fp16 | e4m3 | e5m2 | mxE4m3 | mxE5m2 | mxE3m2 | mxE2m3 | mxE2m1 | int8 | int4 | mxInt8 | e8m0
  deriving DecidableEq, Repr

/-- The sticky flags of R44. -/
structure FpFlags where
  invalid : Bool := false
  overflow : Bool := false
  underflow : Bool := false
  clamped : Bool := false
  deriving DecidableEq, Repr

/-- An exact value: NaN, an infinity, or (-1)^neg * m * 2^e. -/
inductive Val where
  | nan (neg : Bool)
  | inf (neg : Bool)
  | fin (neg : Bool) (m : Nat) (e : Int)
  deriving DecidableEq, Repr

/-- The rounding modes of Table 02-3, without the reserved code. -/
inductive Rounding where
  | rne | rz | rs
  deriving DecidableEq, Repr

/-- How NaN is encoded in a floating-point format (Table 02-2). -/
inductive NanKind where
  | ieee | e4m3 | none
  deriving DecidableEq, Repr

/-- The fields of a floating-point element format (Table 02-2). -/
structure FloatSpec where
  ebits : Nat
  mbits : Nat
  bias : Nat
  inf : Bool
  nan : NanKind
  deriving DecidableEq, Repr

/-- The format of a format code (Table 02-1); none for the invalid codes. -/
def formatOf : Nat → Option Format
  | 1 => some .fp32 | 2 => some .bf16 | 3 => some .fp16 | 4 => some .e4m3 | 5 => some .e5m2
  | 6 => some .mxE4m3 | 7 => some .mxE5m2 | 8 => some .mxE3m2 | 9 => some .mxE2m3 | 10 => some .mxE2m1
  | 11 => some .int8 | 12 => some .int4 | 13 => some .mxInt8 | 14 => some .e8m0 | _ => none

/-- The format code (Table 02-1). -/
def formatCode : Format → Nat
  | .fp32 => 1 | .bf16 => 2 | .fp16 => 3 | .e4m3 => 4 | .e5m2 => 5 | .mxE4m3 => 6 | .mxE5m2 => 7
  | .mxE3m2 => 8 | .mxE2m3 => 9 | .mxE2m1 => 10 | .int8 => 11 | .int4 => 12 | .mxInt8 => 13 | .e8m0 => 14

/-- Element bits (Table 02-1). -/
def elemBits : Format → Nat
  | .fp32 => 32 | .bf16 => 16 | .fp16 => 16 | .mxE3m2 => 6 | .mxE2m3 => 6 | .mxE2m1 => 4 | .int4 => 4 | _ => 8

/-- The MX formats, scaled by blocks of 32 (Table 02-1). -/
def isMx : Format → Bool
  | .mxE4m3 | .mxE5m2 | .mxE3m2 | .mxE2m3 | .mxE2m1 | .mxInt8 => true
  | _ => false

/-- The formats scaled per tensor (Table 02-1). -/
def perTensor : Format → Bool
  | .e4m3 | .e5m2 | .int8 | .int4 => true
  | _ => false

/-- The formats of scaled rows (Table 02-4). -/
def rowFormat : Format → Bool
  | .mxE4m3 | .mxE5m2 | .mxE2m1 | .mxInt8 => true
  | _ => false

/-- The floating-point fields of a format (Table 02-2); none for the integer formats and E8M0. -/
def floatSpec : Format → Option FloatSpec
  | .fp32 => some ⟨8, 23, 127, true, .ieee⟩
  | .bf16 => some ⟨8, 7, 127, true, .ieee⟩
  | .fp16 => some ⟨5, 10, 15, true, .ieee⟩
  | .e4m3 | .mxE4m3 => some ⟨4, 3, 7, false, .e4m3⟩
  | .e5m2 | .mxE5m2 => some ⟨5, 2, 15, true, .ieee⟩
  | .mxE3m2 => some ⟨3, 2, 3, false, .none⟩
  | .mxE2m3 => some ⟨2, 3, 1, false, .none⟩
  | .mxE2m1 => some ⟨2, 1, 1, false, .none⟩
  | .int8 | .int4 | .mxInt8 | .e8m0 => none

/-- The MX emax of a format (Table 02-2, R38). -/
def mxEmax : Format → Int
  | .mxE4m3 => 8 | .mxE5m2 => 15 | .mxE3m2 => 4 | .mxE2m3 => 2 | .mxE2m1 => 2 | _ => 0

/-- The largest finite code of a floating-point format, without its sign (Table 02-2). -/
def maxCode (f : FloatSpec) : Nat :=
  if f.inf then 2 ^ (f.ebits + f.mbits) - 2 ^ f.mbits - 1
  else match f.nan with
    | .e4m3 => 2 ^ (f.ebits + f.mbits) - 2
    | _ => 2 ^ (f.ebits + f.mbits) - 1

/-- The value of a floating-point code (R36). -/
def decodeFloat (f : FloatSpec) (c : Nat) : Val :=
  let neg := c.testBit (f.ebits + f.mbits)
  let ex := field c f.mbits f.ebits
  let ma := field c 0 f.mbits
  let top : Bool := decide (ex = 2 ^ f.ebits - 1)
  let isNan : Bool := match f.nan with
    | .ieee => top && decide (ma ≠ 0)
    | .e4m3 => top && decide (ma = 2 ^ f.mbits - 1)
    | .none => false
  if isNan then .nan neg
  else if f.inf && top then .inf neg
  else if ex = 0 then .fin neg ma (1 - (f.bias : Int) - (f.mbits : Int))
  else .fin neg (2 ^ f.mbits + ma) ((ex : Int) - (f.bias : Int) - (f.mbits : Int))

/-- The value of a two's-complement code of `n` bits times 2^e (R38). -/
def decodeInt (n : Nat) (e : Int) (c : Nat) : Val :=
  let c := c % 2 ^ n
  if c < 2 ^ (n - 1) then .fin false c e else .fin true (2 ^ n - c) e

/-- The value of an E8M0 code (R37). -/
def decodeE8m0 (c : Nat) : Val :=
  if c % 256 = 255 then .nan false else .fin false 1 ((c % 256 : Nat) - 127)

/-- The value of an element's code before scaling (R36 to R38). -/
def decodeElem (f : Format) (c : Nat) : Val :=
  match floatSpec f with
  | some fs => decodeFloat fs c
  | none => match f with
    | .int8 => decodeInt 8 0 c
    | .int4 => decodeInt 4 0 c
    | .mxInt8 => decodeInt 8 (-6) c
    | _ => decodeE8m0 c

/-- The value times 2^k. -/
def scaleVal (v : Val) (k : Int) : Val :=
  match v with
  | .fin s m e => .fin s m (e + k)
  | x => x

/-- The value with a block scale applied (R39): a NaN scale makes it NaN. -/
def applyScale (v : Val) (scaleCode : Nat) : Val :=
  if scaleCode % 256 = 255 then .nan false else scaleVal v ((scaleCode % 256 : Nat) - 127)

/-- Number of bits of a natural number. -/
def bitLen (n : Nat) : Nat := if n = 0 then 0 else Nat.log2 n + 1

/-- Whether a value is a finite zero. -/
def isZeroVal : Val → Bool
  | .fin _ m _ => decide (m = 0)
  | _ => false

/-- The sign of a value. -/
def signOf : Val → Bool
  | .nan s => s
  | .inf s => s
  | .fin s _ _ => s

/-- Whether a kept magnitude is rounded up by one unit: `rem` is the remainder, of `d` bits (R40, Table 02-3). -/
def roundUp (mode : Rounding) (keep rem d rnd : Nat) : Bool :=
  match mode with
  | .rz => false
  | .rne => decide (2 * rem > 2 ^ d) || (decide (2 * rem = 2 ^ d) && decide (keep % 2 = 1))
  | .rs => decide ((if d ≥ 16 then rem >>> (d - 16) else rem <<< (16 - d)) + rnd % 65536 ≥ 65536)

/-- A magnitude m * 2^e rounded to a multiple of 2^q: the multiple (R40). -/
def roundAt (mode : Rounding) (m : Nat) (e q : Int) (rnd : Nat) : Nat :=
  if e ≥ q then m <<< (e - q).toNat
  else
    let d := (q - e).toNat
    let keep := m >>> d
    keep + b2n (roundUp mode keep (m % 2 ^ d) d rnd)

/-- The code of an infinity in a format that has one. -/
def infCode (f : FloatSpec) (neg : Bool) : Nat :=
  b2n neg <<< (f.ebits + f.mbits) ||| (2 ^ (f.ebits + f.mbits) - 2 ^ f.mbits)

/-- The canonical NaN: exponent and mantissa all ones, the sign kept (R43, DEDUCED, log 30). -/
def nanCode (f : FloatSpec) (neg : Bool) : Nat :=
  b2n neg <<< (f.ebits + f.mbits) ||| (2 ^ (f.ebits + f.mbits) - 1)

/-- The flag of an overflow. -/
def flagOverflow : FpFlags := { overflow := true }

/-- Conversion to a floating-point format (R40 to R43). `ovf` is the overflow mode: false IEEE, true SAT. `mx`: the
code belongs to an MX block, where R45 has already taken every NaN out. -/
def encodeFloat (f : FloatSpec) (mode : Rounding) (ovf : Bool) (rnd : Nat) (v : Val) : Nat × FpFlags :=
  let sgn (s : Bool) (c : Nat) : Nat := b2n s <<< (f.ebits + f.mbits) ||| c
  match v with
  | .nan s => match f.nan with
    | .none => (0, { invalid := true })
    | _ => (nanCode f s, {})
  | .inf s => if f.inf && !ovf then (infCode f s, {}) else (sgn s (maxCode f), flagOverflow)
  | .fin s m e =>
    if m = 0 then (sgn s 0, {})
    else
      let esub : Int := 1 - (f.bias : Int) - (f.mbits : Int)
      let q : Int := max (e + (bitLen m : Int) - (f.mbits + 1 : Nat)) esub
      let k := roundAt mode m e q rnd
      -- a carry out of the significand: the same value one exponent up
      let (k, q) := if k = 2 ^ (f.mbits + 1) then (2 ^ f.mbits, q + 1) else (k, q)
      let code := if k < 2 ^ f.mbits then k else ((q - esub).toNat + 1) * 2 ^ f.mbits + (k - 2 ^ f.mbits)
      if code > maxCode f then
        if f.inf && !ovf && decide (mode = .rne) then (infCode f s, flagOverflow) else (sgn s (maxCode f), flagOverflow)
      else (sgn s code, { underflow := decide (k = 0) })

/-- Conversion to an integer target of `n` bits whose unit is 2^q: symmetric saturation (R42, R43). -/
def encodeInt (n : Nat) (q : Int) (mode : Rounding) (rnd : Nat) (v : Val) : Nat × FpFlags :=
  let top := 2 ^ (n - 1) - 1
  let sgn (s : Bool) (k : Nat) : Nat := if s && decide (k ≠ 0) then 2 ^ n - k else k
  match v with
  | .nan _ => (0, { invalid := true })
  | .inf s => (sgn s top, flagOverflow)
  | .fin s m e =>
    let k := roundAt mode m e q rnd
    if k > top then (sgn s top, flagOverflow)
    else (sgn s k, { underflow := decide (m ≠ 0) && decide (k = 0) })

/-- What the spec leaves open of a conversion to E8M0: a free code with free flags (DESIGN CHOICE, log 31). -/
def freeE8m0 (inf neg : Bool) (m : Nat) (e : Int) : Nat × FpFlags :=
  let fl := Config.scaleFlags inf neg m e
  ((Config.scaleCode inf neg m e).toNat, { invalid := fl.1, overflow := fl.2.1, underflow := fl.2.2 })

/-- Conversion to E8M0: a power of two that a code stands for becomes that code, and a NaN the code 0xFF (R37, R43); the spec
states no conversion of any other value to a tensor of scales (DESIGN CHOICE, log 31). -/
def encodeE8m0 (v : Val) : Nat × FpFlags :=
  match v with
  | .nan _ => (255, {})
  | .inf s => freeE8m0 true s 0 0
  | .fin s m e =>
    let x : Int := e + (bitLen m : Int) - 1 + 127
    if !s && decide (m = 2 ^ (bitLen m - 1)) && decide (0 ≤ x) && decide (x ≤ 254) then (x.toNat, {}) else freeE8m0 false s m e

/-- Conversion of a value to the code of one element of a format (R40 to R43). -/
def encodeElem (f : Format) (mode : Rounding) (ovf : Bool) (rnd : Nat) (v : Val) : Nat × FpFlags :=
  match floatSpec f with
  | some fs => encodeFloat fs mode ovf rnd v
  | none => match f with
    | .int8 => encodeInt 8 0 mode rnd v
    | .int4 => encodeInt 4 0 mode rnd v
    | .mxInt8 => encodeInt 8 (-6) mode rnd v
    | _ => encodeE8m0 v

/-- The flags of two sources together. -/
def orFlags (a b : FpFlags) : FpFlags :=
  { invalid := a.invalid || b.invalid, overflow := a.overflow || b.overflow,
    underflow := a.underflow || b.underflow, clamped := a.clamped || b.clamped }

/-- The flag byte of a record and FPSTAT's bits [3:0] (Table 03-3). -/
def flagBits (f : FpFlags) : Nat :=
  b2n f.invalid + 2 * b2n f.overflow + 4 * b2n f.underflow + 8 * b2n f.clamped

/-- The flags of bits [3:0] (Table 03-3). -/
def flagsOfBits (n : Nat) : FpFlags :=
  { invalid := n.testBit 0, overflow := n.testBit 1, underflow := n.testBit 2, clamped := n.testBit 3 }

/-- Compare magnitudes a * 2^ea and b * 2^eb: whether the first is less. -/
def magLt (a : Nat) (ea : Int) (b : Nat) (eb : Int) : Bool :=
  if ea ≥ eb then decide (a <<< (ea - eb).toNat < b) else decide (a < b <<< (eb - ea).toNat)

/-- Compare magnitudes for equality. -/
def magEq (a : Nat) (ea : Int) (b : Nat) (eb : Int) : Bool :=
  if ea ≥ eb then decide (a <<< (ea - eb).toNat = b) else decide (a = b <<< (eb - ea).toNat)

/-- The largest finite magnitude of a block, as (mantissa, exponent); none when every element is zero or not finite. -/
def blockMax : List Val → Option (Nat × Int)
  | [] => none
  | v :: r =>
    let rest := blockMax r
    match v with
    | .fin _ m e =>
      if m = 0 then rest
      else match rest with
        | none => some (m, e)
        | some (m', e') => if magLt m e m' e' then some (m', e') else some (m, e)
    | _ => rest

/-- Whether a block holds a NaN. -/
def hasNan : List Val → Bool
  | [] => false
  | .nan _ :: _ => true
  | _ :: r => hasNan r

/-- The exponent that R45 chooses for a block of format `f`, clamped to -127 to 127. -/
def blockExp (f : Format) (vs : List Val) : Int :=
  match blockMax vs with
  | none => -127
  | some (m, e) => min (max (e + (bitLen m : Int) - 1 - mxEmax f) (-127)) 127

/-- Convert a list of values, the i-th with the random value `rnd (base + i)`. -/
def encodeList (f : Format) (mode : Rounding) (ovf : Bool) (rnd : Nat → Nat) (base : Nat) :
    List Val → List Nat × FpFlags
  | [] => ([], {})
  | v :: r =>
    let (c, fl) := encodeElem f mode ovf (rnd base) v
    let (cs, fs) := encodeList f mode ovf rnd (base + 1) r
    (c :: cs, orFlags fl fs)

/-- Quantise one MX block (R45): the scale code, the element codes and the flags. -/
def quantiseBlock (f : Format) (mode : Rounding) (ovf : Bool) (rnd : Nat → Nat) (base : Nat) (vs : List Val) :
    Nat × List Nat × FpFlags :=
  if hasNan vs then (255, vs.map fun _ => 0, { invalid := true })
  else
    let e := blockExp f vs
    let (cs, fl) := encodeList f mode ovf rnd base (vs.map fun v => scaleVal v (-e))
    ((e + 127).toNat, cs, fl)

/-! FP32 arithmetic: exact, then one rounding. -/

/-- The sum of two values, exact; an invalid sum is NaN. Opposite values sum to +0. -/
def addVal (a b : Val) : Val × FpFlags :=
  match a, b with
  | .nan _, _ => (.nan false, {})
  | _, .nan _ => (.nan false, {})
  | .inf s, .inf t => if s = t then (.inf s, {}) else (.nan false, { invalid := true })
  | .inf s, _ => (.inf s, {})
  | _, .inf t => (.inf t, {})
  | .fin s m e, .fin t n f =>
    if m = 0 && n = 0 then (.fin (s && t) 0 0, {})
    else
      let q := min e f
      let x : Int := (m <<< (e - q).toNat : Nat) * (if s then -1 else 1)
      let y : Int := (n <<< (f - q).toNat : Nat) * (if t then -1 else 1)
      let z := x + y
      (.fin (decide (z < 0)) z.natAbs q, {})

/-- The negated value. -/
def negVal : Val → Val
  | .nan s => .nan s
  | .inf s => .inf (!s)
  | .fin s m e => .fin (!s) m e

/-- The product of two values, exact. -/
def mulVal (a b : Val) : Val × FpFlags :=
  match a, b with
  | .nan _, _ => (.nan false, {})
  | _, .nan _ => (.nan false, {})
  | .inf s, .inf t => (.inf (s != t), {})
  | .inf s, .fin t n _ => if n = 0 then (.nan false, { invalid := true }) else (.inf (s != t), {})
  | .fin s m _, .inf t => if m = 0 then (.nan false, { invalid := true }) else (.inf (s != t), {})
  | .fin s m e, .fin t n f => (.fin (s != t) (m * n) (e + f), {})

/-- FP32 as a floating-point format. -/
def fp32 : FloatSpec := ⟨8, 23, 127, true, .ieee⟩

/-- The value of an FP32 bit pattern. -/
def ofFp32 (w : Word) : Val := decodeFloat fp32 w.toNat

/-- One RNE rounding to FP32 with IEEE overflow: the rounded value and its flags (R144). -/
def roundFp32 (v : Val) : Val × FpFlags :=
  let (c, fl) := encodeFloat fp32 .rne false 0 v
  (decodeFloat fp32 c, fl)

/-- The FP32 bit pattern of a value that FP32 holds. -/
def toFp32 (v : Val) : Word := BitVec.ofNat 32 (encodeFloat fp32 .rne false 0 v).1

/-- FP32 addition (R71: IEEE binary32, subnormals kept). -/
def addFp32 (a b : Val) : Val × FpFlags :=
  let (x, f1) := addVal a b
  let (r, f2) := roundFp32 x
  (r, orFlags f1 f2)

/-- FP32 multiplication. -/
def mulFp32 (a b : Val) : Val × FpFlags :=
  let (x, f1) := mulVal a b
  let (r, f2) := roundFp32 x
  (r, orFlags f1 f2)

/-- FP32 fused multiply-add: one rounding. -/
def fmaFp32 (a b c : Val) : Val × FpFlags :=
  let (x, f1) := mulVal a b
  let (y, f2) := addVal x c
  let (r, f3) := roundFp32 y
  (r, orFlags f1 (orFlags f2 f3))

/-- A subnormal FP32 result flushed to zero of its sign, with UNDERFLOW (R71: the matrix unit, the bank units and the
reducer tree). -/
def flushFp32 (v : Val) : Val × FpFlags :=
  match v with
  | .fin s m e =>
    if m ≠ 0 && decide (e + (bitLen m : Int) - 1 < -126) then (.fin s 0 0, { underflow := true }) else (v, {})
  | x => (x, {})

/-- One accumulation with one RNE rounding and the flush of R71. -/
def accAdd (a b : Val) : Val × FpFlags :=
  let (x, f1) := addVal a b
  let (r, f2) := roundFp32 x
  let (z, f3) := flushFp32 r
  (z, orFlags f1 (orFlags f2 f3))

/-- Whether `a` is less than `b`, for values that are not NaN; -0 counts as less than +0 (R143). -/
def valLt (a b : Val) : Bool :=
  match a, b with
  | .nan _, _ => false
  | _, .nan _ => false
  | .inf s, .inf t => s && !t
  | .inf s, _ => s
  | _, .inf t => !t
  | .fin s m e, .fin t n f =>
    if s && !t then true
    else if !s && t then false
    else if s then magLt n f m e
    else magLt m e n f

/-- IEEE 754-2019 maximum: NaN if an operand is NaN (R143). -/
def maxVal (a b : Val) : Val :=
  match a, b with
  | .nan _, _ => .nan false
  | _, .nan _ => .nan false
  | x, y => if valLt x y then y else x

/-- IEEE 754-2019 minimum (R143). -/
def minVal (a b : Val) : Val :=
  match a, b with
  | .nan _, _ => .nan false
  | _, .nan _ => .nan false
  | x, y => if valLt y x then y else x

end Sys2Proof.Machine
end

