-- ==== Sys2Proof/Machine/State.lean ====
section
/-! DEFINITION. The state of the block: every register, queue, buffer, counter, mode and pin the spec names, the queue
of waiting commands, the reasons a step can stop, and the state after reset. Plain data throughout. -/

namespace Sys2Proof.Machine

/-- The status codes of Table 10-4 (R349). -/
inductive Status where
  | ok | aborted | overrun | poison | descInvalid | bounds | tableBusy | checkFail | flrCancelled | linkDown
  | uncorrected | noKvSpace | refused
  deriving DecidableEq, Repr

/-- The check state of a 32-byte word (R166 to R172): never written since its contents were last lost; written and
good under a protection type; stored poisoned; or with bits of its code word in error, in ascending order, that a write-back
cures or not. -/
inductive WordMark where
  | never
  | good (prot : Nat)
  | poison (prot : Nat)
  | bad (prot : Nat) (bits : List Nat) (hard : Bool)
  deriving DecidableEq, Repr

/-- A memory with check state: bytes by address, and a mark for each 32-byte word (address / 32): the mark listed for the
word itself, else that of the first range of words (first word, number, mark) that holds it, else never written. -/
structure Ram where
  bytes : Memory := []
  marks : List (Nat × Option WordMark) := []
  fills : List (Nat × Nat × WordMark) := []
  deriving DecidableEq, Repr

/-! ## Compute core -/

/-- Binding kinds (Table 03-12). -/
inductive BindKind where
  | unbound | local | towerReturn | dmaIn | dmaOut | neighbourOut | neighbourIn | cupolaIn | cupolaOut
  deriving DecidableEq, Repr

/-- A queue end (R90 to R99): its binding, its region of the tile store, the tags of the tiles held (oldest first), and
the progress of a Cupola flow. -/
structure Queue where
  kind : BindKind := .unbound
  fmt : Format := .fp32
  depth : Nat := 1
  base : Nat := 0
  head : Nat := 0
  tags : List Word := []
  /-- of CUPOLA_OUT: where each tile held stands in the core's order of pushes (R268) -/
  stamps : List Nat := []
  /-- channel, or neighbour -/
  param : Nat := 0
  /-- remote queue of NEIGHBOUR_OUT -/
  remote : Nat := 0
  /-- logical core of the neighbour -/
  peer : Nat := 0
  flowBase : Nat := 0
  flowStride : Nat := 0
  flowCount : Nat := 0
  /-- tiles the flow has pushed (CUPOLA_IN) or that were pushed to it (CUPOLA_OUT) -/
  flowDone : Nat := 0
  /-- tiles a CUPOLA_OUT flow has written -/
  flowWritten : Nat := 0
  /-- bound by the layer sequencer (R107) -/
  bySeq : Bool := false
  deriving DecidableEq, Repr

/-- An accumulator bank (R101, R148): its shape, its poison mark, and its FP32 cells at 64 * row + column. -/
structure AccBank where
  rows : Nat := 1
  cols : Nat := 1
  poison : Bool := false
  cells : List (Nat × Word) := []
  deriving DecidableEq, Repr

/-- What an atomic will apply (R138): the operation, the operand, and for CAS the new value. -/
structure AtomArgs where
  size : Nat
  aop : Nat
  value : Nat
  new : Nat
  deriving DecidableEq, Repr

/-- A D-slot operation in flight (R87, R134). `tag` of a remote operation is the TAG of its flit. -/
inductive DOp where
  | fld (size rd addr : Nat) (tag : Option Nat)
  | fst (size addr value : Nat) (counter : Option Nat) (tag : Option Nat)
  | atom (args : AtomArgs) (scope rd addr : Nat) (tag : Option Nat)
  /-- `marks`: the tiles pushed to each CUPOLA_OUT queue before it (R271) -/
  | fence (scope : Nat) (marks : List (Nat × Nat))
  | semacq (sem scope : Nat)
  | semrel (sem scope : Nat) (marks : List (Nat × Nat))
  | cntwait (counter value : Nat)
  | dmak (channel addr : Nat)
  | tflush (addr len : Nat)
  | tinval (addr len : Nat)
  | lcfg (addr : Nat)
  deriving DecidableEq, Repr

/-- How far an operation in flight has come. -/
inductive DPhase where
  | started
  /-- the value has come back (FLD), or the old value (ATOM) -/
  | value (v : Nat)
  /-- ended with a status that is not OK -/
  | failed (st : Status)
  /-- the work is done and the completion waits -/
  | finished
  deriving DecidableEq, Repr

/-- An entry of the core's list of operations in flight, oldest first. -/
structure InFlight where
  op : DOp
  flag : Option Nat := none
  phase : DPhase := .started
  /-- tiles pushed to CUPOLA_OUT queues before it (R268) -/
  stamp : Nat := 0
  deriving DecidableEq, Repr

/-- Why the next long word waits (R84, R100, R106, R108, R119, R141). The waits that count against CTIMEOUT keep the
slots at fault and the length of the long word for the trap. -/
inductive StallReason where
  | flags
  | queue (ends : List Nat) (slots len : Nat)
  | unit
  | tower
  | register
  | sequencer
  | channel (c slots len : Nat)
  deriving DecidableEq, Repr

/-- A line of the instruction cache: good, or fetched with an uncorrectable error (R79). -/
inductive LineState where
  | good | bad
  deriving DecidableEq, Repr

/-- A loaded tensor descriptor (Table 02-8), the engine's working copy. -/
structure TensorDesc where
  ndim : Nat
  clamp : Nat
  layout : Nat
  fmt : Format
  base : Nat
  gen : Nat
  index : Nat
  ext : List Nat
  strides : List Nat
  scale : Word
  deriving DecidableEq, Repr

/-- What the running slice of the layer sequencer is at (R107): output tiles in the order of the loop nest, the number
of tiles done, the TGEMV groups issued, and the commands outstanding. -/
structure SliceRun where
  /-- end of the slice's range along SPLIT_AXIS -/
  hi : Nat
  /-- output tiles not yet run, as (batch, first row, first column) -/
  tiles : List (Nat × Nat × Nat)
  /-- TGEMV groups not yet issued, as (batch, first row, rows) -/
  groups : List (Nat × Nat × Nat)
  /-- TGEMV groups issued and not yet returned, in issue order -/
  issued : List (Nat × Nat × Nat) := []
  /-- tiles returned so far of the oldest group issued -/
  back : Nat := 0
  /-- tower results merged so far: (batch, row, column, FP32 bits, poison) -/
  merged : List (Nat × Nat × Nat × Word × Bool) := []
  poisoned : Bool := false
  status : Status := .ok
  /-- the queue end of each operand that has one, by its QSPEC's word -/
  ends : List (Nat × Nat) := []
  /-- output tiles run, which take the accumulator banks in turn -/
  ran : Nat := 0
  deriving DecidableEq, Repr

/-- The layer sequencer (R102 to R111): the working LCB as words 0 to 127, its descriptors, LSTAT's fields, the slice. -/
structure LayerSeq where
  lcb : List (Nat × Word) := []
  aDesc : Option TensorDesc := none
  bDesc : Option TensorDesc := none
  cDesc : Option TensorDesc := none
  biasDesc : Option TensorDesc := none
  residDesc : Option TensorDesc := none
  btDesc : Option TensorDesc := none
  loaded : Bool := false
  failWord : Nat := 0
  status : Status := .ok
  run : Option SliceRun := none
  /-- a bounds violation to be taken at the next long-word boundary (R111), with its address where there is one -/
  trap : Option (Option Nat) := none
  deriving DecidableEq, Repr

/-- The task placed on a core (R74, R303). -/
structure Task where
  part : Nat
  job : Nat
  index : Nat
  cls : Nat
  codeBase : Nat
  deriving DecidableEq, Repr

/-- A compute core (R73, Table 03-2). -/
structure Core where
  sregs : List (Nat × Word) := []
  pc : Word := 0
  dmem : Memory := []
  tiles : Memory := []
  queues : List (Nat × Queue) := []
  acc : List (Nat × AccBank) := []
  live : List (Nat × Nat) := []
  flags : BitVec 8 := 0
  lost : BitVec 8 := 0
  fpstat : FpFlags := {}
  ctimeout : Word := 2700000
  trapVec : Word := 0
  trapCause : Word := 0
  trapPc : Word := 0
  trapAddr : BitVec 48 := 0
  cycles : BitVec 64 := 0
  cycleHi : Word := 0
  discSel : Word := 0
  trapMode : Bool := false
  trapLen : Nat := 0
  inflight : List InFlight := []
  /-- tiles pushed to CUPOLA_OUT queues so far -/
  pushes : Nat := 0
  stall : Option StallReason := none
  ending : Bool := false
  icache : List (Nat × LineState) := []
  /-- the long word that hinted LOOP_HEAD, by its address, and the address of the program text after it (R83) -/
  loopHead : Option (Nat × Nat) := none
  task : Option Task := none
  /-- partition and job of the task placed last -/
  lastJob : Option (Nat × Nat) := none
  seq : LayerSeq := {}
  /-- stopped between long words for a pre-emption or a drain (R113, R432) -/
  halted : Bool := false
  /-- physical core on its Spire; none once retired (R19, R433) -/
  phys : Option Nat := none
  retired : Bool := false
  /-- under test (R432): true while REPLACE was asked -/
  testing : Option Bool := none
  drained : Bool := false
  /-- microcode slot loaded: true for slot B (R414) -/
  ucodeB : Bool := false
  /-- the class that its group's purse was charged for in this epoch (R322) -/
  paidClass : Option Nat := none
  deriving DecidableEq, Repr

/-! ## Tower -/

/-- A frame table entry (Table 05-5). -/
structure Frame where
  valid : Bool := false
  checked : Bool := false
  init : Bool := false
  engineRo : Bool := false
  migrating : Bool := false
  band : Nat := 0
  deriving DecidableEq, Repr

/-- A migration (R181): its frame and its destination band. -/
structure Migration where
  frame : Nat
  dest : Nat
  deriving DecidableEq, Repr

/-- A frame in the corrected-error tracking table (R180). -/
structure Track where
  count : Nat
  logged : Bool
  deriving DecidableEq, Repr

/-- A row or column repair of a bank (R436, R437): key of the bank, physical row, code word. -/
structure RowRepair where
  floor : Nat
  bank : Nat
  row : Nat
  word : Nat
  deriving DecidableEq, Repr

/-- What the sequencer works out when a command passes its check (R192 to R194): the descriptors created in the order of
the command's fields, the bank set as floor * 64 + bank, and the work W of R223. -/
structure CmdCheck where
  descs : List (Option TensorDesc)
  banks : List Nat
  work : Nat
  deriving DecidableEq, Repr

/-- The operands that the layer sequencer passes with its TGEMV (R206): the working copies of A_DESC and BT_DESC, and the
window parameters of a CONV layer. -/
structure SeqOperands where
  x : TensorDesc
  w : TensorDesc
  axes : Nat
  axisA : Nat
  axisB : Nat
  win0 : Nat
  win1 : Nat
  deriving DecidableEq, Repr

/-- A tower command in the queue or running (R191): the long word's fields and the 64-byte parameter block. -/
structure TowerCmd where
  cmd : TCmd
  params : List Byte
  core : Nat
  part : Nat
  job : Nat
  qret : Nat := 0
  retEn : Bool := false
  flag : Option Nat := none
  /-- issued by the layer sequencer, with these operands (R107, R206) -/
  bySeq : Option SeqOperands := none
  /-- the number of the command in the tower's order of issue (R97) -/
  order : Nat := 0
  checked : Option CmdCheck := none
  /-- its first instalment is paid (R195, R322) -/
  paid : Bool := false
  deriving DecidableEq, Repr

/-- A result tile in a return buffer (R199). -/
structure RetTile where
  rows : Nat
  cols : Nat
  poison : Bool
  last : Bool
  /-- FP32 cells at 64 * row + column -/
  cells : List (Nat × Word)
  deriving DecidableEq, Repr

/-- A tower command that has started and is not complete: its result tiles, its status and flags. -/
structure Running where
  cmd : TowerCmd
  /-- its work in the Keep is not yet done (R200, R201) -/
  working : Bool := true
  status : Status := .ok
  fp : FpFlags := {}
  degraded : Bool := false
  tiles : List RetTile := []
  progress : Nat := 0
  /-- result tiles pushed so far -/
  returned : Nat := 0
  /-- FCLK cycles from its start to the end of its work (R202), and those of them that count against BOUND (R200, R326) -/
  ran : Nat := 0
  counted : Nat := 0
  /-- units of work paid for (R322) -/
  unitsPaid : Nat := 0
  /-- its result tiles are dropped (R312) -/
  dropTiles : Bool := false
  /-- ended before it started: it runs nothing and only completes (R154, R155) -/
  unstarted : Bool := false
  /-- its partition is being disabled or reset: no flag is set (R374) -/
  silent : Bool := false
  deriving DecidableEq, Repr

/-- A staged entry of a sequence (R240): the token number of a committed token or the number of a candidate, its cells (codes
and scales of K, then of V), and the KV heads that are poisoned (R219). -/
structure Staged where
  committed : Bool
  key : Nat
  cells : List Byte
  poison : List Nat := []
  deriving DecidableEq, Repr

/-- The directory entry of a sequence table in the staging buffer (R240). -/
structure StageDir where
  table : Nat
  entries : List Staged := []
  deriving DecidableEq, Repr

/-- A tower: its Keep and floors. -/
structure Tower where
  ram : Ram := {}
  frames : List (Nat × Frame) := []
  owner : Nat := 15
  sanitiseBusy : Bool := false
  hot : Bool := false
  hotFloor : Nat := 0
  tempC : Nat := 0
  migration : Option Migration := none
  /-- logical floor being evacuated -/
  evac : Option Nat := none
  scrubPos : Nat := 0
  scrubPasses : Nat := 0
  ceCount : Nat := 0
  ueCount : Nat := 0
  track : List (Nat × Track) := []
  rowRepairs : List RowRepair := []
  /-- code-word columns being copied, and repaired, with row 0 -/
  colBusy : List RowRepair := []
  colRepairs : List RowRepair := []
  /-- banks that have logged BANK_SPARES_OUT, as floor * 64 + bank -/
  sparesOut : List Nat := []
  chanFail : Nat := 0
  tsvFail : Nat := 0
  retired : List (Nat × Word) := []
  /-- OTP floor map: the physical floor that logical floors skip (R399) -/
  skip : Nat := 16
  /-- logical floor that the spare floor has replaced -/
  spareFor : Option Nat := none
  queue : List TowerCmd := []
  nextOrder : Nat := 0
  running : List Running := []
  doneCount : Word := 0
  overrunCount : Word := 0
  lastOverrun : Word := 0
  busy : BitVec 64 := 0
  busyHi : Word := 0
  staging : List StageDir := []
  fclk : BitVec 64 := 0
  /-- microcode slot that the Keep holds: true for slot B (R414) -/
  ucodeB : Bool := false
  deriving DecidableEq, Repr

/-! ## Cupolas -/

/-- A cached line of a Cupola (R23, R270): 256 bytes of a partition's hashed view. -/
structure Line where
  part : Nat
  addr : Nat
  data : Memory
  /-- words of the line that are poisoned -/
  poison : List Nat
  /-- words of the line in which the fill found an error (R137) -/
  found : List Nat := []
  dirty : Bool
  deriving DecidableEq, Repr

/-- The state of a scratch granule (R24, Table 01-10). -/
structure Granule where
  scratch : Bool := false
  part : Nat := 15
  busy : Bool := false
  err : Bool := false
  /-- the assignment that the running change will give -/
  next : Option (Bool × Nat) := none
  deriving DecidableEq, Repr

/-! ## Error records -/

/-- The error codes of Table 13-4 (R423). -/
inductive ErrCode where
  | memCe | memUe | memUninit | memCeRate | memUnmapped | rowRepair | colRepair | bankSparesOut | chanFold
  | floorEvac | floorLost | coreCe | coreUe | coreReplaced | coreRetired | keepSramCe | keepCtlUe | stagingUe
  | landingPartUe | cupolaCe | cupolaUe | cupolaCtlUe | linkLaneFail | linkDown | linkRefused | linkCheckFail
  | linkDrop | brake | thermTrip | supplyFail | sharedUe | landingCe | groupOut
  deriving DecidableEq, Repr

/-- The error classes of Table 13-1. -/
inductive ErrClass where
  | corrected | deferred | contained | fatal
  deriving DecidableEq, Repr

/-- An error record in the Landing's queue (Table 13-2, R424). -/
structure ErrRec where
  code : ErrCode
  part : Nat := 15
  cls : ErrClass
  extent : Nat := 0
  status : Status := .ok
  kind : Nat
  index : Nat := 0
  physHi : Nat := 255
  physLo : Nat := 255
  addr : Nat := 0
  count : Nat := 1
  detail : Nat := 0
  cycles : Nat := 0
  deriving DecidableEq, Repr

/-- The unit that makes an access or writes a record (Table 10-7), or the host. -/
inductive Agent where
  | core (c : Nat)
  | tower (t : Nat)
  | dma (e : Nat)
  | link (l : Nat)
  | dispatcher (p : Nat)
  | serving (p : Nat)
  | cupola (s : Nat)
  | host
  deriving DecidableEq, Repr

/-! ## Home groups, partitions -/

/-- The power states of Table 09-8. -/
inductive PState where
  | g0 | g1 | g2 | g3 | g4
  deriving DecidableEq, Repr

/-- A home group (R27, R319 to R330, R396). -/
structure Group where
  pstate : PState := .g4
  /-- ACLK ratio in effect: 0 for one half, 1 one third, 2 one quarter -/
  ratio : Nat := 0
  /-- ratio requested and not yet in effect (R27) -/
  ratioNext : Option Nat := none
  /-- dispatch held for a ratio change (R27) -/
  dispatchHeld : Bool := false
  outOfService : Bool := false
  /-- the purse and the last grant, in quarter tolls (R320) -/
  purse : Int := 0
  grant : Nat := 0
  /-- epochs in a row with a core held, and with none held (R328) -/
  heldRun : Nat := 0
  clearRun : Nat := 0
  /-- under test (R443) -/
  testing : Bool := false
  deriving DecidableEq, Repr

/-- The states of PSTAT.STATE (Table 11-4). -/
inductive PartState where
  | disabled | enabled | draining | cleaning | flr
  deriving DecidableEq, Repr

/-- The states of PJOB_STAT.STATE (Table 09-12). -/
inductive JobState where
  | disabled | idle | ready | resident | preempted | faulted | killing | loading
  deriving DecidableEq, Repr

/-- A RUN command in progress (Table 09-1) and how far it has come (R303, R304). -/
structure RunCmd where
  cls : Nat
  irq : Bool
  modelEn : Bool
  hot : Bool
  model : Nat
  ntasks : Nat
  argLen : Nat
  codeBase : Nat
  entry : Nat
  tag : Nat
  args : Nat
  record : Nat
  /-- tasks placed so far: the next index to place -/
  placed : Nat := 0
  /-- tasks that have ended -/
  ended : Nat := 0
  /-- core of the last task that ended, or of the task whose fault decided the status -/
  lastCore : Nat := 0
  status : Status := .ok
  trapCause : Word := 0
  /-- the model is resident and its REFS raised -/
  modelUp : Bool := false
  /-- the load that runs (R316): 1 COLD to WARM, 2 WARM to HOT, with the place of the hot copy -/
  load : Nat := 0
  loadAt : Nat := 0
  deriving DecidableEq, Repr

/-- A core's context while its job is pre-empted: the parts whose memory layout belongs to the implementation (R311) -/
structure SavedCore where
  core : Nat
  ctx : Core
  deriving DecidableEq, Repr

/-- A job (R299). Its ring, core set, channels and context area are registers of its job block. -/
structure Job where
  state : JobState := .disabled
  donated : Bool := false
  /-- the job whose standing it runs with, and the semaphore (R314) -/
  donor : Option (Nat × Nat) := none
  held : Bool := false
  age : Nat := 0
  faultStatus : Status := .ok
  account : BitVec 64 := 0
  acctHi : Word := 0
  /-- virtual time added when the job became ready (R306), a fraction -/
  vnum : Nat := 0
  vden : Nat := 1
  cmd : Option RunCmd := none
  saved : List SavedCore := []
  /-- a pre-emption is under way (R309) -/
  preempting : Bool := false
  /-- cycle count of its slice core at the start of the slice, and at its end while the contexts are saved -/
  sliceStart : Nat := 0
  sliceEnd : Nat := 0
  overrun : Nat := 0
  /-- the drain of a KILL or a disable: the status of what it cuts off -/
  killStatus : Status := .aborted
  /-- every task had ended before the KILL was accepted -/
  killLate : Bool := false
  /-- the Landing's FCLK count when the drain window began, and its length in cycles -/
  drainStart : Nat := 0
  drainLen : Nat := 0
  deriving DecidableEq, Repr

/-- What started the disable procedure (Table 11-6): what the partition becomes, the status of what it cuts off, and whether
it is a function level reset, whose host writes stop (R376). -/
structure Disable where
  toEnabled : Bool
  status : Status
  flr : Bool
  /-- the Landing's FCLK count at the start of the drain window, and its length in cycles -/
  start : Nat := 0
  window : Nat := 0
  /-- the drain window is over; in an FLR the function's outbound writes are stopped (R376) -/
  cut : Bool := false
  deriving DecidableEq, Repr

/-- A request that has ended and whose LAST entry waits for room in its ring (R258). -/
structure HeldLast where
  req : Nat
  status : Status
  flags : Nat
  deriving DecidableEq, Repr

/-- What the serving sequencer keeps for a live request beside its entry. -/
structure SrvReq where
  req : Nat
  /-- tokens to process in prompt chunks before GENERATE (R251, R253) -/
  target : Nat
  /-- it has been cut back, and no stream entry has been written since (R251) -/
  mark : Bool := false
  /-- the token at which it started as a fork (R249); 0 where it did not -/
  fork : Nat := 0
  /-- a tower command of its last step or chunk carried DEGRADED (R258) -/
  degraded : Bool := false
  /-- prefix-tree nodes that it uses, oldest first (R248) -/
  nodes : List Nat := []
  deriving DecidableEq, Repr

/-- The step in progress (R254): its model and its requests. -/
structure SrvStep where
  model : Nat
  reqs : List Nat
  /-- PRING_TAIL of the generation ring once its job was submitted -/
  tail : Nat
  deriving DecidableEq, Repr

/-- A prompt chunk in progress: its request, first token and tokens. -/
structure SrvChunk where
  req : Nat
  pos : Nat
  ntok : Nat
  /-- PRING_TAIL of the prompt ring once it was submitted -/
  tail : Nat
  /-- its request has been cut back since: its result is dropped (R250) -/
  cut : Bool := false
  deriving DecidableEq, Repr

/-- A serving sequencer (R252 to R261). -/
structure Serving where
  /-- ADMIT_SEQ of the next request admitted -/
  admitSeq : Nat := 0
  /-- steps begun -/
  steps : Nat := 0
  step : Option SrvStep := none
  chunks : List SrvChunk := []
  /-- requests cancelled, for the next step boundary -/
  cancels : List Nat := []
  /-- requests whose command ended with NO_KV_SPACE, for the next step boundary (R250) -/
  short : List Nat := []
  /-- tower commands of the serving rings that completed with DEGRADED: ring, PRING_HEAD then, and the sequence table that each
  names (R258) -/
  degraded : List (Nat × Nat × Option Nat) := []
  reqs : List SrvReq := []
  held : List HeldLast := []
  /-- FREE_HEAD of each tower's pool up to which the counts of pages taken are raised (R239) -/
  seen : List (Nat × Nat) := []
  /-- the nodes inserted, with the tower of each page of their page lists, which the nodes do not name (R247) -/
  nodes : List (Nat × List Nat) := []
  deriving DecidableEq, Repr

/-- A partition. -/
structure Part where
  state : PartState := .disabled
  disable : Option Disable := none
  counters : List (Nat × BitVec 64) := []
  sems : List (Nat × Word) := []
  /-- SEMACQs that wait, as (semaphore, core), in the order the Landing received them (R281) -/
  semWait : List (Nat × Nat) := []
  jobs : List (Nat × Job) := []
  /-- RUN commands started (Table 09-4) -/
  runs : Nat := 0
  srv : Serving := {}
  /-- UCODE_APPLY holds the dispatch and the serving steps (R414) -/
  ucodeHold : Bool := false
  deriving DecidableEq, Repr

/-! ## DMA -/

/-- A DMA descriptor (Table 10-2). -/
structure DmaDesc where
  next : Nat
  srcWrap : Nat
  src : Nat
  dstWrap : Nat
  dst : Nat
  len : Nat
  cls : Nat
  irq : Bool
  counter : Nat
  cntEn : Bool
  swap : Nat
  elem : Nat
  slot : Nat
  code : Nat
  mode : Nat
  tag : Nat
  record : Nat
  aux0 : Nat
  aux1 : Nat
  deriving DecidableEq, Repr

/-- Channel states (Table 10-14). -/
inductive ChState where
  | idle | running | parked | paused | halted
  deriving DecidableEq, Repr

/-- Who started a chain. -/
inductive Kicker where
  | pf
  | phdma
  /-- DMAK: core, flag, job -/
  | dmak (core : Nat) (flag : Option Nat) (job : Nat)
  /-- the dispatcher's load of a model for a job (R316) -/
  | model (job : Nat)
  deriving DecidableEq, Repr

/-- Why a channel is parked (R335). -/
inductive ParkReason where
  | tolls | gap | preempted | brake | queue
  /-- a block names a slot that is being loaded -/
  | slot (n : Nat)
  deriving DecidableEq, Repr

/-- A DMA channel. -/
structure Channel where
  state : ChState := .idle
  status : Status := .ok
  flags : Nat := 0
  part : Nat := 15
  kicker : Kicker := .pf
  /-- address of the next descriptor to read; 0 after the last -/
  chain : Nat := 0
  descAddr : Nat := 0
  /-- a descriptor that the device makes itself, to be taken in place of a read (R316) -/
  given : Option DmaDesc := none
  desc : Option DmaDesc := none
  srcDesc : Option TensorDesc := none
  dstDesc : Option TensorDesc := none
  /-- uncompressed bytes done -/
  prog : Nat := 0
  /-- bytes of the coded stream consumed or written -/
  coded : Nat := 0
  /-- blocks or lines done, and tiles done -/
  items : Nat := 0
  tiles : Nat := 0
  /-- bytes of a block to be coded, or expanded bytes not yet written, and whether each is poisoned -/
  buf : List (Byte × Bool) := []
  /-- the table slot of each block whose output is in `buf`, with the place in `buf` where it ends (R361) -/
  refs : List (Nat × Nat) := []
  /-- the coded stream's position is lost (R359) -/
  lost : Bool := false
  /-- uncompressed bytes moved in bursts (R336), and how far the line or tile in progress has come: elements, or bytes -/
  moved : Nat := 0
  step : Nat := 0
  /-- the last write of the transfer has left the engine -/
  final : Bool := false
  fp : FpFlags := {}
  poisonOut : Bool := false
  checkFail : Bool := false
  degraded : Bool := false
  park : Option ParkReason := none
  abort : Option Status := none
  /-- uncompressed bytes that the tolls paid still cover (R322) -/
  covered : Nat := 0
  /-- IRQ of the last descriptor that ran -/
  lastIrq : Bool := false
  descHi : Nat := 0
  progHi : Nat := 0
  deriving DecidableEq, Repr

/-- A table slot (R361): its code lengths are empty while no table is loaded. -/
structure Slot where
  loaded : Bool := false
  loading : Bool := false
  gen : Nat := 0
  lengths : List Nat := []
  deriving DecidableEq, Repr

/-- A coded block arriving over a link in pieces (R362, R383). -/
structure CBlock where
  part : Nat
  addr : Nat
  ulen : Nat
  srcId : Nat
  srcPart : Nat
  tag : Nat
  ackReq : Bool
  counter : Option Nat
  total : Nat
  bytes : List Byte
  poison : Bool := false
  link : Nat := 0
  deriving DecidableEq, Repr

/-- A DMA engine (R334). -/
structure Engine where
  busy : Option Nat := none
  last : Nat := 0
  slots : List (Nat × Slot) := []
  channels : List (Nat × Channel) := []
  /-- coded blocks at the link expander (R362) -/
  cblocks : List CBlock := []
  deriving DecidableEq, Repr

/-! ## Volath links -/

/-- A Volath link (R382 to R389); its registers hold its phase, width, lanes, partner and counts. -/
structure LinkState where
  /-- credits held for VC0 to VC3 -/
  credits : List Nat := [0, 0, 0, 0]
  /-- received flits freed and not yet returned as credit -/
  giveBack : List Nat := [0, 0, 0, 0]
  /-- SEQ of the next DATA flit to send -/
  nextSeq : Nat := 0
  /-- DATA flits sent and not acknowledged, oldest first -/
  replay : List Flit := []
  /-- DATA flits routed to the link that wait to be sent, with the link and the virtual channel that they arrived on, whose buffer
  they hold (R386) -/
  unsent : List (Option (Nat × Nat) × Flit) := []
  /-- SEQ of the next DATA flit expected -/
  expect : Nat := 0
  nakSent : Bool := false
  /-- resends with no ACK progress (R385) -/
  resends : Nat := 0
  retraining : Bool := false
  /-- retrains failed in a row (R389) -/
  badTrains : Nat := 0
  /-- flits delivered to this device and not yet performed, oldest first; whether each holds a receive buffer -/
  inbox : List (Bool × Flit) := []
  /-- the Landing's FCLK count when the retrain began -/
  retrainStart : Nat := 0
  /-- the mask of lanes received clean, the partner's mask, and its initial credits, from its TRAIN flits -/
  ownGood : BitVec 9 := 0
  partnerGood : BitVec 9 := 0
  partnerCredits : Option (List Nat) := none
  /-- DATA and IDLE flits put on the lanes, oldest first, and TRAIN flits -/
  sent : List Flit := []
  trains : List TrainInfo := []
  deriving DecidableEq, Repr

/-! ## Landing -/

/-- An MSI-X message sent to the host (R377, R378). -/
structure MsiMsg where
  addr : Nat
  data : Nat
  deriving DecidableEq, Repr

/-- Severities of Advanced Error Reporting (R373). -/
inductive AerSeverity where
  | advisory | nonFatal | fatal
  deriving DecidableEq, Repr

/-- An error reported to the host through a function's AER (R373). -/
structure AerReport where
  fn : Fn
  severity : AerSeverity
  deriving DecidableEq, Repr

/-- The Landing's shared logic. -/
structure Landing where
  records : List ErrRec := []
  /-- records reported to the host that wait for Aldeah to log them (R425) -/
  waiting : List ErrRec := []
  /-- records lost while the queue was full (R407) -/
  recordsLost : Nat := 0
  msgs : List MsiMsg := []
  /-- errors reported through AER, oldest first -/
  aer : List AerReport := []
  /-- vectors signalled while masked: PF vector v as v, vector v of VF p + 1 as 4096 + 64 p + v (R377) -/
  msixPending : List Nat := []
  fclk : BitVec 64 := 0
  mclk : BitVec 64 := 0
  deriving DecidableEq, Repr

/-! ## The power governor -/

/-- The governor (R319, R325, R326): the part of V taken off for temperature in 128ths of its full value, V on its way back
after a brake in tolls, and the causes of the brake that hold. -/
structure Governor where
  loss : Nat := 0
  recover : Option Nat := none
  brakes : List BrakeCause := []
  deriving DecidableEq, Repr

/-! ## The repair journal -/

/-- An entry of the repair journal in flash (Table 13-8); its place in the list is its SEQ. -/
structure JournalEntry where
  kind : Nat
  unit : Nat
  floor : Nat
  bank : Nat
  place : Nat
  boot : Nat
  deriving DecidableEq, Repr

/-! ## Host port and module -/

/-- The PCI Express port (R367, R368): its negotiated width and rate, 0 while it is not trained, and what the configuration
space of the PF holds (Table 11-1, R370, R372). -/
structure Port where
  width : Nat := 0
  /-- GT/s; 2 stands for 2.5 (PRESUMED, log 55) -/
  rate : Nat := 0
  /-- the width at which the link trained: an L0p change leaves it (R368) -/
  trained : Nat := 0
  /-- SR-IOV VF Enable of the PF (R372, R374) -/
  vfEnable : Bool := false
  /-- the PF's BAR2 and the BAR2 of all VFs together, in bytes (R370; PRESUMED, log 55) -/
  bar2 : Nat := 2 ^ 32
  vfBar2 : Nat := 2 ^ 32
  /-- Max_Payload_Size and Max_Read_Request_Size in bytes (Table 11-1) -/
  maxPayload : Nat := 128
  maxRead : Nat := 512
  /-- the value of the completion timeout: 5 is range B, 16 ms to 55 ms (Table 11-1) -/
  timeout : Nat := 5
  /-- Link IDE, and the functions whose Selective IDE stream is on, the PF 0 and VF `n` `n` (Table 11-1) -/
  linkIde : Bool := false
  ideStreams : List Nat := []
  deriving DecidableEq, Repr

/-- The connector's signals and the module's latches (R449 to R459). -/
structure Module where
  bulk : Bool := false
  pwrEn : Bool := false
  /-- the rails are being raised -/
  rising : Bool := false
  modPg : Bool := false
  /-- PERST# is asserted -/
  perst : Bool := true
  /-- THERM_ALERT# and SMB_ALERT# are asserted -/
  thermAlert : Bool := false
  smbAlert : Bool := false
  /-- PWR_EN is ignored after MOD_PG fell (R457) -/
  ignore : Bool := false
  /-- PWR_EN must fall and rise again after an overvoltage (R457) -/
  needFall : Bool := false
  /-- regulator pages with a latched fault (R459) -/
  faults : List Nat := []
  deriving DecidableEq, Repr

/-! ## Aldeah -/

/-- An image slot in flash (Table 12-5): empty, the factory's image, or bytes staged (DESIGN CHOICE, log 38). -/
inductive SlotImage where
  | empty
  | factory
  | staged (m : Memory)
  deriving DecidableEq, Repr

/-- A copy of the slot directory (R403); slots are true for B. -/
structure Directory where
  seq : Nat
  active : Bool
  fallback : Bool
  ucode : Bool
  deriving DecidableEq, Repr

/-- The module's SPI NOR flash (R402) beside the repair journal and the log areas. -/
structure Flash where
  aldeahA : SlotImage := .factory
  aldeahB : SlotImage := .empty
  ucodeA : SlotImage := .factory
  ucodeB : SlotImage := .empty
  dir0 : Directory := ⟨0, false, true, false⟩
  dir1 : Option Directory := none
  settings0 : List Byte := []
  settings1 : List Byte := []
  deriving DecidableEq, Repr

/-- An entry of the event log (Table 12-8). -/
structure LogEntry where
  seq : Nat
  cycles : Nat
  boot : Nat
  typ : Nat
  body : List Byte
  deriving DecidableEq, Repr

/-- A request that Aldeah handles: its bytes, the path of its answer, none for the mailbox, and whether a PF FLR has dropped
its response (R410). -/
structure MgmtRequest where
  bytes : List Byte
  path : Option MgmtPath
  dropped : Bool := false
  deriving DecidableEq, Repr

/-- A UCODE_APPLY in progress (R414). -/
structure UcodeApply where
  part : Nat
  /-- milliseconds -/
  timeout : Nat
  /-- the MCLK count at its start -/
  start : Nat
  deriving DecidableEq, Repr

/-- The management subsystem (R393 to R417). -/
structure Aldeah where
  /-- the firmware runs and takes requests -/
  up : Bool := false
  /-- in the boot ROM with no image that verifies (R412) -/
  recovery : Bool := false
  /-- the running image is from slot B -/
  slotB : Bool := false
  /-- settings in use, as the 256 bytes; none for the defaults (R404) -/
  settings : Option (List Byte) := none
  req : Option MgmtRequest := none
  /-- the response of the request in progress, ready to be delivered -/
  rsp : Option (List Byte) := none
  /-- requests accepted behind the one in progress, first in, first out -/
  queue : List MgmtRequest := []
  /-- the log in RAM and the two flash areas, oldest first -/
  log : List LogEntry := []
  area0 : List LogEntry := []
  area1 : List LogEntry := []
  nextSeq : Nat := 0
  /-- MCLK counts at the resets by watchdog or ECC (R406) -/
  resets : List Nat := []
  /-- why the processor is restarting, until it has logged it (Table 12-9) -/
  cause : Option AldeahCause := none
  /-- sensor values by PLDM id (R408) -/
  sensors : List (Nat × BitVec 32) := []
  /-- the nonce of the last DEBUG_CHALLENGE, while it serves -/
  nonce : Option (List Byte) := none
  /-- unlocked since power-up (Table 12-14) -/
  unlocked : Bool := false
  /-- an update in progress: by PLDM (true) or by the mailbox -/
  update : Option Bool := none
  /-- the component of the PLDM update: true for microcode -/
  pldmUcode : Bool := false
  /-- an activation handed over to a new image that has not serviced the watchdog (R413) -/
  handover : Bool := false
  ucode : Option UcodeApply := none
  /-- answers sent on SPDM, PLDM and MCTP paths, oldest first -/
  sent : List (MgmtPath × List Byte) := []
  deriving DecidableEq, Repr

/-! ## The whole block -/

/-- OTP as the model begins (R399, DESIGN CHOICE, log 24): all zero but the floor map, where every tower's SKIP is 16. -/
def otpFactory : Memory := (List.range 12).map fun t => (0x140 + 4 * t, 16)

/-- The state of the block. -/
structure State where
  variant : Variant := .kq12
  /-- the commands that wait, the front first -/
  pending : List Instr := []
  /-- the model's own counter of free values (DESIGN CHOICE, log 4) -/
  free : Nat := 0
  /-- root clock ticks of the idle step (DESIGN CHOICE, log 10) -/
  ticks : Nat := 0
  /-- host-visible registers by PF BAR0 offset, where they differ from their reset value -/
  regs : List (Nat × Nat) := []
  cores : List (Nat × Core) := []
  towers : List (Nat × Tower) := []
  cupolas : List (Nat × List Line) := []
  scratch : Ram := {}
  granules : List (Nat × Granule) := []
  /-- spare cores used, by Spire (R19, R432) -/
  spares : List (Nat × Nat) := []
  groups : List (Nat × Group) := []
  parts : List (Nat × Part) := []
  engines : List (Nat × Engine) := []
  links : List (Nat × LinkState) := []
  /-- remote requests of cores under way, by TAG: the core (R382, DESIGN CHOICE, log 33) -/
  tags : List (Nat × Nat) := []
  landing : Landing := {}
  gov : Governor := {}
  port : Port := {}
  mod : Module := {}
  /-- a PF FLR is under way (R375) -/
  pfFlr : Bool := false
  aldeah : Aldeah := {}
  flash : Flash := {}
  otp : Memory := otpFactory
  /-- the repair journal, oldest first (R440) -/
  journal : List JournalEntry := []
  /-- power-ups so far (Table 12-8) -/
  boots : Nat := 0
  /-- host memory as the device has written it, by bus address (DESIGN CHOICE, log 11) -/
  hostMem : List (Nat × Option Byte) := []
  /-- the bytes that the last host read through BAR2 returned (R161, R279, R368) -/
  hostRead : List Byte := []
  deriving DecidableEq, Repr

/-- Why a step stops with a fault. -/
inductive Fault where
  /-- a write to the unlocked debug block, whose layout is not part of the spec (R417): raised by REGISTER_WRITE; safe -/
  | debugBlock
  deriving DecidableEq, Repr

/-- Why a step refuses a command. -/
inductive Refusal where
  /-- raised by exec for a command the model does not hold yet: safe, the run stops -/
  | notModelled (mnemonic : String)
  deriving DecidableEq, Repr

/-- The state right after reset: before power good (R454, DESIGN CHOICE, log 1). -/
def State.reset : State := {}

end Sys2Proof.Machine
end

