-- ==== Sys2Proof/Machine/Regs.lean ====
section
/-! DEFINITION. The host-visible registers: where each block lies in PF BAR0 (Table 11-2), and each register's offset,
copies, width, writable fields, write-one-to-clear fields and reset value, from the register tables of the chapters. -/

namespace Sys2Proof.Machine

/-- The register blocks of Table 11-2. -/
inductive Block where
  | global | mailbox | err | gov | part | dma | link | router | tower
  deriving DecidableEq, Repr

/-- A register, or a run of `count` copies `stride` apart: the offset in its block, the width in bits, the RW fields, the
RW1C fields and the reset value. -/
structure RegRow where
  block : Block
  off : Nat
  stride : Nat
  count : Nat
  width : Nat
  rw : Nat
  w1c : Nat
  reset : Nat
  deriving DecidableEq, Repr

/-- Offset of partition block `p` in PF BAR0. -/
def partBase (p : Nat) : Nat := 0x400000 + p * 0x80000

/-- Offset of the block of DMA engine `e` in PF BAR0. -/
def dmaBase (e : Nat) : Nat := 0x1000000 + e * 0x10000

/-- Offset of the block of link `l` in PF BAR0. -/
def linkBase (l : Nat) : Nat := 0x2000000 + l * 0x10000

/-- Offset of the link router's block. -/
def routerBase : Nat := 0x2080000

/-- Offset of tower block `t` in PF BAR0. -/
def towerBase (t : Nat) : Nat := 0x4000000 + t * 0x100000

/-- Offset of the error and reliability block. -/
def errBase : Nat := 0x200000

/-- Offset of the governor block. -/
def govBase : Nat := 0x300000

/-- Offset of the Aldeah mailbox. -/
def mboxBase : Nat := 0x100000

/-- The block, the unit within it and the offset within the block of a PF BAR0 offset. -/
def locate (a : Nat) : Option (Block × Nat × Nat) :=
  if a < 0x100000 then some (.global, 0, a)
  else if a < 0x200000 then some (.mailbox, 0, a - 0x100000)
  else if a < 0x300000 then some (.err, 0, a - 0x200000)
  else if a < 0x400000 then some (.gov, 0, a - 0x300000)
  else if a < 0xA00000 then some (.part, (a - 0x400000) / 0x80000, (a - 0x400000) % 0x80000)
  else if a < 0x1000000 then none
  else if a < 0x10E0000 then some (.dma, (a - 0x1000000) / 0x10000, (a - 0x1000000) % 0x10000)
  else if a < 0x2000000 then none
  else if a < 0x2080000 then some (.link, (a - 0x2000000) / 0x10000, (a - 0x2000000) % 0x10000)
  else if a < 0x2090000 then some (.router, 0, a - 0x2080000)
  else if a < 0x4000000 then none
  else if a < 0x4C00000 then some (.tower, (a - 0x4000000) / 0x100000, (a - 0x4000000) % 0x100000)
  else none

/-- Whether the variant has the unit that a block describes (R3). -/
def unitExists (v : Variant) (b : Block) (u : Nat) : Bool :=
  match b with
  | .part | .tower => decide (u < Config.units v)
  | .dma => Config.engineExists v u
  | _ => true

/-- Whether the variant has the unit that the register at offset `o` of a block describes (R3): a home group's entries of the
governor's registers, and the words of ERR_CORE_OUT and PJOB_CORES, each of 32 logical cores. -/
def copyExists (v : Variant) (b : Block) (o : Nat) : Bool :=
  match b with
  | .gov => if 0x100 ≤ o && o < 0x400 then decide (o % 0x40 / 4 < Config.units v) else true
  | .err => if 0x40 ≤ o && o < 0x64 then decide (32 * ((o - 0x40) / 4) < Config.cores v) else true
  | .part =>
    if 0x2000 ≤ o && o < 0x4000 && 0x30 ≤ (o - 0x2000) % 0x80 && (o - 0x2000) % 0x80 < 0x54 then
      decide (32 * (((o - 0x2000) % 0x80 - 0x30) / 4) < Config.cores v)
    else true
  | _ => true

/-- Registers of the block: GID, GSTAT, GCTL, GFEAT_SEL, GFEAT_VAL, GAPT_CTL, GAPT_BASE_LO, GAPT_BASE_HI, CUP_GRAN, MSIX_PF_ADDR_LO, MSIX_PF_ADDR_HI, MSIX_PF_DATA, MSIX_PF_CTRL, MSIX_PF_PBA. -/
def rowsGlobal : List RegRow := [
  ⟨.global, 0, 4, 1, 32, 0, 0, 0x12b04b51⟩,
  ⟨.global, 4, 4, 1, 32, 0, 0, 0x100000⟩,
  ⟨.global, 8, 4, 1, 32, 0, 0, 0⟩,
  ⟨.global, 0x100, 4, 1, 32, 0xffff00ff, 0, 0⟩,
  ⟨.global, 0x104, 4, 1, 32, 0, 0, 0⟩,
  ⟨.global, 0x200, 4, 1, 32, 0x8000000f, 0, 0⟩,
  ⟨.global, 0x204, 4, 1, 32, 0xffe00000, 0, 0⟩,
  ⟨.global, 0x208, 4, 1, 32, 0xffff, 0, 0⟩,
  ⟨.global, 0x400, 4, 64, 32, 0x8000000f, 0x20000000, 0xf⟩,
  ⟨.global, 0x80000, 0x10, 2048, 32, 0xfffffffc, 0, 0⟩,
  ⟨.global, 0x80004, 0x10, 2048, 32, 0xffffffff, 0, 0⟩,
  ⟨.global, 0x80008, 0x10, 2048, 32, 0xffffffff, 0, 0⟩,
  ⟨.global, 0x8000c, 0x10, 2048, 32, 1, 0, 1⟩,
  ⟨.global, 0x90000, 4, 64, 32, 0, 0, 0⟩]

/-- Registers of the block: MBX_REQ, MBX_RSP, MBX_DOORBELL, MBX_STAT. -/
def rowsMailbox : List RegRow := [
  ⟨.mailbox, 0, 4, 1024, 32, 0xffffffff, 0, 0⟩,
  ⟨.mailbox, 0x1000, 4, 1024, 32, 0, 0, 0⟩,
  ⟨.mailbox, 0x2000, 4, 1, 32, 0, 0, 0⟩,
  ⟨.mailbox, 0x2004, 4, 1, 32, 0, 0x60000000, 0⟩]

/-- Registers of the block: ERR_CTL, ERR_STAT, ERR_RING_BASE_LO, ERR_RING_BASE_HI, ERR_RING_PIDX, ERR_RING_CIDX, ERR_DROPPED, ERR_CORE_TEST, ERR_CORE_STAT, ERR_GROUP_TEST, ERR_GROUP_STAT, ERR_CORE_OUT. -/
def rowsErr : List RegRow := [
  ⟨.err, 0, 4, 1, 32, 0xffff0001, 0, 0x1000000⟩,
  ⟨.err, 4, 4, 1, 32, 0, 0xc0000000, 0⟩,
  ⟨.err, 8, 4, 1, 32, 0xfffff01f, 0, 8⟩,
  ⟨.err, 0xc, 4, 1, 32, 0xffffffff, 0, 0⟩,
  ⟨.err, 0x10, 4, 1, 32, 0, 0, 0⟩,
  ⟨.err, 0x14, 4, 1, 32, 0xffffffff, 0, 0⟩,
  ⟨.err, 0x18, 4, 1, 32, 0, 0, 0⟩,
  ⟨.err, 0x20, 4, 1, 32, 0x400001ff, 0, 0⟩,
  ⟨.err, 0x24, 4, 1, 32, 0, 0x40000000, 0⟩,
  ⟨.err, 0x28, 4, 1, 32, 0xf, 0, 0⟩,
  ⟨.err, 0x2c, 4, 1, 32, 0, 0x40000000, 0⟩,
  ⟨.err, 0x40, 4, 9, 32, 0, 0, 0⟩]

/-- Registers of the block: GOV_CTL, GOV_STAT, GOV_BUDGET, GOV_FIXED, GOV_THERM, TOLL_SHARE, GOV_GRP_CFG, GOV_GRANT, GOV_PURSE, GOV_PRICE. -/
def rowsGov : List RegRow := [
  ⟨.gov, 0, 4, 1, 32, 1, 0, 0⟩,
  ⟨.gov, 4, 4, 1, 32, 0, 0x10000000, 0⟩,
  ⟨.gov, 8, 4, 1, 32, 0xffff, 0, 0x2bc0⟩,
  ⟨.gov, 0xc, 4, 1, 32, 0xffff, 0, 0x820⟩,
  ⟨.gov, 0x10, 4, 1, 32, 0xff0000, 0, 0x640000⟩,
  ⟨.gov, 0x100, 4, 12, 32, 0xffff, 0, 1⟩,
  ⟨.gov, 0x200, 4, 12, 32, 0x7f, 0, 0x804⟩,
  ⟨.gov, 0x300, 4, 12, 32, 0, 0, 0⟩,
  ⟨.gov, 0x340, 4, 12, 32, 0, 0, 0⟩,
  ⟨.gov, 0x400, 4, 16, 32, 0, 0, 0⟩]

/-- Registers of the block: PID, PCTL, PSTAT, PIRQ, VAPT_BASE_LO, VAPT_BASE_HI, PFEAT_SEL, PFEAT_VAL, PVOL_CTL, PVOL_IN_BASE_LO, PVOL_IN_BASE_HI, PVOL_IN_IDS, PALLOC_BASE_LO, PALLOC_BASE_HI, PALLOC_COUNT, SRV_CTL. -/
def rowsPart0 : List RegRow := [
  ⟨.part, 0, 4, 1, 32, 0, 0, 0⟩,
  ⟨.part, 4, 4, 1, 32, 0xa0000fff, 0, 0⟩,
  ⟨.part, 8, 4, 1, 32, 0, 0x14000000, 0⟩,
  ⟨.part, 0xc, 4, 1, 32, 0x3f, 0, 0⟩,
  ⟨.part, 0x10, 4, 1, 32, 0xffe00000, 0, 0⟩,
  ⟨.part, 0x14, 4, 1, 32, 0xffff, 0, 0⟩,
  ⟨.part, 0x20, 4, 1, 32, 0xffffffff, 0, 0⟩,
  ⟨.part, 0x24, 4, 1, 32, 0, 0, 0⟩,
  ⟨.part, 0x100, 4, 1, 32, 0x3f, 0, 0⟩,
  ⟨.part, 0x104, 4, 1, 32, 0xffe00000, 0, 0⟩,
  ⟨.part, 0x108, 4, 1, 32, 0xffff, 0, 0⟩,
  ⟨.part, 0x10c, 4, 1, 32, 0x1fff1fff, 0, 0⟩,
  ⟨.part, 0x200, 4, 1, 32, 0xffe00000, 0, 0⟩,
  ⟨.part, 0x204, 4, 1, 32, 0xffff, 0, 0⟩,
  ⟨.part, 0x208, 4, 1, 32, 0x1ffff, 0, 0⟩,
  ⟨.part, 0x300, 4, 1, 32, 0xfffffff1, 0, 0x8000400⟩]

/-- Registers of the block: SRV_STAT, SRV_REQ_BASE_LO, SRV_REQ_BASE_HI, SRV_REQ_COUNT, SRV_SUBMIT, SRV_CANCEL, SRV_RELEASE, SRV_POOL_BASE_LO, SRV_POOL_BASE_HI, SRV_PFX_BASE_LO, SRV_PFX_BASE_HI, SRV_PFX_BUCKETS, SRV_STEP_BASE_LO, SRV_STEP_BASE_HI, SRV_PFX_KEY, CNT_ADD. -/
def rowsPart1 : List RegRow := [
  ⟨.part, 0x304, 4, 1, 32, 0, 1, 0⟩,
  ⟨.part, 0x308, 4, 1, 32, 0xffffffff, 0, 0⟩,
  ⟨.part, 0x30c, 4, 1, 32, 0xffff, 0, 0⟩,
  ⟨.part, 0x310, 4, 1, 32, 0x1fff, 0, 0⟩,
  ⟨.part, 0x314, 4, 1, 32, 0, 0, 0⟩,
  ⟨.part, 0x318, 4, 1, 32, 0, 0, 0⟩,
  ⟨.part, 0x31c, 4, 1, 32, 0, 0, 0⟩,
  ⟨.part, 0x320, 4, 1, 32, 0xffffffff, 0, 0⟩,
  ⟨.part, 0x324, 4, 1, 32, 0xffff, 0, 0⟩,
  ⟨.part, 0x328, 4, 1, 32, 0xffffffff, 0, 0⟩,
  ⟨.part, 0x32c, 4, 1, 32, 0xffff, 0, 0⟩,
  ⟨.part, 0x330, 4, 1, 32, 0x1f, 0, 0⟩,
  ⟨.part, 0x334, 4, 1, 32, 0xffffffff, 0, 0⟩,
  ⟨.part, 0x338, 4, 1, 32, 0xffff, 0, 0⟩,
  ⟨.part, 0x340, 4, 4, 32, 0xffffffff, 0, 0⟩,
  ⟨.part, 0x400, 8, 1, 64, 0, 0, 0⟩]

/-- Registers of the block: PDISP_CTL, PSLICE, PKILL_DRAIN, PPOL, PMODEL_BASE_LO, PMODEL_BASE_HI, PMODEL_HOT_BASE_LO, PMODEL_HOT_BASE_HI, PMODEL_HOT_LEN, PHOST_WIN_LO, PHOST_WIN_HI, PLINKX, PHDMA_KICK, PHDMA_STAT, PRING_BASE_LO, PRING_BASE_HI. -/
def rowsPart2 : List RegRow := [
  ⟨.part, 0x500, 4, 1, 32, 0xfff0000, 0, 0x80c0000⟩,
  ⟨.part, 0x504, 4, 1, 32, 0xffffffff, 0, 0x83d60⟩,
  ⟨.part, 0x508, 4, 1, 32, 0xffffff, 0, 0x2710⟩,
  ⟨.part, 0x50c, 4, 1, 32, 0xc00fffff, 0, 0x80006402⟩,
  ⟨.part, 0x510, 4, 1, 32, 0xffffffc0, 0, 0⟩,
  ⟨.part, 0x514, 4, 1, 32, 0xffff, 0, 0⟩,
  ⟨.part, 0x518, 4, 1, 32, 0xffe00000, 0, 0⟩,
  ⟨.part, 0x51c, 4, 1, 32, 0xffff, 0, 0⟩,
  ⟨.part, 0x520, 4, 1, 32, 0x7ff, 0, 0⟩,
  ⟨.part, 0x600, 4, 1, 32, 0xfffff000, 0, 0⟩,
  ⟨.part, 0x604, 4, 1, 32, 0xffffffff, 0, 0⟩,
  ⟨.part, 0x608, 4, 1, 32, 0xf, 0, 0⟩,
  ⟨.part, 0x610, 8, 1, 64, 0, 0, 0⟩,
  ⟨.part, 0x618, 4, 1, 32, 0, 1, 0⟩,
  ⟨.part, 0x2000, 0x80, 64, 32, 0xffffffdf, 0, 0⟩,
  ⟨.part, 0x2004, 0x80, 64, 32, 0xffff, 0, 0⟩]

/-- Registers of the block: PRING_TAIL, PRING_HEAD, PJOB_CTL, PJOB_STAT, PJOB_DMA, PJOB_CTX_LO, PJOB_CTX_HI, PJOB_ACCT_LO, PJOB_ACCT_HI, PJOB_CORES0, PJOB_CORES1, PJOB_CORES2, PJOB_CORES3, PJOB_CORES4, PJOB_CORES5, PJOB_CORES6. -/
def rowsPart3 : List RegRow := [
  ⟨.part, 0x2008, 0x80, 64, 32, 0xffffffff, 0, 0⟩,
  ⟨.part, 0x200c, 0x80, 64, 32, 0, 0, 0⟩,
  ⟨.part, 0x2010, 0x80, 64, 32, 0x3f03ffff, 0, 1⟩,
  ⟨.part, 0x2014, 0x80, 64, 32, 0, 0x18000000, 0⟩,
  ⟨.part, 0x2018, 0x80, 64, 32, 0x7fff, 0, 0⟩,
  ⟨.part, 0x2020, 0x80, 64, 32, 0xffe00000, 0, 0⟩,
  ⟨.part, 0x2024, 0x80, 64, 32, 0xffff, 0, 0⟩,
  ⟨.part, 0x2028, 0x80, 64, 32, 0, 0, 0⟩,
  ⟨.part, 0x202c, 0x80, 64, 32, 0, 0, 0⟩,
  ⟨.part, 0x2030, 0x80, 64, 32, 0xffffffff, 0, 0⟩,
  ⟨.part, 0x2034, 0x80, 64, 32, 0xffffffff, 0, 0⟩,
  ⟨.part, 0x2038, 0x80, 64, 32, 0xffffffff, 0, 0⟩,
  ⟨.part, 0x203c, 0x80, 64, 32, 0xffffffff, 0, 0⟩,
  ⟨.part, 0x2040, 0x80, 64, 32, 0xffffffff, 0, 0⟩,
  ⟨.part, 0x2044, 0x80, 64, 32, 0xffffffff, 0, 0⟩,
  ⟨.part, 0x2048, 0x80, 64, 32, 0xffffffff, 0, 0⟩]

/-- Registers of the block: PJOB_CORES7, PJOB_CORES8, ARRIVAL_CNT, SEM, MSIX_VF_ADDR_LO, MSIX_VF_ADDR_HI, MSIX_VF_DATA, MSIX_VF_CTRL, MSIX_VF_PBA. -/
def rowsPart4 : List RegRow := [
  ⟨.part, 0x204c, 0x80, 64, 32, 0xffffffff, 0, 0⟩,
  ⟨.part, 0x2050, 0x80, 64, 32, 0xffffffff, 0, 0⟩,
  ⟨.part, 0x10000, 8, 4096, 64, 0, 0, 0⟩,
  ⟨.part, 0x18000, 4, 4096, 32, 0, 0, 0xff0000⟩,
  ⟨.part, 0x70000, 0x10, 64, 32, 0xfffffffc, 0, 0⟩,
  ⟨.part, 0x70004, 0x10, 64, 32, 0xffffffff, 0, 0⟩,
  ⟨.part, 0x70008, 0x10, 64, 32, 0xffffffff, 0, 0⟩,
  ⟨.part, 0x7000c, 0x10, 64, 32, 1, 0, 1⟩,
  ⟨.part, 0x78000, 4, 2, 32, 0, 0, 0⟩]

/-- Every register of the partition block and the like. -/
def rowsPart : List RegRow := rowsPart0 ++ rowsPart1 ++ rowsPart2 ++ rowsPart3 ++ rowsPart4

/-- Registers of the block: DMA_ID, DMA_STAT, SLOT_STAT, CH_CTL, CH_STAT, CH_OWNER, CH_DESC_LO, CH_DESC_HI, CH_PROG_LO, CH_PROG_HI, CH_KICK. -/
def rowsDma : List RegRow := [
  ⟨.dma, 0, 4, 1, 32, 0, 0, 0⟩,
  ⟨.dma, 4, 4, 1, 32, 0, 0, 0⟩,
  ⟨.dma, 0x10, 4, 4, 32, 0, 0, 0⟩,
  ⟨.dma, 0x1000, 0x40, 16, 32, 0x3f00007f, 0, 0x40⟩,
  ⟨.dma, 0x1004, 0x40, 16, 32, 0, 0x18000000, 0⟩,
  ⟨.dma, 0x1008, 0x40, 16, 32, 0xf0000000, 0, 0xffc00000⟩,
  ⟨.dma, 0x1010, 0x40, 16, 32, 0, 0, 0⟩,
  ⟨.dma, 0x1014, 0x40, 16, 32, 0, 0, 0⟩,
  ⟨.dma, 0x1018, 0x40, 16, 32, 0, 0, 0⟩,
  ⟨.dma, 0x101c, 0x40, 16, 32, 0, 0, 0⟩,
  ⟨.dma, 0x1020, 0x40, 16, 64, 0, 0, 0⟩]

/-- Registers of the block: VOL_LCTL, VOL_LSTAT, VOL_CRC_COUNT, VOL_REPLAY_COUNT, VOL_RETRAIN_COUNT, VOL_LANE_FAIL. -/
def rowsLink : List RegRow := [
  ⟨.link, 0, 4, 1, 32, 3, 0, 3⟩,
  ⟨.link, 4, 4, 1, 32, 0, 0, 0xfff8⟩,
  ⟨.link, 8, 4, 1, 32, 0, 0, 0⟩,
  ⟨.link, 0xc, 4, 1, 32, 0, 0, 0⟩,
  ⟨.link, 0x10, 4, 1, 32, 0, 0, 0⟩,
  ⟨.link, 0x14, 4, 1, 32, 0, 0x1ff, 0⟩]

/-- Registers of the block: VOL_ID, VOL_TORUS, VOL_TORUS_LINKS, VOL_DROP_COUNT, VOL_DROP_LAST, VOL_ROUTE_LO, VOL_ROUTE_HI. -/
def rowsRouter : List RegRow := [
  ⟨.router, 0, 4, 1, 32, 0x1fff, 0, 0x1fff⟩,
  ⟨.router, 4, 4, 1, 32, 0x3ffff, 0, 0⟩,
  ⟨.router, 8, 4, 1, 32, 0x3ffff, 0, 0⟩,
  ⟨.router, 0xc, 4, 1, 32, 0, 0, 0⟩,
  ⟨.router, 0x10, 4, 1, 32, 0, 0, 0⟩,
  ⟨.router, 0x100, 8, 64, 32, 0xc0071fff, 0, 0⟩,
  ⟨.router, 0x104, 8, 64, 32, 0x1fff, 0, 0⟩]

/-- Registers of the block: TWR_ID, TWR_CTL, TWR_STAT, TWR_TEMP, TWR_SCRUB_RATE, TWR_SCRUB_POS, TWR_CE_CFG, TWR_PIN, TWR_MIGRATE, TWR_MIGRATE_STAT, TWR_CE_COUNT, TWR_UE_COUNT, TSEQ_STAT, TSEQ_CTL, TSEQ_DONE_COUNT, TSEQ_OVERRUN_COUNT. -/
def rowsTower0 : List RegRow := [
  ⟨.tower, 0, 4, 1, 32, 0, 0, 0x1001400b⟩,
  ⟨.tower, 4, 4, 1, 32, 0, 0, 0⟩,
  ⟨.tower, 8, 4, 1, 32, 0, 0x10, 0xf0000000⟩,
  ⟨.tower, 0xc, 4, 1, 32, 0, 0, 0⟩,
  ⟨.tower, 0x10, 4, 1, 32, 0xffff, 0, 0x6a1⟩,
  ⟨.tower, 0x14, 4, 1, 32, 0, 0, 0⟩,
  ⟨.tower, 0x18, 4, 1, 32, 0xffffffff, 0, 0xea600008⟩,
  ⟨.tower, 0x1c, 4, 1, 32, 0xffff, 0, 0⟩,
  ⟨.tower, 0x20, 4, 1, 32, 0x3fffff, 0, 0⟩,
  ⟨.tower, 0x24, 4, 1, 32, 0, 0x40000000, 0⟩,
  ⟨.tower, 0x28, 4, 1, 32, 0, 0, 0⟩,
  ⟨.tower, 0x2c, 4, 1, 32, 0, 0, 0⟩,
  ⟨.tower, 0x1000, 4, 1, 32, 0, 0, 0⟩,
  ⟨.tower, 0x1004, 4, 1, 32, 1, 0, 0⟩,
  ⟨.tower, 0x1008, 4, 1, 32, 0, 0, 0⟩,
  ⟨.tower, 0x100c, 4, 1, 32, 0, 0, 0⟩]

/-- Registers of the block: TSEQ_LAST_OVERRUN, TSEQ_BUSY_LO, TSEQ_BUSY_HI, TWR_EVAC, TWR_EVAC_STAT, TWR_REPAIR_STAT, TWR_CHAN_FAIL, TWR_TSV_FAIL, TWR_RETIRED, FRAME_TABLE. -/
def rowsTower1 : List RegRow := [
  ⟨.tower, 0x1010, 4, 1, 32, 0, 0, 0⟩,
  ⟨.tower, 0x1014, 4, 1, 32, 0, 0, 0⟩,
  ⟨.tower, 0x1018, 4, 1, 32, 0, 0, 0⟩,
  ⟨.tower, 0x2000, 4, 1, 32, 0xf, 0, 0⟩,
  ⟨.tower, 0x2004, 4, 1, 32, 0, 0x40000000, 0⟩,
  ⟨.tower, 0x2008, 4, 1, 32, 0, 0, 0⟩,
  ⟨.tower, 0x200c, 4, 1, 32, 0, 0, 0⟩,
  ⟨.tower, 0x2010, 4, 1, 32, 0, 0, 0⟩,
  ⟨.tower, 0x4000, 4, 2048, 32, 0, 0, 0⟩,
  ⟨.tower, 0x80000, 4, 32768, 32, 0, 0, 0⟩]

/-- Every register of the partition block and the like. -/
def rowsTower : List RegRow := rowsTower0 ++ rowsTower1

/-- The rows of a block. -/
def rowsOf : Block → List RegRow
  | .global => rowsGlobal | .mailbox => rowsMailbox | .err => rowsErr | .gov => rowsGov | .part => rowsPart
  | .dma => rowsDma | .link => rowsLink | .router => rowsRouter | .tower => rowsTower

/-- Whether a register of the row begins at offset `o` of the block. -/
def rowAt (o : Nat) (r : RegRow) : Bool :=
  decide (r.off ≤ o) && decide ((o - r.off) % r.stride = 0) && decide ((o - r.off) / r.stride < r.count)

/-- The row of the register that begins at an offset of a block, and its copy number. -/
def findRow (b : Block) (o : Nat) : Option (RegRow × Nat) :=
  (rowsOf b).find? (rowAt o) |>.map fun r => (r, (o - r.off) / r.stride)

/-- The reset value of the register at a PF BAR0 offset: the table's, with the KQ08's values (R34, R187, R333, R419) and
the values that depend on the unit: PVOL_CTL.PEER_PART is p (Table 11-4). -/
def regReset (v : Variant) (a : Nat) : Nat :=
  match locate a with
  | none => 0
  | some (b, u, o) =>
    match findRow b o with
    | none => 0
    | some (r, _) =>
      match v, b, o with
      | .kq08, .global, 0 => 0x08B04B51
      | .kq08, .gov, 8 => 8320
      | .kq08, .gov, 12 => 2224
      | .kq08, .tower, 0 => 0x1000400B
      | _, .part, 0 => (u + 1) * 256 + u
      | _, .part, 0x100 => u
      -- PLINKX: no group has been written (Table 10-15)
      | _, .part, 0x608 => 15
      | _, .dma, 0 => u * 65536 + 0x1040 + (if u < 12 then 0 else 1)
      | _, _, _ => r.reset

/-! Offsets of the registers in their blocks, by the names of the register tables. -/

/-- GID (R418). -/
def Off.gid : Nat := 0

/-- GSTAT (R418). -/
def Off.gstat : Nat := 4

/-- GCTL (R418). -/
def Off.gctl : Nat := 8

/-- GFEAT_SEL (R379). -/
def Off.gfeatSel : Nat := 0x100

/-- GFEAT_VAL (R379). -/
def Off.gfeatVal : Nat := 0x104

/-- GAPT_CTL (R370). -/
def Off.gaptCtl : Nat := 0x200

/-- GAPT_BASE_LO (R370). -/
def Off.gaptBaseLo : Nat := 0x204

/-- GAPT_BASE_HI (R370). -/
def Off.gaptBaseHi : Nat := 0x208

/-- CUP_GRAN (R24). -/
def Off.cupGran : Nat := 0x400

/-- MSIX_PF_ADDR_LO (R377). -/
def Off.msixPfAddrLo : Nat := 0x80000

/-- MSIX_PF_ADDR_HI (R377). -/
def Off.msixPfAddrHi : Nat := 0x80004

/-- MSIX_PF_DATA (R377). -/
def Off.msixPfData : Nat := 0x80008

/-- MSIX_PF_CTRL (R377). -/
def Off.msixPfCtrl : Nat := 0x8000c

/-- MSIX_PF_PBA (R377). -/
def Off.msixPfPba : Nat := 0x90000

/-- MBX_REQ (R410). -/
def Off.mbxReq : Nat := 0

/-- MBX_RSP (R410). -/
def Off.mbxRsp : Nat := 0x1000

/-- MBX_DOORBELL (R410). -/
def Off.mbxDoorbell : Nat := 0x2000

/-- MBX_STAT (R410). -/
def Off.mbxStat : Nat := 0x2004

/-- ERR_CTL (R446). -/
def Off.errCtl : Nat := 0

/-- ERR_STAT (R446). -/
def Off.errStat : Nat := 4

/-- ERR_RING_BASE_LO (R446). -/
def Off.errRingBaseLo : Nat := 8

/-- ERR_RING_BASE_HI (R446). -/
def Off.errRingBaseHi : Nat := 0xc

/-- ERR_RING_PIDX (R446). -/
def Off.errRingPidx : Nat := 0x10

/-- ERR_RING_CIDX (R446). -/
def Off.errRingCidx : Nat := 0x14

/-- ERR_DROPPED (R446). -/
def Off.errDropped : Nat := 0x18

/-- ERR_CORE_TEST (R432). -/
def Off.errCoreTest : Nat := 0x20

/-- ERR_CORE_STAT (R446). -/
def Off.errCoreStat : Nat := 0x24

/-- ERR_GROUP_TEST (R443). -/
def Off.errGroupTest : Nat := 0x28

/-- ERR_GROUP_STAT (R446). -/
def Off.errGroupStat : Nat := 0x2c

/-- ERR_CORE_OUT (R446). -/
def Off.errCoreOut : Nat := 0x40

/-- GOV_CTL (R332). -/
def Off.govCtl : Nat := 0

/-- GOV_STAT (R332). -/
def Off.govStat : Nat := 4

/-- GOV_BUDGET (R332). -/
def Off.govBudget : Nat := 8

/-- GOV_FIXED (R332). -/
def Off.govFixed : Nat := 0xc

/-- GOV_THERM (R332). -/
def Off.govTherm : Nat := 0x10

/-- TOLL_SHARE (R332). -/
def Off.tollShare : Nat := 0x100

/-- GOV_GRP_CFG (R332). -/
def Off.govGrpCfg : Nat := 0x200

/-- GOV_GRANT (R332). -/
def Off.govGrant : Nat := 0x300

/-- GOV_PURSE (R332). -/
def Off.govPurse : Nat := 0x340

/-- GOV_PRICE (R332). -/
def Off.govPrice : Nat := 0x400

/-- PID (R371). -/
def Off.pid : Nat := 0

/-- PCTL (R371). -/
def Off.pctl : Nat := 4

/-- PSTAT (R371). -/
def Off.pstat : Nat := 8

/-- PIRQ (R377). -/
def Off.pirq : Nat := 0xc

/-- VAPT_BASE_LO (R370). -/
def Off.vaptBaseLo : Nat := 0x10

/-- VAPT_BASE_HI (R370). -/
def Off.vaptBaseHi : Nat := 0x14

/-- PFEAT_SEL (R379). -/
def Off.pfeatSel : Nat := 0x20

/-- PFEAT_VAL (R379). -/
def Off.pfeatVal : Nat := 0x24

/-- PVOL_CTL (R381). -/
def Off.pvolCtl : Nat := 0x100

/-- PVOL_IN_BASE_LO (R381). -/
def Off.pvolInBaseLo : Nat := 0x104

/-- PVOL_IN_BASE_HI (R381). -/
def Off.pvolInBaseHi : Nat := 0x108

/-- PVOL_IN_IDS (R384). -/
def Off.pvolInIds : Nat := 0x10c

/-- PALLOC_BASE_LO (R184). -/
def Off.pallocBaseLo : Nat := 0x200

/-- PALLOC_BASE_HI (R184). -/
def Off.pallocBaseHi : Nat := 0x204

/-- PALLOC_COUNT (R184). -/
def Off.pallocCount : Nat := 0x208

/-- SRV_CTL (R261). -/
def Off.srvCtl : Nat := 0x300

/-- SRV_STAT (R261). -/
def Off.srvStat : Nat := 0x304

/-- SRV_REQ_BASE_LO (R261). -/
def Off.srvReqBaseLo : Nat := 0x308

/-- SRV_REQ_BASE_HI (R261). -/
def Off.srvReqBaseHi : Nat := 0x30c

/-- SRV_REQ_COUNT (R261). -/
def Off.srvReqCount : Nat := 0x310

/-- SRV_SUBMIT (R252). -/
def Off.srvSubmit : Nat := 0x314

/-- SRV_CANCEL (R259). -/
def Off.srvCancel : Nat := 0x318

/-- SRV_RELEASE (R253). -/
def Off.srvRelease : Nat := 0x31c

/-- SRV_POOL_BASE_LO (R238). -/
def Off.srvPoolBaseLo : Nat := 0x320

/-- SRV_POOL_BASE_HI (R238). -/
def Off.srvPoolBaseHi : Nat := 0x324

/-- SRV_PFX_BASE_LO (R247). -/
def Off.srvPfxBaseLo : Nat := 0x328

/-- SRV_PFX_BASE_HI (R247). -/
def Off.srvPfxBaseHi : Nat := 0x32c

/-- SRV_PFX_BUCKETS (R247). -/
def Off.srvPfxBuckets : Nat := 0x330

/-- SRV_STEP_BASE_LO (R254). -/
def Off.srvStepBaseLo : Nat := 0x334

/-- SRV_STEP_BASE_HI (R254). -/
def Off.srvStepBaseHi : Nat := 0x338

/-- SRV_PFX_KEY (R246). -/
def Off.srvPfxKey : Nat := 0x340

/-- CNT_ADD (R277). -/
def Off.cntAdd : Nat := 0x400

/-- PDISP_CTL (R331). -/
def Off.pdispCtl : Nat := 0x500

/-- PSLICE (R309). -/
def Off.pslice : Nat := 0x504

/-- PKILL_DRAIN (R313). -/
def Off.pkillDrain : Nat := 0x508

/-- PPOL (R329). -/
def Off.ppol : Nat := 0x50c

/-- PMODEL_BASE_LO (R315). -/
def Off.pmodelBaseLo : Nat := 0x510

/-- PMODEL_BASE_HI (R315). -/
def Off.pmodelBaseHi : Nat := 0x514

/-- PMODEL_HOT_BASE_LO (R316). -/
def Off.pmodelHotBaseLo : Nat := 0x518

/-- PMODEL_HOT_BASE_HI (R316). -/
def Off.pmodelHotBaseHi : Nat := 0x51c

/-- PMODEL_HOT_LEN (R316). -/
def Off.pmodelHotLen : Nat := 0x520

/-- PHOST_WIN_LO (R341). -/
def Off.phostWinLo : Nat := 0x600

/-- PHOST_WIN_HI (R341). -/
def Off.phostWinHi : Nat := 0x604

/-- PLINKX (R362). -/
def Off.plinkx : Nat := 0x608

/-- PHDMA_KICK (R365). -/
def Off.phdmaKick : Nat := 0x610

/-- PHDMA_STAT (R365). -/
def Off.phdmaStat : Nat := 0x618

/-- PRING_BASE_LO (R301). -/
def Off.pringBaseLo : Nat := 0x2000

/-- PRING_BASE_HI (R301). -/
def Off.pringBaseHi : Nat := 0x2004

/-- PRING_TAIL (R301). -/
def Off.pringTail : Nat := 0x2008

/-- PRING_HEAD (R301). -/
def Off.pringHead : Nat := 0x200c

/-- PJOB_CTL (R300). -/
def Off.pjobCtl : Nat := 0x2010

/-- PJOB_STAT (R299). -/
def Off.pjobStat : Nat := 0x2014

/-- PJOB_DMA (R300). -/
def Off.pjobDma : Nat := 0x2018

/-- PJOB_CTX_LO (R310). -/
def Off.pjobCtxLo : Nat := 0x2020

/-- PJOB_CTX_HI (R310). -/
def Off.pjobCtxHi : Nat := 0x2024

/-- PJOB_ACCT_LO (R305). -/
def Off.pjobAcctLo : Nat := 0x2028

/-- PJOB_ACCT_HI (R305). -/
def Off.pjobAcctHi : Nat := 0x202c

/-- PJOB_CORES0 (R299). -/
def Off.pjobCores0 : Nat := 0x2030

/-- PJOB_CORES1 (R299). -/
def Off.pjobCores1 : Nat := 0x2034

/-- PJOB_CORES2 (R299). -/
def Off.pjobCores2 : Nat := 0x2038

/-- PJOB_CORES3 (R299). -/
def Off.pjobCores3 : Nat := 0x203c

/-- PJOB_CORES4 (R299). -/
def Off.pjobCores4 : Nat := 0x2040

/-- PJOB_CORES5 (R299). -/
def Off.pjobCores5 : Nat := 0x2044

/-- PJOB_CORES6 (R299). -/
def Off.pjobCores6 : Nat := 0x2048

/-- PJOB_CORES7 (R299). -/
def Off.pjobCores7 : Nat := 0x204c

/-- PJOB_CORES8 (R299). -/
def Off.pjobCores8 : Nat := 0x2050

/-- ARRIVAL_CNT (R276). -/
def Off.arrivalCnt : Nat := 0x10000

/-- SEM (R280). -/
def Off.sem : Nat := 0x18000

/-- MSIX_VF_ADDR_LO (R377). -/
def Off.msixVfAddrLo : Nat := 0x70000

/-- MSIX_VF_ADDR_HI (R377). -/
def Off.msixVfAddrHi : Nat := 0x70004

/-- MSIX_VF_DATA (R377). -/
def Off.msixVfData : Nat := 0x70008

/-- MSIX_VF_CTRL (R377). -/
def Off.msixVfCtrl : Nat := 0x7000c

/-- MSIX_VF_PBA (R377). -/
def Off.msixVfPba : Nat := 0x78000

/-- DMA_ID (R364). -/
def Off.dmaId : Nat := 0

/-- DMA_STAT (R364). -/
def Off.dmaStat : Nat := 4

/-- SLOT_STAT (R364). -/
def Off.slotStat : Nat := 0x10

/-- CH_CTL (R364). -/
def Off.chCtl : Nat := 0x1000

/-- CH_STAT (R364). -/
def Off.chStat : Nat := 0x1004

/-- CH_OWNER (R364). -/
def Off.chOwner : Nat := 0x1008

/-- CH_DESC_LO (R364). -/
def Off.chDescLo : Nat := 0x1010

/-- CH_DESC_HI (R364). -/
def Off.chDescHi : Nat := 0x1014

/-- CH_PROG_LO (R364). -/
def Off.chProgLo : Nat := 0x1018

/-- CH_PROG_HI (R364). -/
def Off.chProgHi : Nat := 0x101c

/-- CH_KICK (R364). -/
def Off.chKick : Nat := 0x1020

/-- VOL_LCTL (R391). -/
def Off.volLctl : Nat := 0

/-- VOL_LSTAT (R391). -/
def Off.volLstat : Nat := 4

/-- VOL_CRC_COUNT (R391). -/
def Off.volCrcCount : Nat := 8

/-- VOL_REPLAY_COUNT (R391). -/
def Off.volReplayCount : Nat := 0xc

/-- VOL_RETRAIN_COUNT (R391). -/
def Off.volRetrainCount : Nat := 0x10

/-- VOL_LANE_FAIL (R391). -/
def Off.volLaneFail : Nat := 0x14

/-- VOL_ID (R391). -/
def Off.volId : Nat := 0

/-- VOL_TORUS (R391). -/
def Off.volTorus : Nat := 4

/-- VOL_TORUS_LINKS (R391). -/
def Off.volTorusLinks : Nat := 8

/-- VOL_DROP_COUNT (R391). -/
def Off.volDropCount : Nat := 0xc

/-- VOL_DROP_LAST (R391). -/
def Off.volDropLast : Nat := 0x10

/-- VOL_ROUTE_LO (R391). -/
def Off.volRouteLo : Nat := 0x100

/-- VOL_ROUTE_HI (R391). -/
def Off.volRouteHi : Nat := 0x104

/-- TWR_ID (R186). -/
def Off.twrId : Nat := 0

/-- TWR_CTL (R186). -/
def Off.twrCtl : Nat := 4

/-- TWR_STAT (R186). -/
def Off.twrStat : Nat := 8

/-- TWR_TEMP (R186). -/
def Off.twrTemp : Nat := 0xc

/-- TWR_SCRUB_RATE (R186). -/
def Off.twrScrubRate : Nat := 0x10

/-- TWR_SCRUB_POS (R186). -/
def Off.twrScrubPos : Nat := 0x14

/-- TWR_CE_CFG (R186). -/
def Off.twrCeCfg : Nat := 0x18

/-- TWR_PIN (R186). -/
def Off.twrPin : Nat := 0x1c

/-- TWR_MIGRATE (R186). -/
def Off.twrMigrate : Nat := 0x20

/-- TWR_MIGRATE_STAT (R186). -/
def Off.twrMigrateStat : Nat := 0x24

/-- TWR_CE_COUNT (R186). -/
def Off.twrCeCount : Nat := 0x28

/-- TWR_UE_COUNT (R186). -/
def Off.twrUeCount : Nat := 0x2c

/-- TSEQ_STAT (R228). -/
def Off.tseqStat : Nat := 0x1000

/-- TSEQ_CTL (R228). -/
def Off.tseqCtl : Nat := 0x1004

/-- TSEQ_DONE_COUNT (R228). -/
def Off.tseqDoneCount : Nat := 0x1008

/-- TSEQ_OVERRUN_COUNT (R228). -/
def Off.tseqOverrunCount : Nat := 0x100c

/-- TSEQ_LAST_OVERRUN (R228). -/
def Off.tseqLastOverrun : Nat := 0x1010

/-- TSEQ_BUSY_LO (R228). -/
def Off.tseqBusyLo : Nat := 0x1014

/-- TSEQ_BUSY_HI (R228). -/
def Off.tseqBusyHi : Nat := 0x1018

/-- TWR_EVAC (R447). -/
def Off.twrEvac : Nat := 0x2000

/-- TWR_EVAC_STAT (R447). -/
def Off.twrEvacStat : Nat := 0x2004

/-- TWR_REPAIR_STAT (R447). -/
def Off.twrRepairStat : Nat := 0x2008

/-- TWR_CHAN_FAIL (R447). -/
def Off.twrChanFail : Nat := 0x200c

/-- TWR_TSV_FAIL (R447). -/
def Off.twrTsvFail : Nat := 0x2010

/-- TWR_RETIRED (R442). -/
def Off.twrRetired : Nat := 0x4000

/-- FRAME_TABLE (R160). -/
def Off.frameTable : Nat := 0x80000

end Sys2Proof.Machine
end

