-- ==== Sys2Proof/Machine/Ops.lean ====
section
/-! DEFINITION. Named operations on the state: its parts by number, the host-visible registers, free values, error
records (13_reliability_and_service.md) and MSI-X (11_host_and_links.md). -/

namespace Sys2Proof.Machine

/-! ## Parts of the state by number -/

def State.core (s : State) (c : Nat) : Core := mget {} s.cores c
def State.tower (s : State) (t : Nat) : Tower := mget {} s.towers t
def State.group (s : State) (g : Nat) : Group := mget {} s.groups g
def State.part (s : State) (p : Nat) : Part := mget {} s.parts p
def State.granule (s : State) (k : Nat) : Granule := mget {} s.granules k
def State.cupola (s : State) (k : Nat) : List Line := mget [] s.cupolas k

def State.setCore (s : State) (c : Nat) (x : Core) : State := { s with cores := mset {} s.cores c x }
def State.setTower (s : State) (t : Nat) (x : Tower) : State := { s with towers := mset {} s.towers t x }
def State.setGroup (s : State) (g : Nat) (x : Group) : State := { s with groups := mset {} s.groups g x }
def State.setPart (s : State) (p : Nat) (x : Part) : State := { s with parts := mset {} s.parts p x }
def State.setGranule (s : State) (k : Nat) (x : Granule) : State := { s with granules := mset {} s.granules k x }
def State.setCupola (s : State) (k : Nat) (x : List Line) : State := { s with cupolas := mset [] s.cupolas k x }

def State.modCore (s : State) (c : Nat) (f : Core → Core) : State := s.setCore c (f (s.core c))
def State.modTower (s : State) (t : Nat) (f : Tower → Tower) : State := s.setTower t (f (s.tower t))
def State.modGroup (s : State) (g : Nat) (f : Group → Group) : State := s.setGroup g (f (s.group g))
def State.modPart (s : State) (p : Nat) (f : Part → Part) : State := s.setPart p (f (s.part p))
def State.modLanding (s : State) (f : Landing → Landing) : State := { s with landing := f s.landing }

def State.engine (s : State) (e : Nat) : Engine := mget {} s.engines e
def State.setEngine (s : State) (e : Nat) (x : Engine) : State := { s with engines := mset {} s.engines e x }
def State.modEngine (s : State) (e : Nat) (f : Engine → Engine) : State := s.setEngine e (f (s.engine e))
def State.chan (s : State) (e c : Nat) : Channel := mget {} (s.engine e).channels c
def State.setChan (s : State) (e c : Nat) (x : Channel) : State :=
  s.modEngine e fun d => { d with channels := mset {} d.channels c x }
def State.modChan (s : State) (e c : Nat) (f : Channel → Channel) : State := s.setChan e c (f (s.chan e c))
def State.job (s : State) (p j : Nat) : Job := mget {} (s.part p).jobs j
def State.setJob (s : State) (p j : Nat) (x : Job) : State :=
  s.modPart p fun d => { d with jobs := mset {} d.jobs j x }
def State.modJob (s : State) (p j : Nat) (f : Job → Job) : State := s.setJob p j (f (s.job p j))

def State.link (s : State) (l : Nat) : LinkState := mget {} s.links l
def State.setLink (s : State) (l : Nat) (x : LinkState) : State := { s with links := mset {} s.links l x }
def State.modLink (s : State) (l : Nat) (f : LinkState → LinkState) : State := s.setLink l (f (s.link l))

/-- The model's counter of free values moved on (DESIGN CHOICE, log 4). -/
def State.tick (s : State) : State := { s with free := s.free + 1 }

/-- The `i`-th free number that a step draws for a purpose. -/
def State.draw (s : State) (purpose i : Nat) : Nat := Config.freeValue purpose s.free i

/-! ## Registers -/

/-- The value held for the register at a PF BAR0 offset. -/
def State.reg (s : State) (a : Nat) : Nat := mget (regReset s.variant a) s.regs a

/-- The value of the register at a PF BAR0 offset set. -/
def State.setReg (s : State) (a v : Nat) : State := { s with regs := mset (regReset s.variant a) s.regs a v }

/-- Bits [lo + n - 1 : lo] of a number replaced by `v`. -/
def putField (x lo n v : Nat) : Nat :=
  x - (field x lo n <<< lo) + ((v % 2 ^ n) <<< lo)

/-- A field of a register. -/
def State.regField (s : State) (a lo n : Nat) : Nat := field (s.reg a) lo n

/-- A field of a register set by the device. -/
def State.setRegField (s : State) (a lo n v : Nat) : State := s.setReg a (putField (s.reg a) lo n v)

/-- A bit of a register. -/
def State.regBit (s : State) (a i : Nat) : Bool := nbit (s.reg a) i

/-- A bit of a register set by the device. -/
def State.setRegBit (s : State) (a i : Nat) (b : Bool) : State := s.setRegField a i 1 (b2n b)

/-- A register of partition `p`. -/
def State.preg (s : State) (p o : Nat) : Nat := s.reg (partBase p + o)

/-- A LO and HI register pair of partition `p` as one number. -/
def State.pregPair (s : State) (p lo hi : Nat) : Nat := s.preg p lo + 2 ^ 32 * s.preg p hi

/-- The value that a host write leaves in a register (Table 00-3): RW fields take the written bits, RW1C bits clear where
a 1 is written, every other bit stays. -/
def applyAccess (rw w1c old v : Nat) : Nat :=
  ((old &&& (2 ^ 64 - 1 - rw)) ||| (v &&& rw)) &&& (2 ^ 64 - 1 - (v &&& w1c))

/-! ## Partitions and groups -/

/-- The home groups of the variant. -/
def State.units (s : State) : Nat := Config.units s.variant

/-- PCTL.GROUPS of a partition (Table 11-4). -/
def State.groupMask (s : State) (p : Nat) : Nat := s.regField (partBase p + Off.pctl) 0 12

/-- The towers of a partition in ascending order (R163, R20). -/
def State.towersOf (s : State) (p : Nat) : List Nat :=
  (List.range s.units).filter fun g => nbit (s.groupMask p) g

/-- Whether a partition is past DISABLED. -/
def State.active (s : State) (p : Nat) : Bool := decide ((s.part p).state ≠ .disabled)

/-- The partition that owns a tower (TWR_STAT.OWNER), 15 for none. -/
def State.owner (s : State) (t : Nat) : Nat := (s.tower t).owner

/-- The Spires that a partition's home groups lie on (R18). -/
def State.onSpire (s : State) (p sp : Nat) : Bool :=
  (s.towersOf p).any fun g => decide (Config.spireOfGroup s.variant g = sp)

/-- Whether a core is a logical core of the part. -/
def State.coreExists (s : State) (c : Nat) : Bool := decide (c < Config.cores s.variant)

/-- The Spire of a logical core (R18). -/
def State.spireOf (s : State) (c : Nat) : Nat := Config.spireOfGroup s.variant (Config.groupOfCore c)

/-- The physical core of a logical core: the factory binding is its place among its Spire's cores (R19, DESIGN CHOICE, log 24). -/
def State.physCore (s : State) (c : Nat) : Nat :=
  match (s.core c).phys with
  | some p => p
  | none => c % Config.coresPerSpire s.variant

/-! ## Clocks -/

/-- GSTAT.FATAL: every clock but MCLK is stopped (R430). -/
def State.stopped (s : State) : Bool := s.regBit Off.gstat 30

/-- Whether ACLK, FCLK and BCLK run: power is good, the root PLL is on (R28; it is off in recovery, R412), and no FATAL error
has stopped them (R430, R455). -/
def State.runs (s : State) : Bool := s.mod.modPg && !s.stopped && !s.aldeah.recovery

/-! ## Codes -/

/-- The status code (Table 10-4). -/
def statusCode : Status → Nat
  | .ok => 0 | .aborted => 1 | .overrun => 2 | .poison => 3 | .descInvalid => 4 | .bounds => 5 | .tableBusy => 6
  | .checkFail => 7 | .flrCancelled => 8 | .linkDown => 9 | .uncorrected => 10 | .noKvSpace => 11 | .refused => 12

/-- The status of a code; the reserved codes are never written (R349). -/
def statusOf : Nat → Status
  | 0 => .ok | 1 => .aborted | 2 => .overrun | 3 => .poison | 4 => .descInvalid | 5 => .bounds | 6 => .tableBusy
  | 7 => .checkFail | 8 => .flrCancelled | 9 => .linkDown | 10 => .uncorrected | 11 => .noKvSpace | _ => .refused

/-- The engine id of a unit (Table 10-7); 0xFFFF for the host (Table 13-4). -/
def engineId : Agent → Nat
  | .core c => c | .tower t => 0x1000 + t | .dma e => 0x2000 + e | .link l => 0x3000 + l
  | .dispatcher p => 0x4000 + p | .serving p => 0x5000 + p | .cupola k => 0x6000 + k | .host => 0xFFFF

/-- The code of an error (Table 13-4). -/
def errCodeNum : ErrCode → Nat
  | .memCe => 0x1 | .memUe => 0x2 | .memUninit => 0x3 | .memCeRate => 0x4 | .memUnmapped => 0x5 | .rowRepair => 0x6
  | .colRepair => 0x7 | .bankSparesOut => 0x8 | .chanFold => 0x9 | .floorEvac => 0xA | .floorLost => 0xB
  | .coreCe => 0x10 | .coreUe => 0x11 | .coreReplaced => 0x12 | .coreRetired => 0x13 | .keepSramCe => 0x14
  | .keepCtlUe => 0x15 | .stagingUe => 0x16 | .landingPartUe => 0x17 | .cupolaCe => 0x18 | .cupolaUe => 0x19
  | .cupolaCtlUe => 0x1A | .linkLaneFail => 0x20 | .linkDown => 0x21 | .linkRefused => 0x22 | .linkCheckFail => 0x23
  | .linkDrop => 0x24 | .brake => 0x30 | .thermTrip => 0x31 | .supplyFail => 0x32 | .sharedUe => 0x33
  | .landingCe => 0x34 | .groupOut => 0x40

/-- The class of a code (Table 13-4). -/
def errClassOf : ErrCode → ErrClass
  | .memCe | .memCeRate | .rowRepair | .colRepair | .bankSparesOut | .chanFold | .floorEvac | .coreCe | .coreReplaced
  | .keepSramCe | .cupolaCe | .linkLaneFail | .brake | .landingCe => .corrected
  | .memUe | .memUninit | .stagingUe | .cupolaUe | .linkCheckFail => .deferred
  | .thermTrip | .supplyFail | .sharedUe => .fatal
  | _ => .contained

/-- The number of a class (Table 13-1). -/
def errClassNum : ErrClass → Nat
  | .corrected => 0 | .deferred => 1 | .contained => 2 | .fatal => 3

/-- The EXTENT of a CONTAINED code where Table 13-4 fixes it. -/
def errExtent : ErrCode → Nat
  | .floorLost | .keepCtlUe | .landingPartUe | .cupolaCtlUe => 2
  | .coreUe => 1
  | .coreRetired | .groupOut => 3
  | _ => 0

/-! ## Local cycle counts (R298, Table 09-15) -/

/-- The local cycle count of a unit. -/
def State.cyclesOf (s : State) : Agent → Nat
  | .core c => (s.core c).cycles.toNat
  | .tower t => (s.tower t).fclk.toNat
  | .dma e => if e < 12 then (s.tower e).fclk.toNat else s.landing.fclk.toNat
  | _ => s.landing.fclk.toNat

/-! ## Error records (R420 to R426) -/

/-- Whether a CORRECTED event folds into an earlier record (R424). -/
def foldsInto (r e : ErrRec) : Bool :=
  decide (r.cls = .corrected) && decide (e.cls = .corrected) && decide (r.code = e.code) && decide (r.kind = e.kind) &&
  decide (r.index = e.index) && decide (r.physHi = e.physHi) && decide (r.physLo = e.physLo) &&
  decide (field r.addr 48 16 = field e.addr 48 16)

/-- Fold an event into the first record of the queue that takes it: a record in the queue is within its window. -/
def foldRecord (e : ErrRec) : List ErrRec → Option (List ErrRec)
  | [] => none
  | r :: rest =>
    if foldsInto r e then some ({ r with count := r.count + 1 } :: rest)
    else match foldRecord e rest with
      | some l => some (r :: l)
      | none => none

/-- Put an error record in the Landing's queue of 256 entries (R424, R407). -/
def State.logError (s : State) (e : ErrRec) : State :=
  match foldRecord e s.landing.records with
  | some l => s.modLanding fun d => { d with records := l }
  | none =>
    if s.landing.records.length + s.landing.waiting.length < 256 then s.modLanding fun d => { d with records := d.records ++ [e] }
    else s.modLanding fun d => { d with recordsLost := d.recordsLost + 1 }

/-- An error record of a code, with the class and extent of Table 13-4. -/
def errOf (code : ErrCode) (part kind index : Nat) : ErrRec :=
  { code := code, part := part, cls := errClassOf code, extent := errExtent code, kind := kind, index := index }

/-! ## MSI-X (R377, R378) -/

/-- The offset in PF BAR0 of a vector's table entry. -/
def msixEntry (v : Nat) : Nat :=
  if v < 4096 then Off.msixPfAddrLo + 16 * v
  else partBase ((v - 4096) / 64) + Off.msixVfAddrLo + 16 * ((v - 4096) % 64)

/-- Whether an FLR has stopped the outbound memory writes of the function of partition `p` (R376). -/
def State.partStopped (s : State) (p : Nat) : Bool :=
  match (s.part p).disable with
  | some d => d.flr && d.cut
  | none => false

/-- Whether an FLR of the PF has stopped the outbound memory writes of the PF: no partition drains any more (R376; DEDUCED, log
173). -/
def State.pfStopped (s : State) : Bool :=
  s.pfFlr && s.parts.all fun x => match x.2.disable with
    | some d => d.cut
    | none => true

/-- Whether the messages of a vector are stopped (R376). -/
def State.vectorStopped (s : State) (v : Nat) : Bool := if v < 4096 then s.pfStopped else s.partStopped ((v - 4096) / 64)

/-- Signal a vector: its message is sent, or its pending bit is set while it is masked (PRESUMED, log 12). -/
def State.signal (s : State) (v : Nat) : State :=
  let e := msixEntry v
  if s.vectorStopped v then s
  else if s.regBit (e + 12) 0 then
    s.modLanding fun d => if d.msixPending.contains v then d else { d with msixPending := d.msixPending ++ [v] }
  else
    s.modLanding fun d => { d with msgs := d.msgs ++ [⟨s.reg e + 2 ^ 32 * s.reg (e + 4), s.reg (e + 8)⟩] }

/-- Signal vector `v` of partition `p`, on its VF or, with IRQ_TO_PF, on the PF (R377). -/
def State.signalPart (s : State) (p v : Nat) : State :=
  if s.regBit (partBase p + Off.pctl) 29 then s.signal (64 + 64 * p + v % 64) else s.signal (4096 + 64 * p + v % 64)

/-- Signal the partition event vector (R377). -/
def State.partEvent (s : State) (p : Nat) : State := s.signalPart p (s.regField (partBase p + Off.pirq) 0 6)

/-- Set PSTAT.STATE of a partition; a change is a partition event (R377). -/
def State.setPartState (s : State) (p : Nat) (x : PartState) : State :=
  if (s.part p).state = x then s else (s.modPart p fun d => { d with state := x }).partEvent p

/-- An error reported through a function's AER (R373). -/
def State.reportAer (s : State) (fn : Fn) (x : AerSeverity) : State :=
  s.modLanding fun l => { l with aer := l.aer ++ [⟨fn, x⟩] }

/-! ## Outcome -/

/-- A next state. -/
abbrev Result := Host.Outcome State Fault Refusal

/-- The command's effect is the state given. -/
def done (s : State) : Result := .next s

end Sys2Proof.Machine
end

