-- ==== Sys2Proof/Machine/Mem.lean ====
section
/-! DEFINITION. Memory (05_tower_memory.md, R23, R465, R270): the regions of a partition's address space, the frame
table, tower words with their check state, scratch words, and the Cupola caches with their directory. -/

namespace Sys2Proof.Machine

/-! ## Addresses -/

/-- A place in a tower by its logical coordinates (R162). -/
structure Place where
  tower : Nat
  floor : Nat
  bank : Nat
  row : Nat
  word : Nat
  byte : Nat
  deriving DecidableEq, Repr

/-- Bytes of the hashed view per tower: 128 GiB. -/
def towerBytes : Nat := 2 ^ 37

/-- The decode of a hashed-view address (R163). -/
def hashedDecode (a : Nat) (towers : List Nat) : Place :=
  let w := 32 * towers.length
  let g := a >>> 8
  let q := g / w
  let r := g % w
  let f := (q % 65536) ^^^ (q >>> 16)
  let ch := (r + f) % w
  let c := ch % 32
  let o := q * 256 + a % 256
  { tower := towers.getD (ch / 32) 0, floor := c / 2, bank := 32 * (c % 2) + field o 11 5, row := o >>> 16,
    word := field o 5 6, byte := o % 32 }

/-- The hashed-view address of a place, which `hashedDecode` takes back to it (R164). -/
def hashedAddr (towers : List Nat) (pl : Place) : Nat :=
  let w := 32 * towers.length
  let o := pl.row * 65536 + pl.bank % 32 * 2048 + pl.word * 32 + pl.byte
  let q := o / 256
  let f := (q % 65536) ^^^ (q >>> 16)
  let ch := 32 * towers.findIdx (fun t => decide (t = pl.tower)) + 2 * pl.floor + pl.bank / 32
  (q * w + (ch + (w - f % w)) % w) * 256 + o % 256

/-- The decode of an offset in a tower's banked window (R162, Table 05-1). -/
def bankedDecode (t o : Nat) : Place :=
  { tower := t, floor := field o 33 4, bank := field o 27 6, row := field o 11 16, word := field o 5 6, byte := o % 32 }

/-- The regions of Table 05-3. -/
inductive Region where
  | hashed
  | banked (t off : Nat)
  | scratch (k off : Nat)
  | hostWindow (off : Nat)
  | remote (off : Nat)
  | none
  deriving DecidableEq, Repr

/-- Whether granule `k` is scratch of partition `p` and no change of it runs (R23, R24). -/
def State.ownsGranule (s : State) (p k : Nat) : Bool :=
  let g := s.granule k
  g.scratch && decide (g.part = p) && !g.busy

/-- The region of a partition address (R158): windows of towers outside the partition and granules not assigned to it
belong to none. -/
def State.region (s : State) (p a : Nat) : Region :=
  if a < towerBytes * (s.towersOf p).length then .hashed
  else if a < 0x100000000000 then .none
  else if a < 0x200000000000 then
    let t := (a - 0x100000000000) / 0x2000000000
    if t < 12 && (s.towersOf p).contains t then .banked t ((a - 0x100000000000) % 0x2000000000) else .none
  else if a < 0x300000000000 then
    let k := (a - 0x200000000000) / 0x2000000
    if k < 64 && s.ownsGranule p k then .scratch k ((a - 0x200000000000) % 0x2000000) else .none
  else if a < 0x400000000000 then .none
  else if a < 0x500000000000 then .hostWindow (a - 0x400000000000)
  else if a < 0x700000000000 then .remote (a - 0x500000000000)
  else .none

/-- The place of an address in tower memory, through either view (R164). -/
def State.placeOf (s : State) (p a : Nat) : Option Place :=
  match s.region p a with
  | .hashed => some (hashedDecode a (s.towersOf p))
  | .banked t o => some (bankedDecode t o)
  | _ => none

/-- Whether an address lies in the hashed view. -/
def State.isHashed (s : State) (p a : Nat) : Bool := decide (s.region p a = .hashed)

/-! ## Frames -/

/-- The frame table index of a place (R159). -/
def frameIndex (pl : Place) : Nat := pl.floor * 4096 + pl.bank * 64 + pl.row / 1024

/-- The frame table entry of a place. -/
def Tower.frameOf (tw : Tower) (pl : Place) : Frame := mget {} tw.frames (frameIndex pl)

/-- An entry of the frame table set. -/
def Tower.setFrame (tw : Tower) (i : Nat) (f : Frame) : Tower := { tw with frames := mset {} tw.frames i f }

/-- The physical floor of a logical floor (R156, R399, R434). -/
def Tower.physFloor (tw : Tower) (f : Nat) : Nat :=
  if tw.spareFor = some f then 16 else if f < tw.skip then f else f + 1

/-- The physical row of a logical row in a frame (R159). -/
def physRow (fr : Frame) (row : Nat) : Nat := fr.band * 1024 + row % 1024

/-- The number of a physical word of the tower: floor, bank, row and word. -/
def wordNumber (floor bank row word : Nat) : Nat := ((floor * 64 + bank) * 65536 + row) * 64 + word

/-- The physical word of a place, through its frame. -/
def Tower.wordOf (tw : Tower) (pl : Place) : Nat :=
  wordNumber (tw.physFloor pl.floor) pl.bank (physRow (tw.frameOf pl) pl.row) pl.word

/-- The protection type of a frame: 0 PROTECTED, 1 CHECKED. -/
def protOf (fr : Frame) : Nat := b2n fr.checked

/-! ## Ram -/

/-- The 32 bytes of word `w`. -/
def Ram.word (r : Ram) (w : Nat) : Memory := r.bytes.slice (32 * w) 32

/-- The mark that the ranges give word `w`. -/
def fillMark (w : Nat) : List (Nat × Nat × WordMark) → WordMark
  | [] => .never
  | f :: r => if f.1 ≤ w && w < f.1 + f.2.1 then f.2.2 else fillMark w r

/-- The check state of word `w`. -/
def Ram.mark (r : Ram) (w : Nat) : WordMark :=
  match mget none r.marks w with
  | some m => m
  | none => fillMark w r.fills

/-- The check state of word `w` set; a mark that the ranges give anyway is not listed. -/
def Ram.setMark (r : Ram) (w : Nat) (m : WordMark) : Ram :=
  { r with marks := mset none r.marks w (if fillMark w r.fills = m then none else some m) }

/-- Word `w` written whole, with a mark. -/
def Ram.put (r : Ram) (w : Nat) (d : Memory) (m : WordMark) : Ram :=
  { r.setMark w m with bytes := r.bytes.paste (32 * w) 32 d }

/-- The words from `w`, `n` of them, zero with a mark. -/
def Ram.fill (r : Ram) (w n : Nat) (m : WordMark) : Ram :=
  { bytes := r.bytes.zero (32 * w) (32 * n), marks := mclear r.marks w n,
    fills := (w, n, m) :: r.fills.filter fun f => !(decide (w ≤ f.1) && decide (f.1 + f.2.1 ≤ w + n)) }

/-- The words from `w`, `n` of them, never written. -/
def Ram.forget (r : Ram) (w n : Nat) : Ram := r.fill w n .never

/-- How a word read was delivered. -/
inductive WordKind where
  /-- good, or corrected -/
  | clean
  /-- found already stored poisoned (R167, R465) -/
  | stored
  /-- delivered poisoned because this read found it bad (R168) -/
  | found
  /-- a read of host memory that the host answered with an error status or a poisoned TLP (R352) -/
  | failed
  deriving DecidableEq, Repr

/-- What a read of a word delivers. -/
structure WordRead where
  data : Memory
  kind : WordKind
  deriving DecidableEq, Repr

/-- The bits in which a poisoned word differs from a good one: 0x9E37_79B9 in its check storage (R167). -/
def poisonBits : List Nat := ((List.range 32).filter fun i => nbit 0x9E3779B9 i).map (256 + ·)

/-- The mark of a word with bits of its code word in error: poisoned where they are exactly those of R167. -/
def markOf (prot : Nat) (bits : List Nat) (hard : Bool) : WordMark :=
  if bits = [] then .good prot else if bits = poisonBits && !hard then .poison prot else .bad prot bits hard

/-- The bits of a code word in error after some flip, or after some come to stand wrong for good. -/
def flipBits (old bits : List Nat) (hard : Bool) : List Nat :=
  (List.range 288).filter fun b => if hard then old.contains b || bits.contains b else old.contains b != bits.contains b

/-- What the memory array does to a word's mark before an access (R166, R436). -/
def upsetMark (u : Upset) (m : WordMark) : WordMark :=
  let flip (bits : List Nat) (hard : Bool) : WordMark :=
    match m with
    | .never => .never
    | .good p => markOf p (flipBits [] bits hard) hard
    | .poison p => markOf p (flipBits poisonBits bits hard) hard
    | .bad p old h => markOf p (flipBits old bits hard) (h || hard)
  match u with
  | .soft bits => flip bits false
  | .hard bits => flip bits true
  | _ => m

/-- Symbols of eight bits that hold bits in error. -/
def symbolsIn (bits : List Nat) : Nat := ((List.range 36).filter fun i => bits.any fun b => decide (b / 8 = i)).length

/-- Whether CRC-32C detects an error for certain (Table 05-7): up to 5 bits, or one burst of up to 32 bits. -/
def crcDetects (bits : List Nat) : Bool :=
  decide (bits.length ≤ 5) || decide (bits.getLastD 0 - bits.headD 0 < 32)

/-- The data of a word as its cells hold it, with the bits in error flipped. -/
def flipData (d : Memory) (bits : List Nat) : Memory :=
  (bits.filter (· < 256)).foldl (fun m b => m.set (b / 8) (m.get (b / 8) ^^^ BitVec.ofNat 8 (2 ^ (b % 8)))) d

/-! ## Tower error reports (R168, R172, R180) -/

/-- The memory form of ADDRESS (Table 13-3). -/
def memForm (tw : Tower) (pl : Place) : Nat :=
  frameIndex pl * 2 ^ 48 + (tw.frameOf pl).band * 2 ^ 42 + pl.row % 1024 * 2 ^ 32 + pl.word * 2 ^ 26

/-- A tower-memory error record. -/
def State.memRec (s : State) (code : ErrCode) (pl : Place) (detail : Nat) : ErrRec :=
  let tw := s.tower pl.tower
  { errOf code tw.owner 1 pl.tower with
    physHi := tw.physFloor pl.floor, physLo := pl.bank, addr := memForm tw pl, detail := detail,
    cycles := tw.fclk.toNat }

/-- A count raised by one, saturating at 32 bits. -/
def sat32 (n : Nat) : Nat := if n + 1 < 2 ^ 32 then n + 1 else 2 ^ 32 - 1

/-- The frame with the lowest count of the tracking table, of several the lowest index (DESIGN CHOICE, log 161). -/
def lowestTrack : List (Nat × Track) → Option (Nat × Nat)
  | [] => none
  | (k, t) :: r => match lowestTrack r with
    | none => some (k, t.count)
    | some (j, n) => if t.count ≤ n then some (k, t.count) else some (j, n)

/-- Count a corrected error of a frame in the tracking table (R180): the table, and whether MEM_CE_RATE is due. -/
def trackCe (tr : List (Nat × Track)) (f thresh : Nat) : List (Nat × Track) × Bool :=
  let th := if thresh = 0 then 1 else thresh
  let old := mget ⟨0, false⟩ tr f
  let room := tr.any (fun e => decide (e.1 = f)) || decide (tr.length < 64)
  let tr := if room then tr else match lowestTrack tr with
    | some (k, _) => mset ⟨0, false⟩ tr k ⟨0, false⟩
    | none => tr
  let due := decide (old.count + 1 ≥ th) && !old.logged
  (mset ⟨0, false⟩ tr f ⟨old.count + 1, old.logged || due⟩, due)

/-- Log MEM_CE, count it, and log MEM_CE_RATE when the frame's count reaches THRESH (R168, R180). -/
def State.reportCe (s : State) (pl : Place) (symbols : Nat) : State :=
  let s := s.logError (s.memRec .memCe pl symbols)
  let thresh := s.regField (towerBase pl.tower + Off.twrCeCfg) 0 16
  let tw := s.tower pl.tower
  let (tr, due) := trackCe tw.track (frameIndex pl) thresh
  let s := s.setTower pl.tower { tw with track := tr, ceCount := sat32 tw.ceCount }
  if due then s.logError (s.memRec .memCeRate pl (if thresh = 0 then 1 else thresh)) else s

/-- Log MEM_UE, or MEM_UNINIT in a frame whose INIT is 0, and count it (R168, R172). -/
def State.reportUe (s : State) (pl : Place) : State :=
  let fr := (s.tower pl.tower).frameOf pl
  let s := s.logError (s.memRec (if fr.init then .memUe else .memUninit) pl (protOf fr))
  s.modTower pl.tower fun tw => { tw with ueCount := sat32 tw.ueCount }

/-! ## The repair journal (R440, R441) -/

/-- Append an entry to the journal; false where it is full and the repair stays unpersisted. -/
def State.writeJournal (s : State) (kind unit floor bank place : Nat) : State × Bool :=
  if s.journal.length < 16383 then
    ({ s with journal := s.journal ++ [⟨kind, unit, floor, bank, place, s.boots⟩] }, true)
  else (s, false)

/-- The DETAIL of a repair's record: bit 31 marks a repair that the journal does not hold (R441). -/
def repairDetail (d : Nat) (ok : Bool) : Nat := if ok then d else d + 2 ^ 31

/-! ## Row and column repair (R436, R437) -/

/-- Spare rows of a bank (Table 13-6). -/
def spareRows : Nat := 32

/-- Spare code-word columns of a bank (Table 13-6). -/
def spareCols : Nat := 4

/-- Log BANK_SPARES_OUT once for a bank (R437). -/
def State.bankOut (s : State) (pl : Place) : State :=
  let k := (s.tower pl.tower).physFloor pl.floor * 64 + pl.bank
  if (s.tower pl.tower).sparesOut.contains k then s
  else (s.logError (s.memRec .bankSparesOut pl 0)).modTower pl.tower fun tw => { tw with sparesOut := k :: tw.sparesOut }

/-- After a fourth row repair with the fault in one code word, the Keep begins to copy that column (R437). -/
def State.startColumn (s : State) (pl : Place) : State :=
  let tw := s.tower pl.tower
  let f := tw.physFloor pl.floor
  let sameBank (r : RowRepair) : Bool := decide (r.floor = f) && decide (r.bank = pl.bank)
  let rows := (tw.rowRepairs.filter fun r => sameBank r && decide (r.word = pl.word)).length
  let cols := ((tw.colRepairs ++ tw.colBusy).filter sameBank).length
  let already := (tw.colRepairs ++ tw.colBusy).any fun r => sameBank r && decide (r.word = pl.word)
  if rows < 4 || already then s
  else if cols < spareCols then
    s.setTower pl.tower { tw with colBusy := tw.colBusy ++ [⟨f, pl.bank, 0, pl.word⟩] }
  else s.bankOut pl

/-- A hard row: it is copied into a spare row and redirected (R436); without a spare row, BANK_SPARES_OUT. -/
def State.repairRow (s : State) (pl : Place) (w : Nat) : State :=
  let tw := s.tower pl.tower
  let f := tw.physFloor pl.floor
  let used := (tw.rowRepairs.filter fun r => decide (r.floor = f) && decide (r.bank = pl.bank)).length
  if used < spareRows then
    let row := physRow (tw.frameOf pl) pl.row
    let ram := tw.ram.setMark w (.good (protOf (tw.frameOf pl)))
    let s := s.setTower pl.tower { tw with ram := ram, rowRepairs := tw.rowRepairs ++ [⟨f, pl.bank, row, pl.word⟩] }
    let (s, ok) := s.writeJournal 3 pl.tower f pl.bank (row + 2 ^ 16 * used)
    (s.logError (s.memRec .rowRepair pl (repairDetail (spareRows - used - 1) ok))).startColumn pl
  else s.bankOut pl

/-! ## Tower words -/

/-- The free bytes of a word's data. -/
def freeWord (base : Nat) : Nat → Memory
  | 0 => []
  | n + 1 => (freeWord base n).set n (Config.uninitByte (base + n))

/-- What the check of a word finds (R166 to R168, R172). -/
inductive Finding where
  | ok
  /-- already stored poisoned -/
  | stored
  | corrected (symbols : Nat) (hard : Bool)
  | bad
  /-- symbols in error that pass the check as if corrected, or unseen (DESIGN CHOICE, log 28) -/
  | missed
  deriving DecidableEq, Repr

/-- Check a word with mark `m` in a frame. A word of another protection type fails the check. Beyond what the code
promises to see, a free choice decides. -/
def State.inspect (s : State) (fr : Frame) (m : WordMark) : Finding :=
  let pr := protOf fr
  match m with
  | .never => .bad
  | .good p => if p = pr then .ok else .bad
  | .poison p => if p = pr then .stored else .bad
  | .bad p bits hard =>
    if p ≠ pr then .bad
    else if fr.checked then (if crcDetects bits || decide (s.draw 1 0 % 2 = 0) then .bad else .missed)
    else if symbolsIn bits ≤ 2 then .corrected (symbolsIn bits) hard
    else if s.draw 1 0 % 2 = 0 then .bad else .missed

/-- The data that a check delivers: the word's own; its cells' where it is bad or passes CRC-32C with bits in error; free bytes
where it was never written or is miscorrected (log 28). -/
def State.found (s : State) (fr : Frame) (w : Nat) (d : Memory) (m : WordMark) (f : Finding) : Memory :=
  match f, m with
  | .bad, .never => freeWord (32 * w) 32
  | .bad, .bad _ bits _ => flipData d bits
  | .missed, .bad _ bits _ => if fr.checked then flipData d bits else freeWord (2 ^ 48 + 32 * s.free) 32
  | _, _ => d

/-- Report what a check found (R168, R180). -/
def State.report (s : State) (pl : Place) (f : Finding) : State :=
  match f with
  | .ok | .stored => s
  | .corrected n _ => s.reportCe pl n
  | .bad => s.reportUe pl
  | .missed =>
    if ((s.tower pl.tower).frameOf pl).checked then s else s.reportCe pl (1 + s.draw 2 0 % 2)

/-- A read of the word at a place, after what the array does to it (R166 to R172): a corrected word is written back, and
its row repaired where the error stays (R436). -/
def State.readTower (s : State) (pl : Place) (u : Upset) : State × WordRead :=
  let tw := s.tower pl.tower
  let fr := tw.frameOf pl
  let w := tw.wordOf pl
  let m := upsetMark u (tw.ram.mark w)
  let f := s.inspect fr m
  let d := s.found fr w (tw.ram.word w) m f
  let s := s.setTower pl.tower { tw with ram := tw.ram.setMark w m }
  let s := (s.report pl f).tick
  match f with
  | .ok => (s, ⟨d, .clean⟩)
  | .stored => (s, ⟨d, .stored⟩)
  | .bad => (s, ⟨d, .found⟩)
  | .corrected _ hard =>
    if hard then (s.repairRow pl w, ⟨d, .clean⟩)
    else (s.modTower pl.tower fun tw => { tw with ram := tw.ram.setMark w (.good (protOf fr)) }, ⟨d, .clean⟩)
  | .missed =>
    if fr.checked then (s, ⟨d, .clean⟩)
    else (s.modTower pl.tower fun tw => { tw with ram := tw.ram.put w d (.good (protOf fr)) }, ⟨d, .clean⟩)

/-- A write of the whole word at a place, poisoned or not (R167). -/
def State.writeTower (s : State) (pl : Place) (d : Memory) (poison : Bool) : State :=
  s.modTower pl.tower fun tw =>
    let pr := protOf (tw.frameOf pl)
    { tw with ram := tw.ram.put (tw.wordOf pl) d (if poison then .poison pr else .good pr) }

/-- A narrow write: an indivisible read-modify-write (R169, R170). -/
def State.narrowTower (s : State) (pl : Place) (off : Nat) (bs : List Byte) (u : Upset) : State :=
  let (s, r) := s.readTower pl u
  match r.kind with
  | .clean => s.writeTower pl (r.data.setBytes off bs) false
  | .stored => s
  | .found | .failed => s.writeTower pl r.data true

/-! ## Power states that an access meets (R329, R174) -/

/-- Forget the words of physical floors, those for which `lost` holds. -/
def forgetFloors (lost : Nat → Bool) (n : Nat) (r : Ram) : Ram :=
  (List.range n).foldl (fun r f => if lost f then r.forget (f * 64 * 65536 * 64) (64 * 65536 * 64) else r) r

/-- A core that has lost its state: what Aldeah binds to it stays (R19, R414). -/
def bareCore (c : Core) : Core :=
  { phys := c.phys, retired := c.retired, testing := c.testing, ucodeB := c.ucodeB }

/-- A group leaves G3: the floors that TWR_PIN does not name lose their contents and INIT (R174); its cores' state is
lost and their cycle counts start from zero (R298). -/
def State.exitG3 (s : State) (g : Nat) : State :=
  let pin := s.regField (towerBase g + Off.twrPin) 0 16
  let tw := s.tower g
  let lostL (f : Nat) : Bool := decide (f < 16) && !nbit pin f
  let lostP (pf : Nat) : Bool := !((List.range 16).any fun f => nbit pin f && decide (tw.physFloor f = pf))
  let frames := mmapv {} (fun i fr => if lostL (i / 4096) then { fr with init := false } else fr) tw.frames
  let s := s.setTower g { tw with ram := forgetFloors lostP 17 tw.ram, frames := frames }
  { s with cores := mmapv {} (fun c x => if c / 24 = g then bareCore x else x) s.cores }

/-- A wake event returns a group to G0 (R329). A group at G4 does not wake. -/
def State.wake (s : State) (g : Nat) : State :=
  match (s.group g).pstate with
  | .g0 => s
  | .g1 | .g2 => s.modGroup g fun x => { x with pstate := .g0 }
  | .g3 => (s.exitG3 g).modGroup g fun x => { x with pstate := .g0 }
  | .g4 => s

/-- An access to the tower wakes a group from G2 and G3; in G1 the tower serves it (Table 09-8). -/
def State.wakeTower (s : State) (g : Nat) : State :=
  match (s.group g).pstate with
  | .g2 | .g3 => s.wake g
  | _ => s

/-- Whether a tower's contents cannot be reached: G4 or out of service (R329, R396). -/
def State.dark (s : State) (t : Nat) : Bool :=
  decide ((s.group t).pstate = .g4) || (s.group t).outOfService

/-- The banked-view address of PALLOC_BASE (R184). -/
def State.pallocBase (s : State) (p : Nat) : Nat := s.pregPair p Off.pallocBaseLo Off.pallocBaseHi

/-- Whether a place lies in the frame that holds the partition's allocation table (R185). -/
def State.inPalloc (s : State) (p : Nat) (pl : Place) : Bool :=
  decide (s.preg p Off.pallocCount ≠ 0) &&
  match s.placeOf p (s.pallocBase p) with
  | some b => decide (b.tower = pl.tower) && decide (frameIndex b = frameIndex pl)
  | none => false

/-- Log MEM_UNMAPPED for a refused access (R161, R329, R466). -/
def State.logUnmapped (s : State) (ag : Agent) (p t a : Nat) (dark completion : Bool) : State :=
  s.logError { errOf .memUnmapped p 1 t with
    physHi := 254, addr := a, status := .bounds,
    detail := engineId ag + 65536 * b2n dark + 131072 * b2n completion, cycles := (s.tower t).fclk.toNat }

/-- A DMA transfer that reaches a tower while it evacuates a floor is DEGRADED (R348). -/
def State.markDegraded (s : State) (ag : Agent) (t : Nat) : State :=
  match ag with
  | .dma e => if (s.tower t).evac.isSome then
      match (s.engine e).busy with
      | some c => s.modChan e c fun x => { x with degraded := true }
      | none => s
    else s
  | _ => s

/-- Whether the Keep admits an access at a place: refused and logged through an invalid entry or to a dark tower (R161,
R329), refused for an engine's write to an ENGINE_RO frame or the allocation table's (R160, R185). -/
def State.admitAccess (s : State) (ag : Agent) (p a : Nat) (pl : Place) (write completion : Bool) : State × Bool :=
  if s.dark pl.tower then (s.logUnmapped ag p pl.tower a true completion, false)
  else
    let s := s.wakeTower pl.tower
    let fr := (s.tower pl.tower).frameOf pl
    if !fr.valid then (s.logUnmapped ag p pl.tower a false completion, false)
    else if write && decide (ag ≠ .host) && (fr.engineRo || s.inPalloc p pl) then
      (if completion then s.logUnmapped ag p pl.tower a false true else s, false)
    else (s.markDegraded ag pl.tower, true)

/-! ## Scratch (R465) -/

/-- Bytes of a scratch granule. -/
def granuleBytes : Nat := 0x2000000

/-- The number of the scratch word at an offset of a granule. -/
def scratchWord (k off : Nat) : Nat := (k * granuleBytes + off) / 32

/-- The mark of a scratch word: a word of an assigned granule that nothing has written holds the zero of R24. -/
def State.scratchMark (s : State) (w : Nat) : WordMark :=
  match s.scratch.mark w with
  | .never => .good 0
  | m => m

/-- A Cupola error record. -/
def State.cupRec (s : State) (code : ErrCode) (p k off : Nat) : ErrRec :=
  { errOf code p 11 (k / 16) with
    physLo := k % 16, addr := 0x200000000000 + k * granuleBytes + off, cycles := s.landing.fclk.toNat }

/-- What the array does to a scratch word: one stored poisoned stays so until it is written in full (R465). -/
def scratchUpset (u : Upset) (m : WordMark) : WordMark :=
  match m with
  | .poison p => .poison p
  | m => upsetMark u m

/-- A read of a scratch word (R465). -/
def State.readScratch (s : State) (p k off : Nat) (u : Upset) : State × WordRead :=
  let w := scratchWord k off
  let m := scratchUpset u (s.scratchMark w)
  let s := { s with scratch := s.scratch.setMark w m }
  let d := s.scratch.word w
  match m with
  | .poison _ => (s, ⟨d, .stored⟩)
  | .bad _ bits _ =>
    if Config.cupolaCorrects bits then
      (({ s with scratch := s.scratch.setMark w (.good 0) } : State).logError (s.cupRec .cupolaCe p k off), ⟨d, .clean⟩)
    else (s.logError (s.cupRec .cupolaUe p k off), ⟨d, .found⟩)
  | _ => (s, ⟨d, .clean⟩)

/-- A write of a whole scratch word. -/
def State.writeScratch (s : State) (k off : Nat) (d : Memory) (poison : Bool) : State :=
  { s with scratch := s.scratch.put (scratchWord k off) d (if poison then .poison 0 else .good 0) }

/-- A narrow write to scratch (R465). -/
def State.narrowScratch (s : State) (p k off : Nat) (bs : List Byte) (u : Upset) : State :=
  let (s, r) := s.readScratch p k (off - off % 32) u
  match r.kind with
  | .clean => s.writeScratch k (off - off % 32) (r.data.setBytes (off % 32) bs) false
  | .stored => s
  | .found | .failed => s.writeScratch k (off - off % 32) r.data true

/-! ## Cupola caches and the directory (R23, R270) -/

/-- The hash granule of an address. -/
def lineAddr (a : Nat) : Nat := a - a % 256

/-- Whether a line is the one at `la` of partition `p`. -/
def isLine (p la : Nat) (l : Line) : Bool := decide (l.part = p) && decide (l.addr = la)

/-- The line of a Cupola at an address. -/
def State.findLine (s : State) (k p la : Nat) : Option Line := (s.cupola k).find? (isLine p la)

/-- Whether granule `i` is cache: not scratch, and in no change of its assignment. -/
def State.isCache (s : State) (i : Nat) : Bool := !(s.granule i).scratch && !(s.granule i).busy

/-- Whether Cupola `k` has a cache granule (R23). -/
def State.hasCache (s : State) (k : Nat) : Bool := (List.range 16).any fun i => s.isCache (16 * k + i)

/-- Lines of 256 bytes that the cache granules of Cupola `k` hold together (R23). -/
def State.cacheLines (s : State) (k : Nat) : Nat :=
  ((List.range 16).filter fun i => s.isCache (16 * k + i)).length * (granuleBytes / 256)

/-- A line put into a Cupola in place of the one at its address. -/
def State.putLine (s : State) (k : Nat) (l : Line) : State :=
  s.setCupola k (l :: (s.cupola k).filter fun x => !isLine l.part l.addr x)

/-- A line dropped from a Cupola. -/
def State.dropLine (s : State) (k p la : Nat) : State :=
  s.setCupola k ((s.cupola k).filter fun x => !isLine p la x)

/-- A Cupola that holds the line dirty. -/
def State.dirtyHolder (s : State) (p la : Nat) : Option Line :=
  ([0, 1, 2, 3].filterMap fun k => (s.findLine k p la).filter fun l => l.dirty).head?

/-- Write word `i` of a line to its tower. -/
def State.writeLineWord (s : State) (l : Line) (i : Nat) : State :=
  match s.placeOf l.part (l.addr + 32 * i) with
  | some pl => s.writeTower pl (l.data.slice (32 * i) 32) (l.poison.contains i || l.found.contains i)
  | none => s

/-- Write a dirty line of Cupola `k` back; its bytes are discarded where its frame has become unmapped or its tower dark
(R161). -/
def State.writeBack (s : State) (k : Nat) (l : Line) : State :=
  match s.placeOf l.part l.addr with
  | none => s
  | some pl =>
    let (s, ok) := s.admitAccess (.cupola k) l.part l.addr pl true false
    if ok then (List.range 8).foldl (fun s i => s.writeLineWord l i) s else s

/-- Write back the dirty copy that a Cupola holds of a line, leaving it clean. -/
def State.cleanLine (s : State) (k p la : Nat) : State :=
  match s.findLine k p la with
  | some l => if l.dirty then (s.writeBack k l).putLine k { l with dirty := false } else s
  | none => s

/-- Room made in Cupola `k` for a line at `la`: where the cache is full, a line leaves it, written back if it is dirty; the spec
names none, and a free value chooses it (DESIGN CHOICE, log 14). -/
def State.makeRoom (s : State) (k p la : Nat) : State :=
  if (s.findLine k p la).isSome || decide ((s.cupola k).length < s.cacheLines k) then s
  else match (s.cupola k)[s.draw 22 k % (s.cupola k).length]? with
    | some l => ((s.cleanLine k l.part l.addr).dropLine k l.part l.addr).tick
    | none => s

/-- A line put into Cupola `k`, which makes room for it (R23). -/
def State.addLine (s : State) (k : Nat) (l : Line) : State := (s.makeRoom k l.part l.addr).putLine k l

/-- Every Cupola drops its copy of a line, a dirty one being written back first (R139, R270). -/
def State.dropAll (s : State) (p la : Nat) : State :=
  [0, 1, 2, 3].foldl (fun s k => (s.cleanLine k p la).dropLine k p la) s

/-- Read `n` words of a line from its tower, from word `i` on. -/
def State.fillWords (s : State) (p la : Nat) : Nat → Nat → State × Line
  | 0, _ => (s, { part := p, addr := la, data := [], poison := [], dirty := false })
  | n + 1, i =>
    let (s, l) := s.fillWords p la n (i + 1)
    match s.placeOf p (la + 32 * i) with
    | none => (s, l)
    | some pl =>
      let (s, r) := s.readTower pl .none
      (s, { l with data := l.data.paste (32 * i) 32 r.data,
                   poison := if r.kind = .stored then i :: l.poison else l.poison,
                   found := if r.kind = .found then i :: l.found else l.found })

/-- The line at an address as Cupola `k` gets it: its own copy, another's dirty data, or a fill from the tower. -/
def State.getLine (s : State) (k p la : Nat) : State × Line :=
  match s.findLine k p la with
  | some l => (s, l)
  | none => match s.dirtyHolder p la with
    | some l => (s, { l with dirty := false })
    | none => s.fillWords p la 8 0

/-- The word of a line. -/
def lineWord (l : Line) (i : Nat) : WordRead :=
  ⟨l.data.slice (32 * i) 32,
   if l.found.contains i then .found else if l.poison.contains i then .stored else .clean⟩

/-- A core's read of a hashed-view word through the Cupola of its Spire (R137, R23). -/
def State.readCached (s : State) (k p wa : Nat) : State × WordRead :=
  let la := lineAddr wa
  let i := wa % 256 / 32
  if s.hasCache k then
    let (s, l) := s.getLine k p la
    let s := match s.findLine k p la with
      | some _ => s
      | none => s.addLine k l
    (s, lineWord l i)
  else match s.dirtyHolder p la with
    | some l => (s, lineWord l i)
    | none => match s.placeOf p wa with
      | some pl => s.readTower pl .none
      | none => (s, ⟨[], .found⟩)

/-- Bytes merged into a line's word; a poisoned word stays poisoned and drops them (R167). -/
def mergeLine (l : Line) (off : Nat) (bs : List Byte) : Line :=
  let i := off / 32
  if off % 32 = 0 && bs.length = 32 then
    { l with data := l.data.setBytes off bs, poison := l.poison.filter (· ≠ i), found := l.found.filter (· ≠ i), dirty := true }
  else if l.poison.contains i then l
  else if l.found.contains i then { l with poison := i :: l.poison, found := l.found.filter (· ≠ i), dirty := true }
  else { l with data := l.data.setBytes off bs, dirty := true }

/-- Every Cupola but `k` drops its copy of a line. -/
def State.dropOthers (s : State) (k p la : Nat) : State :=
  [0, 1, 2, 3].foldl (fun s j => if j = k then s else s.dropLine j p la) s

/-- A core's write within one hashed-view word, through the Cupola of its Spire (R137, R270). -/
def State.writeCached (s : State) (k p a : Nat) (bs : List Byte) : State :=
  let la := lineAddr a
  if s.hasCache k then
    let (s, l) := s.getLine k p la
    let keep := (s.dirtyHolder p la).isSome
    let l := mergeLine l (a % 256) bs
    (s.dropOthers k p la).addLine k { l with dirty := l.dirty || keep }
  else
    let s := s.dropAll p la
    match s.placeOf p a with
    | some pl =>
      if pl.byte = 0 && bs.length = 32 then s.writeTower pl (Memory.setBytes [] 0 bs) false
      else s.narrowTower pl pl.byte bs .none
    | none => s

/-! ## The port and host memory (R341, R368, R394) -/

/-- Whether the PCI Express port is up: power is good, PERST# is released and the link has trained (R394, R398). -/
def State.portUp (s : State) : Bool := s.mod.modPg && !s.mod.perst && decide (s.port.width ≠ 0)

/-- GSTAT.READY. -/
def State.ready (s : State) : Bool := s.regBit Off.gstat 31

/-- Whether BAR2 and the host windows are served: the port is at x8 or x16 and the device is READY (R368, R394). -/
def State.fullPort (s : State) : Bool := s.portUp && s.ready && decide (s.port.width ≥ 8)

/-- The bus address of an offset in a partition's host window. -/
def State.busAddr (s : State) (p off : Nat) : Nat := (s.pregPair p Off.phostWinLo Off.phostWinHi + off) % 2 ^ 64

/-- A byte of host memory: as the device wrote it, else free (DESIGN CHOICE, log 11). -/
def State.hostByte (s : State) (a : Nat) : Byte :=
  match mget none s.hostMem a with
  | some b => b
  | none => Config.hostByte s.free a

/-- Bytes of host memory from a bus address. -/
def State.hostBytes (s : State) (a : Nat) : Nat → List Byte
  | 0 => []
  | n + 1 => s.hostByte a :: s.hostBytes (a + 1) n

/-- Bytes written to host memory from a bus address. -/
def State.putHost (s : State) (a : Nat) (bs : List Byte) : State :=
  { s with hostMem := bs.zipIdx.foldl (fun m x => mset none m (a + x.2) (some x.1)) s.hostMem }

/-! ## Accesses by partition address -/

/-- The address of the line that an access to a place looks up in the Cupola directory: DMA engines' accesses through both views
(R340), other agents' through the hashed view, bank units' none (R270). -/
def State.dirLine (s : State) (ag : Agent) (p a : Nat) (pl : Place) : Option Nat :=
  match ag, s.isHashed p a with
  | .tower _, _ => none
  | _, true => some (lineAddr a)
  | .dma _, false => some (lineAddr (hashedAddr (s.towersOf p) pl))
  | _, false => none

/-- A read of the aligned 32-byte word at `wa`: none where it is refused. Cores read the hashed view through their
Cupola; bank units bypass the Cupolas; every other agent sees a dirty copy (R270). The host window is reached by DMA
engines only (Table 05-3). -/
def State.readWord (s : State) (ag : Agent) (p wa : Nat) : State × Option WordRead :=
  match s.region p wa with
  | .scratch k off =>
    let (s, r) := s.readScratch p k off .none
    (s, some r)
  | .hashed | .banked _ _ =>
    match s.placeOf p wa with
    | none => (s, none)
    | some pl =>
      let (s, ok) := s.admitAccess ag p wa pl false false
      if !ok then (s, none)
      else match s.dirLine ag p wa pl with
        | none =>
          let (s, r) := s.readTower pl .none
          (s, some r)
        | some la => match ag, s.dirtyHolder p la with
          | .core c, _ =>
            let (s, r) := s.readCached (s.spireOf c) p wa
            (s, some r)
          | _, some l => (s, some (lineWord l (pl.word % 8)))
          | _, none =>
            let (s, r) := s.readTower pl .none
            (s, some r)
  | .hostWindow off =>
    match ag with
    | .dma _ =>
      if s.fullPort then (s.tick, some
        { data := Memory.setBytes [] 0 (s.hostBytes (s.busAddr p off) 32),
          kind := if Config.hostReadFails s.free (s.busAddr p off) then .failed else .clean })
      else (s, none)
    | _ => (s, none)
  | _ => (s, none)

/-- A write within one word at `a`, `bs` not empty and not past the word's end; false where it is refused. A poisoned
write is of a whole word. -/
def State.writeWord (s : State) (ag : Agent) (p a : Nat) (bs : List Byte) (poison completion : Bool) : State × Bool :=
  match s.region p a with
  | .scratch k off =>
    if off % 32 = 0 && bs.length = 32 then (s.writeScratch k off (Memory.setBytes [] 0 bs) poison, true)
    else (s.narrowScratch p k off bs .none, true)
  | .hashed | .banked _ _ =>
    match s.placeOf p a with
    | none => (s, false)
    | some pl =>
      let (s, ok) := s.admitAccess ag p a pl true completion
      if !ok then (s, false)
      else
        let whole : Bool := decide (pl.byte = 0) && decide (bs.length = 32)
        let direct (s : State) : State :=
          if whole then s.writeTower pl (Memory.setBytes [] 0 bs) poison else s.narrowTower pl pl.byte bs .none
        match s.dirLine ag p a pl, ag with
        | none, _ => (direct s, true)
        | some la, .core c =>
          if poison then (direct (s.dropAll p la), true) else (s.writeCached (s.spireOf c) p a bs, true)
        | some la, _ => (direct (s.dropAll p la), true)
  | .hostWindow off =>
    match ag with
    | .dma _ =>
      if s.fullPort && !poison then (if s.partStopped p then s else s.putHost (s.busAddr p off) bs, true) else (s, false)
    | _ => (s, false)
  | _ => (s, false)

/-- What a read of a run of bytes delivers: the bytes from 0, the words (by offset / 32) delivered poisoned, whether one
of them was found bad by this read, whether a read of host memory failed, and whether a word was refused. -/
structure Run where
  data : Memory := []
  poison : List Nat := []
  found : Bool := false
  failed : Bool := false
  refused : Bool := false
  deriving DecidableEq, Repr

/-- Read the words that cover `n` bytes from `a`, `k` words left, the first byte at offset `o` of the run. -/
def State.readRunGo (s : State) (ag : Agent) (p a n : Nat) : Nat → Nat → State × Run
  | 0, _ => (s, {})
  | k + 1, wa =>
    let (s, r) := s.readWord ag p wa
    let (s, rest) := s.readRunGo ag p a n k (wa + 32)
    match r with
    | none => (s, { rest with refused := true })
    | some w =>
      let lo := max a wa
      let hi := min (a + n) (wa + 32)
      let rest := { rest with data := rest.data.overlay (lo - a) (w.data.slice (lo - wa) (hi - lo)) }
      match w.kind with
      | .clean => (s, rest)
      | .stored => (s, { rest with poison := (wa - (a - a % 32)) / 32 :: rest.poison })
      | .found => (s, { rest with poison := (wa - (a - a % 32)) / 32 :: rest.poison, found := true })
      | .failed => (s, { rest with poison := (wa - (a - a % 32)) / 32 :: rest.poison, failed := true })

/-- Read `n` bytes from `a`. -/
def State.readRun (s : State) (ag : Agent) (p a n : Nat) : State × Run :=
  if n = 0 then (s, {}) else s.readRunGo ag p a n ((a + n - 1) / 32 - a / 32 + 1) (a - a % 32)

/-- Write bytes from `a` word by word: `off` is the offset of the first byte left; `poison` names words of the run to be
written poisoned, by their number from the word of the first byte. -/
def State.writeRunGo (s : State) (ag : Agent) (p : Nat) (completion : Bool) (poison : List Nat) :
    Nat → Nat → Nat → List Byte → State × Bool
  | 0, _, _, _ => (s, true)
  | k + 1, i, a, bs =>
    match bs with
    | [] => (s, true)
    | _ =>
      let n := min bs.length (32 - a % 32)
      let now := bs.take n
      let pz := poison.contains i
      let (s, ok) := if pz then s.writeWord ag p (a - a % 32) (List.replicate 32 0) true completion
                     else s.writeWord ag p a now false completion
      let (s, rest) := s.writeRunGo ag p completion poison k (i + 1) (a + n) (bs.drop n)
      (s, ok && rest)

/-- Write bytes from `a`; false where a word was refused. -/
def State.writeRun (s : State) (ag : Agent) (p a : Nat) (bs : List Byte) (poison : List Nat) (completion : Bool) :
    State × Bool :=
  s.writeRunGo ag p completion poison (bs.length / 32 + 2) 0 a bs

/-- Whether the `n` bytes from `a` are reachable for an engine, without performing an access: each 32-byte word lies in
a region of the partition, in a mapped frame of a tower that is not dark (R136, R158). -/
def State.reachable (s : State) (p a n : Nat) (write : Bool) : Bool :=
  (List.range ((a + n - 1) / 32 - a / 32 + 1)).all fun i =>
    let wa := a - a % 32 + 32 * i
    match s.region p wa with
    | .scratch _ _ => true
    | .hashed | .banked _ _ => match s.placeOf p wa with
      | some pl =>
        let fr := (s.tower pl.tower).frameOf pl
        !s.dark pl.tower && fr.valid && !(write && (fr.engineRo || s.inPalloc p pl))
      | none => false
    | _ => false

/-! ## Completion records (R346, R466) -/

/-- The 32 bytes of a completion record (Table 10-6). -/
def recordBytes (tag engine flags : Nat) (st : Status) (progress cycles : Nat) : List Byte :=
  leBytes 4 tag ++ leBytes 4 (statusCode st + 256 * flags + 65536 * engine) ++ leBytes 8 progress ++ leBytes 8 cycles ++
  leBytes 8 0

/-- Write a completion record; a refused write is lost and logged (R466). -/
def State.writeRecord (s : State) (ag : Agent) (p a : Nat) (rec : List Byte) : State :=
  match s.region p a with
  | .hashed | .banked _ _ | .scratch _ _ => (s.writeRun ag p a rec [] true).1
  | _ => s.logError { errOf .memUnmapped p
        (match ag with | .dma _ => 2 | .dispatcher _ => 4 | .serving _ => 5 | .core _ => 0 | _ => 1)
        (match ag with | .dma e => e | .dispatcher q => q | .serving q => q | .core c => c | .tower t => t | _ => 0) with
      addr := a, status := .bounds, detail := engineId ag + 131072, cycles := s.cyclesOf ag }

end Sys2Proof.Machine
end

