-- ==== Sys2Proof/Machine/Access.lean ====
section
/-! DEFINITION. How a host's access reaches the device (R367 to R375, R394): which function reaches which register, when
its accesses are answered, and the host's memory behind the host windows (R341). -/

namespace Sys2Proof.Machine

/-- Whether an FLR of the partition's function is under way (R375). -/
def State.inFlr (s : State) (p : Nat) : Bool :=
  match (s.part p).disable with
  | some d => d.flr
  | none => false

/-- Whether the BAR accesses of a function are answered: the function exists, a VF by VF Enable, and no FLR of it runs (R367, R372,
R375). -/
def State.answers (s : State) (fn : Fn) : Bool :=
  s.portUp && !s.pfFlr &&
  match fn with
  | .pf => true
  | .vf n => s.port.vfEnable && decide (1 ≤ n) && decide (n ≤ s.units) && !s.inFlr (n - 1)

/-- Whether a function reaches the register at a PF BAR0 offset: the PF all of them, VF `p + 1` those of partition `p`. -/
def fnReaches (fn : Fn) (a : Nat) : Bool :=
  match fn with
  | .pf => true
  | .vf n => decide (1 ≤ n) && decide (partBase (n - 1) ≤ a) && decide (a < partBase n)

/-- Whether the part has the unit that the register at a PF BAR0 offset belongs to and describes (R3). -/
def State.regExists (s : State) (a : Nat) : Bool :=
  match locate a with
  | some (b, u, o) => unitExists s.variant b u && copyExists s.variant b o
  | none => false

/-- Whether a function's write to a PF BAR0 offset is taken: before READY the PF reaches the global block, the mailbox and
the MSI-X table only (R394). -/
def State.takes (s : State) (fn : Fn) (a : Nat) : Bool :=
  s.answers fn && fnReaches fn a && s.regExists a &&
  (match fn with
   | .pf => s.ready || decide (a < errBase)
   | .vf _ => true)

/-- A state changed where a function's write to the register at `a` is taken. -/
def State.onWrite (s : State) (fn : Fn) (a : Nat) (f : State → State) : State := if s.takes fn a then f s else s

/-- Whether a partition takes new work: ENABLED (R372, R374). -/
def State.working (s : State) (p : Nat) : Bool := decide ((s.part p).state = .enabled) && !s.stopped

/-- Read `n` bytes from a partition address that may lie in the host window. -/
def State.fetchRun (s : State) (ag : Agent) (p a n : Nat) : State × Run :=
  match s.region p a with
  | .hostWindow off =>
    if s.fullPort && decide (off + n ≤ 0x100000000000) then
      (s.tick, { data := Memory.setBytes [] 0 (s.hostBytes (s.busAddr p off) n) })
    else (s, { refused := true })
  | _ => s.readRun ag p a n

/-- Write bytes of a serving sequencer; false where they are refused. In the host window they travel through host DMA engine 12,
whose channel 15 is its own (R257, R295, Table 10-1). -/
def State.storeRun (s : State) (p a : Nat) (bs : List Byte) : State × Bool :=
  match s.region p a with
  | .hostWindow _ => s.writeRun (.dma 12) p a bs [] false
  | _ => s.writeRun (.serving p) p a bs [] false

end Sys2Proof.Machine
end

