-- ==== Sys2Proof/Machine/Flags.lean ====
section
/-! DEFINITION. Flag computations: the condition flags of a core (R88, R89), FPSTAT (R81), the flag byte of a completion
record (Table 10-8) and the comparisons of the S slot (Table 04-2). -/

namespace Sys2Proof.Machine

/-- A completion sets flag `n`; a flag already set stays set and LOST records it (R89). -/
def Core.postFlag (c : Core) (n : Nat) : Core :=
  let m : BitVec 8 := BitVec.ofNat 8 (2 ^ (n % 8))
  if c.flags &&& m = 0 then { c with flags := c.flags ||| m } else { c with lost := c.lost ||| m }

/-- A completion sets its flag, if it names one. -/
def Core.postFlag? (c : Core) (n : Option Nat) : Core :=
  match n with
  | some k => c.postFlag k
  | none => c

/-- Flags raised by the core's units are ORed into FPSTAT (R81). -/
def Core.orFp (c : Core) (f : FpFlags) : Core := { c with fpstat := orFlags c.fpstat f }

/-- Whether every flag that WAIT names is set (R84). -/
def Core.waitReady (c : Core) (wait : BitVec 8) : Bool := decide (c.flags &&& wait = wait)

/-- The flags that WAIT names are cleared at issue (R88). -/
def Core.consume (c : Core) (wait : BitVec 8) : Core := { c with flags := c.flags &&& ~~~wait }

/-- CFLAGS (Table 03-4). -/
def Core.cflags (c : Core) : Word := (c.lost ++ c.flags).setWidth 32

/-- The flag byte of a record (Table 10-8): LATE_ABORT, DEGRADED and the floating-point flags. -/
def recordFlags (late degraded : Bool) (fp : FpFlags) : Nat := 128 * b2n late + 64 * b2n degraded + flagBits fp

/-- The branch comparisons (Table 04-2). -/
def branchTaken (op : BranchOp) (a b : Word) : Bool :=
  match op with
  | .beq => decide (a = b)
  | .bne => decide (a ≠ b)
  | .blt => a.slt b
  | .bge => !a.slt b
  | .bltu => a.ult b
  | .bgeu => !a.ult b

end Sys2Proof.Machine
end

