-- ==== Sys2Proof/Machine/Sync.lean ====
section
/-! DEFINITION. Arrival counters and semaphores (R276 to R282, R285). -/

namespace Sys2Proof.Machine

/-- An arrival counter. -/
def State.counter (s : State) (p i : Nat) : BitVec 64 := mget 0 (s.part p).counters i

/-- An arrival counter raised, modulo 2^64 (R276, R277). -/
def State.addCounter (s : State) (p i n : Nat) : State :=
  s.modPart p fun d => { d with counters := mset 0 d.counters i (mget 0 d.counters i + BitVec.ofNat 64 n) }

/-- The reset value of a semaphore (Table 08-6). -/
def semReset : Word := 0x00FF0000

/-- A semaphore word. -/
def State.sem (s : State) (p i : Nat) : Word := mget semReset (s.part p).sems i

/-- A semaphore word set. -/
def State.setSem (s : State) (p i : Nat) (w : Word) : State :=
  s.modPart p fun d => { d with sems := mset semReset d.sems i w }

/-- MODE: true for LOCK. -/
def semLock (w : Word) : Bool := decide (field w.toNat 30 2 = 1)
def semValue (w : Word) : Nat := field w.toNat 0 16
def semHolder (w : Word) : Nat := field w.toNat 16 8

/-- The word with VALUE and HOLDER set. -/
def semPut (w : Word) (value holder : Nat) : Word :=
  BitVec.ofNat 32 (putField (putField w.toNat 0 16 value) 16 8 holder)

/-- Whether a SEMACQ can be granted (R280). -/
def semFree (w : Word) : Bool := if semLock w then decide (semValue w = 1) else decide (semValue w ≠ 0)

/-- The semaphore after a grant to job `j` (R280). -/
def semGrant (w : Word) (j : Nat) : Word :=
  if semLock w then semPut w 0 j else semPut w (semValue w - 1) (semHolder w)

/-- The semaphore after a SEMREL by job `j`; none where it is invalid (R280). -/
def semRelease (w : Word) (j : Nat) : Option Word :=
  if semLock w then
    if semHolder w = j && semValue w = 0 then some (semPut w 1 255) else none
  else if semValue w = 65535 then some (BitVec.ofNat 32 (putField w.toNat 29 1 1))
  else some (semPut w (semValue w + 1) (semHolder w))

/-- The dispatcher frees the LOCK semaphores that a job holds (R282). -/
def State.releaseLocks (s : State) (p j : Nat) : State :=
  s.modPart p fun d => { d with sems := mmapv semReset (fun _ w =>
    if semLock w && decide (semHolder w = j) && decide (semValue w = 0)
    then BitVec.ofNat 32 (putField (semPut w 1 255).toNat 28 1 1) else w) d.sems }

/-- The value a host write leaves in a semaphore (Table 08-6, R285). -/
def semHostWrite (w : Word) (v : Nat) : Word :=
  let mode := field v 30 2
  if mode ≥ 2 then w
  else
    let value := field v 0 16
    let value := if mode = 1 && value > 1 then 1 else value
    let holder := if mode = 1 then 255 else semHolder w
    let sat := if nbit v 29 then 0 else field w.toNat 29 1
    let ab := if nbit v 28 then 0 else field w.toNat 28 1
    BitVec.ofNat 32 (mode * 2 ^ 30 + sat * 2 ^ 29 + ab * 2 ^ 28 + holder * 2 ^ 16 + value)

/-- The waits of a core leave every semaphore's order (R281). -/
def State.dropWaits (s : State) (p core : Nat) : State :=
  s.modPart p fun d => { d with semWait := d.semWait.filter fun e => decide (e.2 ≠ core) }

end Sys2Proof.Machine
end

