-- ==== Sys2Proof/Machine/Tensor.lean ====
section
/-! DEFINITION. Tensors (02_numbers_and_tensors.md): layouts, tiles, scaled rows, tensor descriptors and their
creation, clamping and window expansion. -/

namespace Sys2Proof.Machine

/-! ## Sizes (R50, R53, Table 02-5) -/

/-- Bytes of `n` elements that lie next to each other, with the padding of R48. -/
def rowBytes (f : Format) (n : Nat) : Nat :=
  if elemBits f = 6 then 3 * ceilDiv n 4 else ceilDiv (n * elemBits f) 8

/-- Data bytes of a tile (Table 02-5). -/
def tileData (f : Format) : Nat := 64 * 64 * elemBits f / 8

/-- The footprint of a tile (Table 02-5). -/
def tileBytes (f : Format) : Nat := tileData f + if isMx f then 128 else 0

/-- Elements per scaled row (R53). -/
def rowElems (f : Format) : Nat := if f = .mxE2m1 then 3840 else 1920

/-- The limit of VALID_VECTORS (Table 02-7). -/
def rowVectors (f : Format) : Nat := if f = .mxE2m1 then 30 else 15

/-! ## Codes in bytes (R47) -/

/-- The code of element `u` of a dense run that begins at `base`, where `get` reads a byte. -/
def codeAt (get : Nat → Byte) (f : Format) (base u : Nat) : Nat :=
  let b := elemBits f * u
  let a := base + b / 8
  field ((get a).toNat + 256 * (get (a + 1)).toNat + 65536 * (get (a + 2)).toNat + 16777216 * (get (a + 3)).toNat)
    (b % 8) (elemBits f)

/-- The first and the last byte of element `u` of a dense run that begins at `base`. -/
def codeSpan (f : Format) (base u : Nat) : Nat × Nat :=
  (base + elemBits f * u / 8, base + (elemBits f * u + elemBits f - 1) / 8)

/-- Codes packed low first into a number (R47). -/
def packCodes (bits : Nat) : List Nat → Nat
  | [] => 0
  | c :: r => c % 2 ^ bits + 2 ^ bits * packCodes bits r

/-- Split a list into pieces of `n`. -/
def chunks {α : Type} (n : Nat) : Nat → List α → List (List α)
  | 0, _ => []
  | _, [] => []
  | k + 1, l => l.take n :: chunks n k (l.drop n)

/-! ## Tiles (R51, R52, R91) -/

/-- The value of element (r, c) of a tile (R39, R52). -/
def tileVal (f : Format) (t : Memory) (r c : Nat) : Val :=
  let v := decodeElem f (codeAt t.get f 0 (64 * r + c))
  if isMx f then applyScale v (t.get (tileData f + 2 * r + c / 32)).toNat else v

/-- The random values that a step draws for RS rounding (R41, DESIGN CHOICE, log 18). -/
def State.rounds (s : State) (i : Nat) : Nat := s.draw 3 i

/-- The codes and scales of one row of a tile of shape rows x cols; `v` gives the element values (R45, R49). -/
def encodeTileRow (f : Format) (mode : Rounding) (ovf : Bool) (rnd : Nat → Nat) (cols r : Nat) (v : Nat → Val) :
    List Nat × List Nat × FpFlags :=
  let vals (lo n : Nat) : List Val := (List.range n).map fun i => if lo + i < cols then v (lo + i) else .fin false 0 0
  if isMx f then
    let blk (b : Nat) : Nat × List Nat × FpFlags :=
      if 32 * b ≥ cols then (0, List.replicate 32 0, {})
      else quantiseBlock f mode ovf rnd (64 * r + 32 * b) (vals (32 * b) 32)
    let x := blk 0
    let y := blk 1
    (x.2.1 ++ y.2.1, [x.1, y.1], orFlags x.2.2 y.2.2)
  else
    let (cs, fl) := encodeList f mode ovf rnd (64 * r) ((List.range cols).map v)
    (cs ++ List.replicate (64 - cols) 0, [], fl)

/-- The rows of a tile from row `r` on, `n` of them: bytes of data, bytes of scales, flags. -/
def encodeTileRows (f : Format) (mode : Rounding) (ovf : Bool) (rnd : Nat → Nat) (rows cols : Nat) (v : Nat → Nat → Val) :
    Nat → Nat → List Byte × List Byte × FpFlags
  | 0, _ => ([], [], {})
  | n + 1, r =>
    let (d, sc, fl) := encodeTileRows f mode ovf rnd rows cols v n (r + 1)
    if r < rows then
      let (cs, ss, f1) := encodeTileRow f mode ovf rnd cols r (v r)
      (leBytes (8 * elemBits f) (packCodes (elemBits f) cs) ++ d,
        (if isMx f then ss.map (BitVec.ofNat 8) else []) ++ sc, orFlags f1 fl)
    else
      (List.replicate (8 * elemBits f) 0 ++ d, (if isMx f then [0, 0] else []) ++ sc, fl)

/-- A tile of a format from its element values, every element outside the shape zero (R91). -/
def encodeTile (f : Format) (mode : Rounding) (ovf : Bool) (rnd : Nat → Nat) (rows cols : Nat) (v : Nat → Nat → Val) :
    Memory × FpFlags :=
  let (d, sc, fl) := encodeTileRows f mode ovf rnd rows cols v 64 0
  (Memory.ofBytes 0 (d ++ sc), fl)

/-! ## Tile tags (Table 03-11) -/

/-- A tile tag. -/
def mkTag (poison last : Bool) (rows cols : Nat) : Word :=
  BitVec.ofNat 32 (b2n poison * 2 ^ 31 + b2n last * 2 ^ 30 + (rows - 1) % 64 * 64 + (cols - 1) % 64)

def tagPoison (t : Word) : Bool := t.getLsbD 31
def tagLast (t : Word) : Bool := t.getLsbD 30
def tagRows (t : Word) : Nat := field t.toNat 6 6 + 1
def tagCols (t : Word) : Nat := field t.toNat 0 6 + 1

/-! ## Descriptors (R58 to R61) -/

/-- The rounding mode of a ROUND field; none for the reserved code (Table 02-3). -/
def roundingOf : Nat → Option Rounding
  | 0 => some .rne | 1 => some .rz | 2 => some .rs | _ => none

/-- Whether the constraints of Table 02-4 hold. -/
def layoutOk (d : TensorDesc) : Bool :=
  let es := elemBits d.fmt / 8
  let s1 := d.strides.getD 0 0
  let e0 := d.ext.getD 0 0
  match d.layout with
  | 0 | 1 =>
    !isMx d.fmt && (decide (es ≤ 1) || (decide (d.base % es = 0) && d.strides.all fun s => decide (s % es = 0)))
  | 2 =>
    decide (d.fmt ≠ .e8m0) && decide (d.base % 32 = 0) && (d.strides.all fun s => decide (s % 32 = 0)) &&
    (decide (d.ndim < 2) || decide (s1 ≥ ceilDiv e0 64 * tileBytes d.fmt))
  | _ =>
    rowFormat d.fmt && decide (d.base % 2048 = 0) && (d.strides.all fun s => decide (s % 2048 = 0)) &&
    (decide (d.ndim < 2) || decide (s1 ≥ ceilDiv e0 (rowElems d.fmt) * 2048)) && decide (e0 % 32 = 0)

/-- Whether an FP32 bit pattern is positive, normal and finite (R60, step 4). -/
def scaleOk (w : Word) : Bool :=
  !w.getLsbD 31 && decide (field w.toNat 23 8 ≠ 0) && decide (field w.toNat 23 8 ≠ 255)

/-- Steps 1 to 4 of R60 on the 64 bytes of a descriptor, as a number. -/
def parseDesc (n : Nat) : Option TensorDesc :=
  let ndim := field n 61 3
  let exts := (List.range 5).map fun k => field n (96 + 32 * k) 32
  let strides := (List.range 4).map fun k => field n (256 + 48 * k) 48
  match formatOf (field n 48 8) with
  | none => none
  | some f =>
    let d : TensorDesc :=
      { ndim := ndim, clamp := field n 59 2, layout := field n 56 3, fmt := f, base := field n 0 48,
        gen := field n 80 16, index := field n 64 16, ext := exts, strides := strides,
        scale := BitVec.ofNat 32 (field n 448 32) }
    if field n 480 32 ≠ 0 || ndim = 0 || ndim > 5 || d.clamp = 3 || d.layout > 3 then none
    else if (List.range 5).any (fun k => if k < ndim then decide (exts.getD k 0 = 0) else decide (exts.getD k 0 ≠ 0)) ||
        (List.range 4).any (fun k => decide (k + 1 ≥ ndim) && decide (strides.getD k 0 ≠ 0)) then none
    else if !layoutOk d then none
    else if (if perTensor f then !scaleOk d.scale else decide (d.scale ≠ 0)) then none
    else some d

/-- The length of the footprint (R61). -/
def footprint (d : TensorDesc) : Nat :=
  let e (k : Nat) : Nat := d.ext.getD k 1
  let line := match d.layout with
    | 0 | 1 => rowBytes d.fmt (e 0)
    | 2 => ceilDiv (e 0) 64 * tileBytes d.fmt
    | _ => ceilDiv (e 0) (rowElems d.fmt) * 2048
  let steps (k : Nat) : Nat := if d.layout = 2 && k = 1 then ceilDiv (e 1) 64 - 1 else e k - 1
  line + ((List.range 4).map fun j => if j + 1 < d.ndim then steps (j + 1) * d.strides.getD j 0 else 0).sum

/-- The outcome of creating a descriptor. -/
abbrev Created := Except Status TensorDesc

/-- Step 5 and 6 of R60: the allocation entry and the footprint. -/
def State.checkAlloc (s : State) (ag : Agent) (p : Nat) (d : TensorDesc) : State × Created :=
  let count := s.preg p Off.pallocCount
  let base := s.pallocBase p
  let banked := match s.region p base with
    | .banked _ _ => decide (base % 0x200000 = 0)
    | _ => false
  if count = 0 || !banked || d.index = 0 || d.index ≥ count then (s, .error .descInvalid)
  else
    let (s, r) := s.readRun ag p (base + 16 * d.index) 16
    if r.refused then (s, .error .bounds)
    else if r.poison ≠ [] then (s, .error .uncorrected)
    else
      let lo := r.data.num 0 8
      let hi := r.data.num 8 8
      if !nbit hi 63 || field hi 48 15 ≠ 0 || field lo 48 16 ≠ d.gen then (s, .error .descInvalid)
      else
        let ab := field lo 0 48
        let al := field hi 0 48
        if d.base ≥ ab && d.base + footprint d ≤ ab + al && d.base + footprint d ≤ 2 ^ 48 then (s, .ok d)
        else (s, .error .bounds)

/-- Create the descriptor at an address (R60). -/
def State.createDesc (s : State) (ag : Agent) (p a : Nat) : State × Created :=
  if a % 64 ≠ 0 then (s, .error .descInvalid)
  else
    let (s, r) := s.readRun ag p a 64
    if r.refused then (s, .error .bounds)
    else if r.poison ≠ [] then (s, .error .uncorrected)
    else match parseDesc (r.data.num 0 64) with
      | none => (s, .error .descInvalid)
      | some d => s.checkAlloc ag p d

/-! ## Elements (Table 02-4) -/

/-- Where an element lies: the start of its dense run, its index there, and the byte of its block scale. -/
structure ElemPos where
  base : Nat
  u : Nat
  scale : Option Nat
  header : Option Nat
  deriving DecidableEq, Repr

/-- The indices of dimensions 1 and above of line `n`, dimension 1 fastest. -/
def lineIndex : List Nat → Nat → List Nat
  | [], _ => []
  | e :: r, n => n % e :: lineIndex r (n / e)

/-- The place of the element with the given indices, all within the extents (Table 02-4, R52, R53). -/
def elemPos (d : TensorDesc) (x : List Nat) : ElemPos :=
  let i (k : Nat) : Nat := x.getD k 0
  let st (k : Nat) : Nat := d.strides.getD (k - 1) 0
  let outer (from_ : Nat) : Nat :=
    ((List.range 5).map fun k => if k ≥ from_ && k < d.ndim then i k * st k else 0).sum
  match d.layout with
  | 0 | 1 => ⟨d.base + outer 1, i 0, none, none⟩
  | 2 =>
    let t := d.base + i 1 / 64 * st 1 + i 0 / 64 * tileBytes d.fmt + outer 2
    ⟨t, 64 * (i 1 % 64) + i 0 % 64,
      if isMx d.fmt then some (t + tileData d.fmt + 2 * (i 1 % 64) + i 0 % 64 / 32) else none, none⟩
  | _ =>
    let e := rowElems d.fmt
    let t := d.base + i 0 / e * 2048 + outer 1
    ⟨t, i 0 % e, some (t + 1920 + i 0 % e / 32), some (t + 2040)⟩

/-- The aligned words that reading an element needs. -/
def elemWords (f : Format) (q : ElemPos) : List Nat :=
  let (a, b) := codeSpan f q.base q.u
  let w (x : Nat) : Nat := x - x % 32
  w a :: ((if w b = w a then [] else [w b]) ++
    (match q.scale with | some x => [w x] | none => []) ++ (match q.header with | some x => [w x] | none => []))

/-- An image of words read once: bytes by partition address, the words delivered poisoned, whether this read found one bad,
whether a read of host memory failed (R352), and the address of a word that was refused. -/
structure Image where
  bytes : Memory := []
  held : List Nat := []
  poison : List Nat := []
  found : Bool := false
  failed : Bool := false
  refused : Option Nat := none
  deriving DecidableEq, Repr

/-- Read the words of a list that the image does not hold yet, up to one that is refused. -/
def State.readImage (s : State) (ag : Agent) (p : Nat) (im : Image) : List Nat → State × Image
  | [] => (s, im)
  | w :: ws =>
    if im.held.contains w || im.refused.isSome then s.readImage ag p im ws
    else
      let (s, r) := s.readWord ag p w
      match r with
      | none => (s, { im with refused := some w })
      | some x =>
        s.readImage ag p
          { im with bytes := im.bytes.paste w 32 x.data, held := w :: im.held,
                    poison := if x.kind = .clean then im.poison else w :: im.poison,
                    found := im.found || decide (x.kind = .found),
                    failed := im.failed || decide (x.kind = .failed) } ws

/-- Whether the header of a scaled row matches its format (R56). A header with a reserved bit set is no header of the format
(R11, Table 02-7; DEDUCED, log 148). -/
def headerOk (f : Format) (h : Nat) : Bool :=
  decide (field h 0 8 = formatCode f) && decide (field h 8 5 ≤ rowVectors f) && decide (field h 13 19 = 0)

/-- The value of an element in an image, without the tensor scale, and whether it is poisoned (R56). -/
def imageVal (im : Image) (f : Format) (q : ElemPos) : Val × Bool :=
  let v := decodeElem f (codeAt im.bytes.get f q.base q.u)
  let bad := (elemWords f q).any fun w => im.poison.contains w
  let head := match q.header with
    | some h => !headerOk f (im.bytes.num h 8)
    | none => false
  match q.scale with
  | some a => (applyScale v (im.bytes.get a).toNat, bad || head)
  | none => (v, bad || head)

/-- The value of a tensor scale: 1 for the formats that have none (R39). -/
def scaleVal1 (d : TensorDesc) : Val := if perTensor d.fmt then ofFp32 d.scale else .fin false 1 0

/-- How an access to possibly outside indices is resolved (R65). -/
inductive Resolved where
  | inside (x : List Nat)
  | zero
  /-- refused, with the address that Table 02-4 gives the element (R110) -/
  | fault (addr : Nat)
  deriving DecidableEq, Repr

/-- Why a read of elements stopped: at an access that CLAMP refuses (R65), at a word that is refused (R158, R161), each with its
address, or because the host failed to answer (R352). -/
inductive ReadStop where
  | outside (addr : Nat)
  | refused (addr : Nat)
  | failed
  deriving DecidableEq, Repr

/-- The address of the first of the accesses that CLAMP refuses (R65, R110). -/
def faultAddr (l : List Resolved) : Option Nat :=
  l.findSome? fun x => match x with
    | .fault a => some a
    | _ => none

/-- The address that Table 02-4 gives an element whose indices may lie outside the extents. -/
def elemAddr (d : TensorDesc) (x : List Int) : Nat :=
  let i (k : Nat) : Int := x.getD k 0
  let st (k : Nat) : Int := (d.strides.getD (k - 1) 0 : Nat)
  let outer (from_ : Nat) : Int := ((List.range 5).map fun k => if k ≥ from_ && k < d.ndim then i k * st k else 0).sum
  let pos (u : Int) : Int := u * (elemBits d.fmt : Nat) / 8
  let a : Int := match d.layout with
    | 0 | 1 => pos (i 0) + outer 1
    | 2 => i 1 / 64 * st 1 + i 0 / 64 * (tileBytes d.fmt : Nat) + pos (64 * (i 1 % 64) + i 0 % 64) + outer 2
    | _ =>
      let e : Int := (rowElems d.fmt : Nat)
      i 0 / e * 2048 + pos (i 0 % e) + outer 1
  (((d.base : Int) + a) % 2 ^ 48).toNat

/-- A read of an element by signed indices (R65). -/
def clampRead (d : TensorDesc) (x : List Int) : Resolved :=
  let ok := (List.range d.ndim).all fun k => decide (0 ≤ x.getD k 0) && decide (x.getD k 0 < (d.ext.getD k 0 : Int))
  if ok then .inside (x.map Int.toNat)
  else match d.clamp with
    | 0 => .inside ((List.range d.ndim).map fun k => (max 0 (min (x.getD k 0) ((d.ext.getD k 0 : Int) - 1))).toNat)
    | 1 => .zero
    | _ => .fault (elemAddr d x)

/-- The words that resolved accesses need. -/
def cellWords (d : TensorDesc) (l : List Resolved) : List Nat :=
  l.flatMap fun x => match x with
    | .inside i => elemWords d.fmt (elemPos d i)
    | _ => []

/-- Read what resolved accesses to a tensor need. -/
def State.readCells (s : State) (ag : Agent) (p : Nat) (d : TensorDesc) (l : List Resolved) : State × Except ReadStop Image :=
  match faultAddr l with
  | some a => (s, .error (.outside a))
  | none =>
    let (s, im) := s.readImage ag p {} (cellWords d l).dedup
    match im.refused with
    | some a => (s, .error (.refused a))
    | none => (s, if im.failed then .error .failed else .ok im)

/-! ## Window expansion (R66 to R68) -/

/-- The parameters of one expanded axis (Table 02-9). -/
structure Win where
  k : Nat
  s : Nat
  d : Nat
  lo : Nat
  hi : Nat
  deriving DecidableEq, Repr

/-- A WIN field (R102). -/
def winOf (n : Nat) : Win := ⟨field n 0 7, field n 8 7, field n 16 7, field n 24 12, field n 36 12⟩

/-- Whether the reserved bits of a WIN field are zero. -/
def winReservedOk (n : Nat) : Bool := !nbit n 7 && !nbit n 15 && !nbit n 23 && decide (n >>> 48 = 0)

/-- The parameters within the ranges of Table 02-9. -/
def winRange (w : Win) : Bool :=
  decide (1 ≤ w.k) && decide (w.k ≤ 64) && decide (1 ≤ w.s) && decide (w.s ≤ 64) && decide (1 ≤ w.d) && decide (w.d ≤ 64)

/-- The number of windows along an axis of extent `l`; 0 where the parameters are refused (R67). -/
def winCount (w : Win) (l : Nat) : Nat :=
  if l + w.lo + w.hi < w.d * (w.k - 1) + 1 then 0 else (l + w.lo + w.hi - w.d * (w.k - 1) - 1) / w.s + 1

/-- Whether window fields are accepted for a source tensor (R66 to R68). -/
def winOk (src : TensorDesc) (axes a b win0 win1 : Nat) : Bool :=
  let l (k : Nat) : Nat := src.ext.getD k 0
  match axes with
  | 0 => decide (a = 0) && decide (b = 0) && decide (win0 = 0) && decide (win1 = 0)
  | 1 =>
    decide (a < src.ndim) && decide (b = 0) && decide (win1 = 0) && winReservedOk win0 && winRange (winOf win0) &&
    decide (winCount (winOf win0) (l a) ≥ 1) && decide (src.ndim ≤ 4)
  | 2 =>
    decide (a < src.ndim) && decide (b < src.ndim) && decide (a < b) && winReservedOk win0 && winReservedOk win1 &&
    winRange (winOf win0) && winRange (winOf win1) && decide (winCount (winOf win0) (l a) ≥ 1) &&
    decide (winCount (winOf win1) (l b) ≥ 1) && decide (src.ndim ≤ 4)
  | _ => false

/-- The extents of the expanded tensor (R68). -/
def winExtents (src : TensorDesc) (axes a b win0 win1 : Nat) : List Nat :=
  let ext := src.ext.take src.ndim
  let w0 := winOf win0
  let w1 := winOf win1
  match axes with
  | 0 => ext
  | 1 => w0.k :: winCount w0 (ext.getD a 0) :: (ext.zipIdx.filter fun e => decide (e.2 ≠ a)).map (·.1)
  | _ => (w0.k * w1.k) :: winCount w1 (ext.getD b 0) :: winCount w0 (ext.getD a 0) ::
      (ext.zipIdx.filter fun e => decide (e.2 ≠ a) && decide (e.2 ≠ b)).map (·.1)

/-- Put the indices of the unexpanded axes back in their places: `rest` feeds every axis but the expanded ones. -/
def winSpread (n : Nat) (put : Nat → Option Int) : Nat → List Int → List Int
  | 0, _ => []
  | k + 1, rest =>
    match put (n - (k + 1)) with
    | some v => v :: winSpread n put k rest
    | none => rest.headD 0 :: winSpread n put k rest.tail

/-- The source indices of an element of the expanded tensor (R67, R68). -/
def winSource (src : TensorDesc) (axes a b win0 win1 : Nat) (x : List Int) : List Int :=
  let w0 := winOf win0
  let w1 := winOf win1
  let at_ (w : Win) (o k : Int) : Int := o * (w.s : Int) + k * (w.d : Int) - (w.lo : Int)
  match axes with
  | 0 => x
  | 1 =>
    winSpread src.ndim (fun k => if k = a then some (at_ w0 (x.getD 1 0) (x.getD 0 0)) else none) src.ndim (x.drop 2)
  | _ =>
    let t := x.getD 0 0
    winSpread src.ndim
      (fun k => if k = a then some (at_ w0 (x.getD 2 0) (t / (w1.k : Int)))
                else if k = b then some (at_ w1 (x.getD 1 0) (t % (w1.k : Int))) else none)
      src.ndim (x.drop 3)

end Sys2Proof.Machine
end

