-- ==== Sys2Proof/Machine/Jobs.lean ====
section
/-! DEFINITION. What a task, a job and a chain end in: DMA chain ends and aborts (R350, R354), purged tower commands
(R154, R155), job records (R304) and job faults (R312). -/

namespace Sys2Proof.Machine

/-! ## Cores of a job -/

/-- Home cores of group `g`. -/
def homeCores (g : Nat) : List Nat := (List.range 24).map fun i => 24 * g + i

/-- Offset of the block of job `j` of partition `p`. -/
def jobBase (p j : Nat) : Nat := partBase p + 0x80 * j

/-- Whether core `c` is in the core set of a job (PJOB_CORES). -/
def State.inCoreSet (s : State) (p j c : Nat) : Bool :=
  nbit (s.reg (jobBase p j + Off.pjobCores0 + 4 * (c / 32))) (c % 32)

/-- The core set of a job in ascending order. -/
def State.coreSet (s : State) (p j : Nat) : List Nat :=
  (List.range (Config.cores s.variant)).filter fun c => s.inCoreSet p j c

/-- Whether a core holds a task of the job. -/
def State.holdsTask (s : State) (p j c : Nat) : Bool :=
  match (s.core c).task with
  | some t => decide (t.part = p) && decide (t.job = j)
  | none => false

/-- The cores that hold tasks of a job. -/
def State.taskCores (s : State) (p j : Nat) : List Nat :=
  (s.cores.filter fun e => s.holdsTask p j e.1).map (·.1)

/-- Apply a change to a core's context where it is: on the core, or saved while its job is pre-empted (R141). -/
def State.modContext (s : State) (p j c : Nat) (f : Core → Core) : State :=
  if (s.job p j).saved.any (fun x => decide (x.core = c)) then
    s.modJob p j fun b => { b with saved := b.saved.map fun x => if x.core = c then { x with ctx := f x.ctx } else x }
  else s.modCore c f

/-! ## DMA chains (R350, R354) -/

/-- The partition that owns a channel: TWR_STAT.OWNER for a tower engine, CH_OWNER.PART for a host engine (Table 10-14). -/
def State.chanPart (s : State) (e c : Nat) : Nat :=
  if e < 12 then s.owner e else s.regField (dmaBase e + Off.chOwner + 0x40 * c) 28 4

/-- A chain begins on a channel that is IDLE or HALTED (R141, R335): it waits for the engine to choose it. -/
def State.beginChain (s : State) (e c p chain : Nat) (k : Kicker) : State :=
  let ch := s.chan e c
  s.setChan e c { state := .running, status := ch.status, flags := ch.flags, part := p, kicker := k, chain := chain,
                  descHi := ch.descHi, progHi := ch.progHi, covered := ch.covered }

/-- Start a chain: work for a tower engine wakes its group (Table 09-8). -/
def State.startChain (s : State) (e c p chain : Nat) (k : Kicker) : State :=
  (if e < 12 then s.wake e else s).beginChain e c p chain k

/-- Write the completion record of the descriptor in progress, if it names one (R346, R350). -/
def State.dmaRecord (s : State) (e c : Nat) (st : Status) (late : Bool) : State :=
  let ch := s.chan e c
  match ch.desc with
  | none => s
  | some d =>
    if d.record = 0 then s
    else
      let bs := recordBytes d.tag (engineId (.dma e)) (recordFlags late ch.degraded ch.fp) st ch.prog (s.cyclesOf (.dma e))
      match s.region ch.part d.record with
      | .hostWindow _ =>
        if s.fullPort then (s.writeRun (.dma e) ch.part d.record bs [] true).1 else s.writeRecord (.dma e) ch.part d.record bs
      | _ => s.writeRecord (.dma e) ch.part d.record bs

/-- Remove the DMAK of a channel from a core's operations in flight. -/
def dropDmak (c : Nat) (l : List InFlight) : List InFlight :=
  l.filter fun x => match x.op with
    | .dmak k _ => decide (k ≠ c)
    | _ => true

/-- The table slot that a descriptor in progress loads (Table 10-3, R361). -/
def Channel.loadsSlot (c : Channel) : Option Nat :=
  match c.desc with
  | some d => if d.mode = 0 ∧ d.code = 5 then some d.slot else none
  | none => none

/-- The load of a table slot ends with the descriptor that runs it (R361). -/
def State.endLoad (s : State) (e c : Nat) : State :=
  match (s.chan e c).loadsSlot with
  | some n => s.modEngine e fun g => { g with slots := mset {} g.slots n { mget {} g.slots n with loading := false } }
  | none => s

/-- The end of a chain (R350): CH_STAT, then the DMAK flag, then the interrupt. `halt` leaves the channel HALTED. -/
def State.chainEnd (s : State) (e c : Nat) (st : Status) (flags : Nat) (halt : Bool) : State :=
  let ch := s.chan e c
  let s := (s.endLoad e c).setChan e c {
    state := if halt then .halted else .idle, status := st, flags := flags, part := ch.part,
    kicker := ch.kicker, descAddr := ch.descAddr, prog := ch.prog, descHi := ch.descHi, progHi := ch.progHi,
    covered := ch.covered }
  let s := s.modEngine e fun d => { d with busy := if d.busy = some c then none else d.busy }
  let s := s.setRegBit (dmaBase e + Off.chStat + 0x40 * c) 28 true
  match ch.kicker with
  | .dmak k fl j =>
    let s := s.modContext ch.part j k fun x =>
      if x.inflight.any (fun y => match y.op with | .dmak n _ => decide (n = c) | _ => false)
      then { (x.postFlag? fl) with inflight := dropDmak c x.inflight } else x
    if ch.lastIrq then s.signalPart ch.part (s.regField (jobBase ch.part j + Off.pjobCtl) 24 6) else s
  | .model _ => s
  | _ =>
    let v := s.regField (dmaBase e + Off.chCtl + 0x40 * c) 24 6
    if ch.lastIrq then (if ch.part < 12 then s.signalPart ch.part v else s) else s

/-- The channel accepts an abort (R354): one record for the descriptor in progress, then the chain ends. -/
def State.acceptAbort (s : State) (e c : Nat) (st : Status) : State :=
  let ch := s.chan e c
  match ch.desc with
  | none => s.chainEnd e c st 0 true
  | some _ =>
    if ch.final then
      let own : Status := if ch.checkFail then .checkFail else if ch.poisonOut then .poison else .ok
      (s.dmaRecord e c own true).chainEnd e c st (recordFlags true ch.degraded ch.fp) true
    else (s.dmaRecord e c st false).chainEnd e c st (recordFlags false ch.degraded ch.fp) true

/-- An abort reaches a channel (R354): a channel that holds the engine accepts it at its next burst boundary, a parked or
waiting one at once, an idle one ignores it. -/
def State.abortChannel (s : State) (e c : Nat) (st : Status) : State :=
  let ch := s.chan e c
  match ch.state with
  | .idle | .halted => s
  | _ =>
    if (s.engine e).busy = some c && decide (ch.state = .running) then s.setChan e c { ch with abort := some st }
    else s.acceptAbort e c st

/-- Abort the chains that a job's DMAKs started, on the engines of its core set's groups (R312). -/
def State.abortJobChannels (s : State) (p j : Nat) (st : Status) : State :=
  (List.range s.units).foldl (fun s e => (List.range 16).foldl (fun s c =>
    let ch := s.chan e c
    match ch.kicker with
    | .dmak _ _ k => if ch.part = p && k = j then s.abortChannel e c st else s
    | _ => s) s) s

/-! ## Tower commands that never start (R154, R155) -/

/-- A field of a command's parameter block. -/
def TowerCmd.fld (c : TowerCmd) (off n : Nat) : Nat := leNum ((c.params.drop off).take n)

/-- RECORD of a command (Table 04-16). -/
def TowerCmd.record (c : TowerCmd) : Nat := c.fld 8 6

/-- Whether RECORD passes step 1 of R154: aligned to 32, and neither in the remote region nor at a tile store. -/
def recordOk (a : Nat) : Bool :=
  decide (a % 32 = 0) && !(decide (0x300000000000 ≤ a) && decide (a < 0x400000000000)) && decide (a < 0x500000000000)

/-- Write a command's record, if it has one that passed the check (R202, R466). -/
def State.towerRecord (s : State) (t : Nat) (c : TowerCmd) (st : Status) (flags progress : Nat) : State :=
  let a := c.record
  if a = 0 || !recordOk a || field (c.fld 8 8) 48 16 ≠ 0 then s
  else s.writeRecord (.tower t) c.part a
    (recordBytes (c.fld 16 4) (engineId (.tower t)) flags st progress (s.tower t).fclk.toNat)

/-- The tile that a command which never ran pushes: 1 x 1, poisoned, last (R154). -/
def deadTile : RetTile := { rows := 1, cols := 1, poison := true, last := true, cells := [] }

/-- TSEQ_DONE_COUNT raised, saturating (Table 06-14). -/
def Tower.countDone (tw : Tower) : Tower := { tw with doneCount := BitVec.ofNat 32 (sat32 tw.doneCount.toNat) }

/-- A command completes at once without running (R154): its record, its poisoned tile in order, its flag. -/
def State.killCommand (s : State) (t : Nat) (c : TowerCmd) (st : Status) (drop silent : Bool) : State :=
  let s := s.towerRecord t c st 0 0
  if c.retEn && !drop then
    let r : Running := {
      cmd := c, working := false, status := st, tiles := [deadTile], unstarted := true, silent := silent }
    s.modTower t fun tw => { tw with running := tw.running ++ [r] }
  else
    let s := s.modTower t Tower.countDone
    if silent || drop then s else s.modContext c.part c.job c.core fun x => x.postFlag? c.flag

/-- End every queued, unstarted command for which `sel` holds (R155, R312). -/
def State.purgeQueue (s : State) (t : Nat) (sel : TowerCmd → Bool) (st : Status) (drop silent : Bool) : State :=
  let q := (s.tower t).queue
  let s := s.modTower t fun tw => { tw with queue := q.filter fun c => !sel c }
  (q.filter sel).foldl (fun s c => s.killCommand t c st drop silent) s

/-! ## Result tiles (R97, R199, R201) -/

/-- Whether a command is the oldest of those that name its queue end (R97). -/
def Tower.returnsNext (tw : Tower) (c : TowerCmd) : Bool :=
  let earlier (x : TowerCmd) : Bool :=
    x.retEn && decide (x.core = c.core) && decide (x.qret = c.qret) && decide (x.order < c.order)
  !(tw.queue.any earlier || tw.running.any fun r => (r.working || decide (r.tiles ≠ [])) && earlier r.cmd)

/-! ## Atomics (R138, R139) -/

/-- A `n`-byte number as a two's complement integer. -/
def signedOf (n v : Nat) : Int := if v < 2 ^ (8 * n - 1) then v else (v : Int) - (2 ^ (8 * n) : Nat)

/-- The new value of a location under an atomic (Table 04-7). -/
def atomicNew (a : AtomArgs) (old : Nat) : Nat :=
  match a.aop with
  | 0 => (old + a.value) % 2 ^ (8 * a.size)
  | 1 => if signedOf a.size old < signedOf a.size a.value then a.value else old
  | 2 => if signedOf a.size a.value < signedOf a.size old then a.value else old
  | 3 => a.value
  | _ => if old = a.value then a.new else old

/-- Perform an atomic at a partition address: the old value, or why it failed (R137 to R139). The stored word of a
failing read is left as it is (R168). -/
def State.atomicAt (s : State) (ag : Agent) (p a : Nat) (x : AtomArgs) : State × Except Status Nat :=
  if !s.reachable p a x.size true then
    let (s, _) := s.readWord ag p (a - a % 32)
    (s, .error .bounds)
  else
    let s := if s.isHashed p a then s.dropAll p (lineAddr a) else s
    let unit : Agent := match ag with
      | .core _ => .host
      | g => g
    let (s, r) := s.readWord unit p (a - a % 32)
    match r with
    | none => (s, .error .bounds)
    | some w => match w.kind with
      | .found | .failed => (s, .error .uncorrected)
      | .stored => (s, .error .poison)
      | .clean =>
        let old := w.data.num (a % 32) x.size
        let (s, ok) := s.writeWord unit p a (leBytes x.size (atomicNew x old)) false false
        (s, if ok then .ok old else .error .bounds)

/-! ## The order of a core's accesses (R267, R268) -/

/-- The bytes of a local access in flight that has not been performed: their address and number. -/
def InFlight.due (x : InFlight) : Option (Nat × Nat) :=
  match x.op, x.phase with
  | .fld n _ a none, .started | .fst n a _ _ none, .started => some (a, n)
  | .atom k _ _ a none, .started => some (a, k.size)
  | _, _ => none

/-- Whether an access in flight writes. -/
def InFlight.writes (x : InFlight) : Bool :=
  match x.op with
  | .fld .. => false
  | _ => true

/-- The location of an address (R265): its word of a tower's memory, or of scratch by its address. -/
def State.location (s : State) (p a : Nat) : Nat × Option Place :=
  match s.placeOf p a with
  | some pl => (0, some { pl with byte := 0 })
  | none => (a / 32, none)

/-- Whether a local access in flight shares a location with `n` bytes from `a`. -/
def State.meets (s : State) (p a n : Nat) (x : InFlight) : Bool :=
  match x.due with
  | some (b, _) => decide (0 < n) && (List.range ((a + n - 1) / 32 - a / 32 + 1)).any fun i =>
      decide (s.location p (32 * (a / 32 + i)) = s.location p b)
  | none => false

/-- Whether two stretches of bytes have a 32-byte word in common. -/
def sharesWord (a n b m : Nat) : Bool := decide (a / 32 ≤ (b + m - 1) / 32) && decide (b / 32 ≤ (a + n - 1) / 32)

/-- Whether a tile that the core pushed to a CUPOLA_OUT queue before `stamp`, and that is not yet written, goes to one of the words
of `n` bytes from `a`. -/
def Core.tileBefore (c : Core) (stamp a n : Nat) : Bool :=
  c.queues.any fun e => e.2.stamps.zipIdx.any fun x => decide (x.1 < stamp) &&
    sharesWord (e.2.flowBase + (e.2.flowWritten + x.2) * e.2.flowStride) (tileBytes e.2.fmt) a n

/-- Whether a local access in flight must wait for a tile that the core pushed before it. -/
def Core.waitsTile (c : Core) (x : InFlight) : Bool :=
  match x.due with
  | some (a, n) => c.tileBefore x.stamp a n
  | none => false

/-- A local access in flight is performed: the read, the atomic, or the write and then its counter (R137, R277). -/
def State.performOp (s : State) (p c : Nat) (x : InFlight) : State × InFlight :=
  match x.op with
  | .fld n _ a _ =>
    let (s, r) := s.readRun (.core c) p a n
    (s, { x with phase :=
      if r.refused then .failed .bounds
      else if r.found then .failed .uncorrected
      else if r.poison ≠ [] then .failed .poison
      else .value (r.data.num 0 n) })
  | .fst n a v cnt _ =>
    let (s, ok) := s.writeRun (.core c) p a (leBytes n v) [] false
    (match cnt with
     | some k => if ok then s.addCounter p k n else s
     | none => s, { x with phase := .finished })
  | .atom k _ _ a _ =>
    let (s, r) := s.atomicAt (.core c) p a k
    (s, { x with phase := match r with
      | .ok v => .value v
      | .error st => .failed st })
  | _ => (s, x)

/-- Perform the operations of a list that `sel` selects, in program order. A remote access has gone out at issue. -/
def State.performOps (s : State) (p c : Nat) (sel : InFlight → Bool) : List InFlight → State × List InFlight
  | [] => (s, [])
  | x :: r =>
    let (s, y) := if x.due.isSome && sel x then s.performOp p c x else (s, x)
    let (s, r) := s.performOps p c sel r
    (s, y :: r)

/-- Perform the local accesses that `sel` selects among the first `n` operations in flight on a core. -/
def State.performSel (s : State) (p c n : Nat) (sel : InFlight → Bool) : State :=
  let l := (s.core c).inflight
  let (s, done) := s.performOps p c sel (l.take n)
  s.modCore c fun x => { x with inflight := done ++ l.drop n }

/-- Perform the local accesses that `sel` selects among the first `n` operations in flight on a core; none where one of them waits
for a tile that the core pushed before it. -/
def State.settleBy (s : State) (p c n : Nat) (sel : InFlight → Bool) : Option State :=
  let l := ((s.core c).inflight.take n).filter fun x => x.due.isSome && sel x
  if l = [] then some s else if l.any (s.core c).waitsTile then none else some (s.performSel p c n sel)

/-- Perform the local accesses to the locations of `len` bytes from `a` among the first `n` operations in flight on a core: a later
access of the core to a location comes after them (R267, R268). -/
def State.settle (s : State) (p c n a len : Nat) : Option State := s.settleBy p c n (s.meets p a len)

/-! ## Tasks and jobs -/

/-- A core after its task has gone: its memories, CSRs and accumulators stay, its queues, layer sequencer and operations
are gone. -/
def Core.idle (c : Core) : Core :=
  { c with queues := [], inflight := [], stall := none, ending := false, task := none, seq := {}, live := [],
           trapMode := false, halted := false, loopHead := none }

/-- Stop the task on a core (R312, step 1). -/
def State.stopTask (s : State) (c : Nat) : State :=
  match (s.core c).task with
  | none => s
  | some t =>
    let s := s.performSel t.part c (s.core c).inflight.length fun x => x.writes
    (s.dropWaits t.part c).modCore c Core.idle

/-- Purge the queued commands of a job's tasks, and mark its running ones to drop their tiles (R312, step 2). -/
def State.purgeJob (s : State) (p j : Nat) (st : Status) (silent : Bool) : State :=
  (List.range s.units).foldl (fun s t =>
    let s := s.purgeQueue t (fun c => decide (c.part = p) && decide (c.job = j)) st true silent
    s.modTower t fun tw => { tw with running := tw.running.map fun r =>
      if r.cmd.part = p && r.cmd.job = j then { r with dropTiles := true, tiles := [], silent := true } else r }) s

/-- Write a command's completion record (R304). -/
def State.jobRecord (s : State) (p : Nat) (record tag : Nat) (st : Status) (core : Nat) (late : Bool)
    (progress : Nat) : State :=
  if record = 0 then s
  else s.writeRecord (.dispatcher p) p record
    (recordBytes tag (engineId (.core core)) (recordFlags late false {}) st progress (s.core core).cycles.toNat)

/-- The address of a model residency entry (R315). -/
def State.modelEntry (s : State) (p m : Nat) : Nat := s.pregPair p Off.pmodelBaseLo Off.pmodelBaseHi + 64 * m

/-- Lower REFS of a model when a command that names it completes (R316). -/
def State.lowerRefs (s : State) (p m : Nat) : State :=
  let a := s.modelEntry p m
  let (s, r) := s.readRun (.dispatcher p) p (a + 2) 2
  if r.refused then s else (s.writeRun (.dispatcher p) p (a + 2) (leBytes 2 (r.data.num 0 2 - 1)) [] false).1

/-- The command in progress of a job ends: REFS falls, its record is written and the vector signalled (R304, R316). -/
def State.endCommand (s : State) (p j : Nat) (st : Status) (late : Bool) : State :=
  match (s.job p j).cmd with
  | none => s
  | some c =>
    let s := if c.modelUp then s.lowerRefs p c.model else s
    let s := s.jobRecord p c.record c.tag st c.lastCore late (c.ended + 2 ^ 32 * c.trapCause.toNat)
    let s := s.modJob p j fun b => { b with cmd := none }
    if c.irq then s.signalPart p (s.regField (jobBase p j + Off.pjobCtl) 24 6) else s

/-- Whether a job has entries pending in its ring (R301). -/
def State.pendingEntries (s : State) (p j : Nat) : Nat :=
  (s.reg (jobBase p j + Off.pringTail) + 2 ^ 32 - s.reg (jobBase p j + Off.pringHead)) % 2 ^ 32

/-- Stop the tasks, queued tower commands and channels of a job (R312, steps 1 to 3). -/
def State.stopJob (s : State) (p j : Nat) (st : Status) : State :=
  let s := (s.taskCores p j).foldl (fun s c => s.stopTask c) s
  let s := s.purgeJob p j st false
  s.abortJobChannels p j st

/-- The job lets go of everything but its configuration and account: what a fault and a kill have in common (R312, R313). -/
def State.clearJob (s : State) (p j : Nat) (st : JobState) : State :=
  (s.modJob p j fun b => { b with state := st, saved := [], preempting := false, donated := false, donor := none,
                                  held := false, overrun := 0 }).releaseLocks p j

/-- A task faults its job (R312). In the drain window of a kill the record carries the fault's status, and the job is
DISABLED (R313). -/
def State.faultJob (s : State) (p j core : Nat) (st : Status) (cause : Word) : State :=
  let killing := decide ((s.job p j).state = .killing)
  let s := s.modJob p j fun b =>
    { b with cmd := b.cmd.map fun c => { c with lastCore := core, trapCause := cause } }
  let s := s.stopJob p j .aborted
  let s := s.endCommand p j st false
  if killing then s.clearJob p j .disabled
  else (s.modJob p j fun b => { b with faultStatus := st }).clearJob p j .faulted

/-- The task on a core faults its job. -/
def State.faultTask (s : State) (core : Nat) (st : Status) (cause : Word) : State :=
  match (s.core core).task with
  | some t => s.faultJob t.part t.job core st cause
  | none => s

end Sys2Proof.Machine
end

