-- ==== Sys2Proof/Machine/Lcb.lean ====
section
/-! DEFINITION. The fields of the layer configuration block (Table 03-13) and the tower results that a slice has gathered
(R107). -/

namespace Sys2Proof.Machine

/-! ## The layer configuration block (Table 03-13) -/

/-- A 32-bit word of the working LCB. -/
def LayerSeq.w (q : LayerSeq) (i : Nat) : Nat := (mget 0 q.lcb i).toNat

/-- A 64-bit field of the working LCB, from its lower word. -/
def LayerSeq.d (q : LayerSeq) (i : Nat) : Nat := q.w i + 2 ^ 32 * q.w (i + 1)

def LayerSeq.kind (q : LayerSeq) : Nat := field (q.w 0) 16 8
def LayerSeq.ovf (q : LayerSeq) : Bool := nbit (q.w 1) 10
def LayerSeq.roundCode (q : LayerSeq) : Nat := field (q.w 1) 8 2
def LayerSeq.round (q : LayerSeq) : Rounding := (roundingOf q.roundCode).getD .rne
def LayerSeq.doneFlag (q : LayerSeq) : Nat := field (q.w 1) 4 3
def LayerSeq.energyClass (q : LayerSeq) : Nat := field (q.w 1) 0 4
def LayerSeq.splitAxis (q : LayerSeq) : Nat := field (q.w 2) 4 2
def LayerSeq.loopOrder (q : LayerSeq) : Nat := field (q.w 2) 0 3
def LayerSeq.splitCount (q : LayerSeq) : Nat := field (q.w 3) 0 16
def LayerSeq.m (q : LayerSeq) : Nat := q.w 4
def LayerSeq.n (q : LayerSeq) : Nat := q.w 5
def LayerSeq.k (q : LayerSeq) : Nat := q.w 6
def LayerSeq.batch (q : LayerSeq) : Nat := q.w 7
def LayerSeq.tileK (q : LayerSeq) : Nat := field (q.w 8) 16 6 + 1
def LayerSeq.tileN (q : LayerSeq) : Nat := field (q.w 8) 8 6 + 1
def LayerSeq.tileM (q : LayerSeq) : Nat := field (q.w 8) 0 6 + 1
def LayerSeq.towerClass (q : LayerSeq) : Nat := field (q.w 10) 4 4
def LayerSeq.towerMode (q : LayerSeq) : Nat := field (q.w 10) 0 2
def LayerSeq.towerN (q : LayerSeq) : Nat := q.w 11
def LayerSeq.towerBound (q : LayerSeq) : Nat := q.w 12
def LayerSeq.epiConst (q : LayerSeq) : Val := ofFp32 (BitVec.ofNat 32 (q.w 13))
def LayerSeq.winAxes (q : LayerSeq) : Nat := field (q.w 40) 0 2
def LayerSeq.axisA (q : LayerSeq) : Nat := field (q.w 40) 2 3
def LayerSeq.axisB (q : LayerSeq) : Nat := field (q.w 40) 5 3

/-- Whether the layer multiplies (GEMM or CONV). -/
def LayerSeq.multiplies (q : LayerSeq) : Bool := decide (q.kind = 1) || decide (q.kind = 2)
def LayerSeq.accBanks (q : LayerSeq) : Nat := field (q.w 2) 6 2 + 1

/-! ## The tower's results (R107, step 5) -/

/-- The tower's result at a place. -/
def mergedAt (r : SliceRun) (b m n : Nat) : Option (Word × Bool) :=
  (r.merged.find? fun e => decide (e.1 = b) && decide (e.2.1 = m) && decide (e.2.2.1 = n)).map fun e => e.2.2.2

/-- Whether the tower's results that an output tile needs have all returned. -/
def LayerSeq.merged (q : LayerSeq) (r : SliceRun) (b m n : Nat) : Bool :=
  let mEnd := if q.splitAxis = 0 then r.hi else q.m
  let nEnd := if q.splitAxis = 1 then r.hi else q.n
  let lo := max n (q.n - q.towerN)
  let hi := min (n + q.tileN) nEnd
  decide (q.towerMode = 0) || (List.range (min q.tileM (mEnd - m))).all fun i => (List.range (hi - lo)).all fun j =>
    (mergedAt r b (m + i) (lo + j)).isSome

/-- The queue end that a running slice bound for the operand of a QSPEC's word. -/
def SliceRun.endOf (r : SliceRun) (word : Nat) : Option Nat := (r.ends.find? fun e => decide (e.1 = word)).map (·.2)

/-- The tower-return queue that a running slice waits on: it holds no tile that the next output tile needs (R100). -/
def LayerSeq.waitsOn (q : LayerSeq) : Option Nat :=
  match q.run with
  | some r => match r.tiles with
    | (b, m, n) :: _ => if q.merged r b m n then none else r.endOf 35
    | [] => if r.issued = [] then none else r.endOf 35
  | none => none

end Sys2Proof.Machine
end

