-- ==== Sys2Proof/Machine/Operands.lean ====
section
/-! DEFINITION. Operand forms of a core: scalar registers and pairs (R76, R118), tiles at queue ends (R90 to R99), the
tile store, the CSRs (Table 03-2), discovery (R116), instruction fetch (R79) and taking a trap (R110 to R112). -/

namespace Sys2Proof.Machine

/-! ## Scalar registers (R76, R118) -/

/-- A scalar register; s0 reads as zero. -/
def Core.rd (c : Core) (r : Nat) : Word := if r = 0 then 0 else mget 0 c.sregs r

/-- A scalar register written; a write to s0 is ignored. -/
def Core.wr (c : Core) (r : Nat) (v : Word) : Core := if r = 0 then c else { c with sregs := mset 0 c.sregs r v }

/-- A value pair (R118). -/
def Core.pair (c : Core) (r : Nat) : Nat := (c.rd r).toNat + 2 ^ 32 * (c.rd (r + 1)).toNat

/-- A value pair written. -/
def Core.wrPair (c : Core) (r v : Nat) : Core := (c.wr r (BitVec.ofNat 32 v)).wr (r + 1) (BitVec.ofNat 32 (v / 2 ^ 32))

/-- An address pair; none where bits [31:16] of the odd register are not zero (R76). -/
def Core.addr (c : Core) (r : Nat) : Option Nat :=
  if (c.rd (r + 1)).toNat < 65536 then some ((c.rd r).toNat + 2 ^ 32 * (c.rd (r + 1)).toNat) else none

/-! ## Queue ends -/

/-- A queue end. -/
def Core.queue (c : Core) (q : Nat) : Queue := mget {} c.queues q

/-- A queue end set. -/
def Core.setQueue (c : Core) (q : Nat) (x : Queue) : Core := { c with queues := mset {} c.queues q x }

/-- Whether a queue end is bound. -/
def Queue.bound (q : Queue) : Bool := decide (q.kind ≠ .unbound)

/-- Tiles held. -/
def Queue.count (q : Queue) : Nat := q.tags.length

/-- Bytes of the queue's region of the tile store (R90). -/
def Queue.bytes (q : Queue) : Nat := q.depth * tileBytes q.fmt

/-- Where the `i`-th tile from the head lies in the tile store. -/
def Queue.slotAt (q : Queue) (i : Nat) : Nat := q.base + (q.head + i) % q.depth * tileBytes q.fmt

/-- Whether a push has a free slot. -/
def Queue.room (q : Queue) : Bool := decide (q.count < q.depth)

/-- The kinds the core pushes to (Table 03-12). -/
def BindKind.corePush : BindKind → Bool
  | .local | .dmaOut | .neighbourOut | .cupolaOut => true
  | _ => false

/-- The kinds the core pops from (Table 03-12). -/
def BindKind.corePop : BindKind → Bool
  | .local | .towerReturn | .dmaIn | .neighbourIn | .cupolaIn => true
  | _ => false

/-- The code of a binding kind (Table 03-12). -/
def bindCode : BindKind → Nat
  | .local => 0 | .towerReturn => 1 | .dmaIn => 2 | .dmaOut => 3 | .neighbourOut => 4 | .neighbourIn => 5
  | .cupolaIn => 6 | .cupolaOut => 7 | .unbound => 15

/-- The kind of a code; the reserved codes have none. -/
def bindOf : Nat → Option BindKind
  | 0 => some .local | 1 => some .towerReturn | 2 => some .dmaIn | 3 => some .dmaOut | 4 => some .neighbourOut
  | 5 => some .neighbourIn | 6 => some .cupolaIn | 7 => some .cupolaOut | 15 => some .unbound | _ => none

/-- A tile taken from a queue end or about to be pushed: its bytes and its tag. -/
structure Tile where
  fmt : Format
  data : Memory
  tag : Word
  deriving DecidableEq, Repr

/-- The tile at the head of a queue end. -/
def Core.headTile (c : Core) (q : Nat) : Tile :=
  let x := c.queue q
  ⟨x.fmt, c.tiles.slice (x.slotAt 0) (tileBytes x.fmt), x.tags.headD 0⟩

/-- The head tile popped: its slot is free (R92). -/
def Core.pop (c : Core) (q : Nat) : Core :=
  let x := c.queue q
  c.setQueue q { x with head := (x.head + 1) % x.depth, tags := x.tags.tail, stamps := x.stamps.tail }

/-- A tile pushed at the tail (R92). -/
def Core.push (c : Core) (q : Nat) (data : Memory) (tag : Word) : Core :=
  let x := c.queue q
  let out : Bool := decide (x.kind = .cupolaOut)
  let c := { c with tiles := c.tiles.paste (x.slotAt x.count) (tileBytes x.fmt) data, pushes := c.pushes + b2n out }
  c.setQueue q { x with tags := x.tags ++ [tag], stamps := if out then x.stamps ++ [c.pushes] else x.stamps,
                        flowDone := x.flowDone + b2n out }

/-- An accumulator bank of a core. -/
def Core.bank (c : Core) (n : Nat) : AccBank := mget {} c.acc n

/-- An accumulator bank set. -/
def Core.setBank (c : Core) (n : Nat) (b : AccBank) : Core := { c with acc := mset {} c.acc n b }

/-- Value of element (r, c) of a tile, zero outside its shape (R91). -/
def Tile.val (t : Tile) (r c : Nat) : Val :=
  if r < tagRows t.tag && c < tagCols t.tag then tileVal t.fmt t.data r c else .fin false 0 0

/-! ## The tile store -/

/-- Bytes of the tile store. -/
def tileStoreBytes : Nat := 2097152

/-- Whether the ranges [a, a + n) and [b, b + m) share a byte. -/
def overlap (a n b m : Nat) : Bool := decide (a < b + m) && decide (b < a + n) && decide (0 < n) && decide (0 < m)

/-- Whether a range of the tile store overlaps the region of a bound queue other than `skip`. -/
def Core.hitsQueue (c : Core) (a n : Nat) (skip : Option Nat) : Bool :=
  c.queues.any fun e => e.2.bound && decide (some e.1 ≠ skip) && overlap a n e.2.base e.2.bytes

/-- Whether a range overlaps a live range (R129). -/
def Core.hitsLive (c : Core) (a n : Nat) : Bool := c.live.any fun e => overlap a n e.1 e.2

/-- The lowest free place of `n` bytes for automatic placement (R129): 0, or the end of something that is in the way. -/
def Core.place (c : Core) (n : Nat) (skip : Option Nat) : Option Nat :=
  let ends := 0 :: ((c.queues.filter fun e => e.2.bound && decide (some e.1 ≠ skip)).map fun e => e.2.base + e.2.bytes) ++
    c.live.map fun e => e.1 + e.2
  let cand := (ends.map fun a => ceilDiv a 32 * 32).filter fun a =>
    decide (a + n ≤ tileStoreBytes) && !c.hitsQueue a n skip && !c.hitsLive a n
  cand.foldl (fun m a => match m with
    | none => some a
    | some b => some (min a b)) none

/-- A tile read from the tile store with elements outside the shape pushed as zero (R131, TPUSH). -/
def shapeTile (f : Format) (t : Memory) (rows cols : Nat) : Memory :=
  let row (r : Nat) : List Byte :=
    if r < rows then
      leBytes (8 * elemBits f) (packCodes (elemBits f)
        ((List.range 64).map fun c => if c < cols then codeAt t.get f 0 (64 * r + c) else 0))
    else List.replicate (8 * elemBits f) 0
  let scales (r : Nat) : List Byte :=
    (List.range 2).map fun b => if r < rows && 32 * b < cols then t.get (tileData f + 2 * r + b) else 0
  Memory.ofBytes 0 ((List.range 64).flatMap row ++ if isMx f then (List.range 64).flatMap scales else [])

/-! ## CSRs (Table 03-2) -/

/-- Whether a long word or the layer sequencer is stalled on a queue end (Table 03-7). -/
def Core.stalledOn (c : Core) (q : Nat) : Bool :=
  (match c.stall with
    | some (.queue l _ _) => l.contains q
    | _ => false) || decide (c.seq.waitsOn = some q)

/-- QSTATn (Table 03-7). -/
def Core.qstat (c : Core) (q : Nat) : Word :=
  let x := c.queue q
  if !x.bound then BitVec.ofNat 32 (0xF0000000 + b2n (c.stalledOn q))
  else BitVec.ofNat 32 (bindCode x.kind * 2 ^ 28 + x.count % 128 * 2 ^ 21 + (x.depth - 1) % 64 * 2 ^ 15 +
    formatCode x.fmt * 2 ^ 7 + b2n (c.stalledOn q))

/-- LSTAT (Table 03-5). -/
def Core.lstat (c : Core) : Word :=
  BitVec.ofNat 32 (b2n c.seq.run.isSome * 2 ^ 31 + b2n c.seq.loaded * 2 ^ 30 + c.seq.failWord % 128 * 2 ^ 16 +
    statusCode c.seq.status)

/-- ACLK in Hz at a ratio (Table 01-5). -/
def aclkHz (ratio : Nat) : Nat := if ratio = 0 then 2700000000 else if ratio = 1 then 1800000000 else 1350000000

/-- The neighbour Nj of a core: none where there is none, or where it is retired (R98, R433). -/
def State.neighbour (s : State) (c j : Nat) : Option Nat :=
  match Config.neighbour s.variant c j with
  | some n => if s.coreExists n && decide (s.spireOf n = s.spireOf c) && !(s.core n).retired then some n else none
  | none => none

/-- The value of a discovery key as a core reads it (Table 03-19). -/
def State.discovery (s : State) (c key : Nat) : Nat :=
  match key with
  | 0x00 => 0x00010000
  | 0x01 => tileStoreBytes
  | 0x02 => 32
  | 0x03 => 64
  | 0x04 => 64
  | 0x05 => 4
  | 0x06 => 128
  | 0x07 => 4096
  | 0x08 => 65536
  | 0x09 => 32768
  | 0x0A => 8
  | 0x0B => aclkHz (s.group (Config.groupOfCore c)).ratio
  | 0x0C | 0x0D | 0x0E | 0x0F => (s.neighbour c (key - 0x0C)).getD 0xFFFF
  | 0x10 => c
  | 0x11 => Config.groupOfCore c
  | 0x12 => 64
  | 0x13 => 4
  | 0x14 => 4096
  | 0x15 => 0x00007FFE
  | 0x16 => 2700000
  | _ => 0

/-- Whether a CSR index is one of Table 03-2 (R80). -/
def csrExists (i : Nat) : Bool :=
  [0, 1, 2, 3, 8, 9, 10, 11, 12, 0x10, 0x11, 0x20, 0x21].contains i || (decide (0x40 ≤ i) && decide (i ≤ 0x5F))

/-- A CSR read (Table 03-2). -/
def State.csr (s : State) (c i : Nat) : Word :=
  let k := s.core c
  match i with
  | 0 => BitVec.ofNat 32 (flagBits k.fpstat)
  | 1 => k.cflags
  | 2 => k.lstat
  | 3 => k.ctimeout
  | 8 => k.trapVec
  | 9 => k.trapCause
  | 10 => k.trapPc
  | 11 => BitVec.ofNat 32 k.trapAddr.toNat
  | 12 => BitVec.ofNat 32 (k.trapAddr.toNat / 2 ^ 32)
  | 0x10 => BitVec.ofNat 32 k.cycles.toNat
  | 0x11 => k.cycleHi
  | 0x20 => k.discSel
  | 0x21 => BitVec.ofNat 32 (s.discovery c k.discSel.toNat)
  | n => k.qstat (n - 0x40)

/-- What a read of a CSR does: CYCLE_LO latches the high half (Table 03-2). -/
def Core.csrLatch (c : Core) (i : Nat) : Core :=
  if i = 0x10 then { c with cycleHi := BitVec.ofNat 32 (c.cycles.toNat / 2 ^ 32) } else c

/-- CSRW: each field under its access code (R126, Table 00-3). -/
def Core.csrWrite (c : Core) (i : Nat) (v : Word) : Core :=
  match i with
  | 0 =>
    let f := flagsOfBits v.toNat
    { c with fpstat := { invalid := c.fpstat.invalid && !f.invalid, overflow := c.fpstat.overflow && !f.overflow,
                         underflow := c.fpstat.underflow && !f.underflow, clamped := c.fpstat.clamped && !f.clamped } }
  | 1 => { c with flags := v.setWidth 8, lost := c.lost &&& ~~~((v >>> 8).setWidth 8) }
  | 3 => { c with ctimeout := v }
  | 8 => { c with trapVec := v }
  | 0x20 => { c with discSel := v }
  | _ => c

/-- CSRS: the RW bits set where the operand is 1 (R126). -/
def Core.csrSet (c : Core) (i : Nat) (v : Word) : Core :=
  match i with
  | 1 => { c with flags := c.flags ||| v.setWidth 8 }
  | 3 => { c with ctimeout := c.ctimeout ||| v }
  | 8 => { c with trapVec := c.trapVec ||| v }
  | 0x20 => { c with discSel := c.discSel ||| v }
  | _ => c

/-- CSRC: the RW bits cleared where the operand is 1 (R126). -/
def Core.csrClear (c : Core) (i : Nat) (v : Word) : Core :=
  match i with
  | 1 => { c with flags := c.flags &&& ~~~(v.setWidth 8) }
  | 3 => { c with ctimeout := c.ctimeout &&& ~~~v }
  | 8 => { c with trapVec := c.trapVec &&& ~~~v }
  | 0x20 => { c with discSel := c.discSel &&& ~~~v }
  | _ => c

/-! ## Traps (R110 to R112) -/

/-- The traps of Table 03-17. -/
inductive Trap where
  | illegalEncoding | queueTimeout | boundsViolation | fetchUe | timeBound | alignment
  deriving DecidableEq, Repr

/-- CAUSE (Table 03-17). -/
def trapCode : Trap → Nat
  | .illegalEncoding => 1 | .queueTimeout => 2 | .boundsViolation => 3 | .fetchUe => 4 | .timeBound => 5 | .alignment => 6

/-- The job status of a trap that is not handled (Table 03-17). -/
def trapStatus : Trap → Status
  | .illegalEncoding => .refused | .queueTimeout => .overrun | .boundsViolation => .bounds | .fetchUe => .uncorrected
  | .timeBound => .overrun | .alignment => .refused

/-- Whether a handler may run (Table 03-17). -/
def trapHandled : Trap → Bool
  | .fetchUe | .timeBound => false
  | _ => true

/-- TRAP_CAUSE (Table 03-6). -/
def causeWord (t : Trap) (source slots : Nat) : Word :=
  BitVec.ofNat 32 (source % 8 * 2 ^ 28 + slots % 64 * 2 ^ 8 + trapCode t)

/-- Take a trap on a core: TRAP_CAUSE, TRAP_PC and TRAP_ADDR are recorded and the core branches to the trap vector in
trap mode; in trap mode, without a vector, or for a trap that no handler takes, the job faults (R110, R112). `len` is the
length in parcels of the trapping long word. -/
def State.takeTrap (s : State) (c : Nat) (t : Trap) (source slots len : Nat) (addr : Option Nat) : State :=
  let k := s.core c
  let w := causeWord t source slots
  let s := s.setCore c { k with
    trapCause := w, trapPc := k.pc, trapLen := len, stall := none,
    trapAddr := match addr with
      | some a => BitVec.ofNat 48 a
      | none => k.trapAddr }
  if k.trapMode || k.trapVec = 0 || !trapHandled t then s.faultTask c (trapStatus t) w
  else s.modCore c fun x => { x with trapMode := true, pc := x.trapVec + BitVec.ofNat 32 (32 * trapCode t) }

/-! ## Clocks -/

/-- Whether the ACLK of a core runs: its group is in G0, not braked or stopped, and its job is not held (R298, R323). -/
def State.aclkRuns (s : State) (c : Nat) : Bool :=
  decide ((s.group (Config.groupOfCore c)).pstate = .g0) && !(s.group (Config.groupOfCore c)).outOfService &&
  !s.regBit (govBase + Off.govStat) 30 && !s.regBit Off.gstat 30 &&
  match (s.core c).task with
  | some t => !(s.job t.part t.job).held
  | none => true

/-! ## Instruction fetch (R78, R79) -/

/-- The length of a long word in parcels (R82). -/
def longWordLen (lw : LongWord) : Nat :=
  1 + 2 * (b2n lw.s.isSome + b2n lw.q.isSome + b2n lw.d.isSome) + 4 * (b2n lw.v.isSome + b2n lw.m.isSome + b2n lw.t.isSome)

/-- What fetching a long word finds. -/
inductive Fetch where
  | ok
  | unmapped (a : Nat)
  | uncorrectable (a : Nat)
  deriving DecidableEq, Repr

/-- Lines of the instruction cache (R73). -/
def icacheLines : Nat := 256

/-- Whether a line of program text is one that LOOP_HEAD keeps resident: the 1 KiB after the hinting long word (R83). -/
def keptLine (loop : Option (Nat × Nat)) (n : Nat) : Bool :=
  match loop with
  | some (_, a) => decide (a / 128 ≤ n) && decide (n ≤ (a + 1023) / 128)
  | none => false

/-- A line put into the instruction cache; which of the lines that LOOP_HEAD does not keep makes room is free (R79, R83). -/
def fillLine (s : State) (loop : Option (Nat × Nat)) (l : List (Nat × LineState)) (n : Nat) (x : LineState) :
    List (Nat × LineState) :=
  let out := l.filter fun e => !keptLine loop e.1
  let l := if l.length < icacheLines then l
    else match out[s.draw 4 0 % out.length]? with
      | some v => l.filter fun e => decide (e.1 ≠ v.1)
      | none => l
  l ++ [(n, x)]

/-- The lines from number `n` on, `k` of them, fetched into the cache of core `c`. -/
def State.fetchLines (s : State) (c p : Nat) : Nat → Nat → State × Fetch
  | 0, _ => (s, .ok)
  | k + 1, n =>
    let held := (s.core c).icache.find? fun e => decide (e.1 = n)
    let (s, st) := match held with
      | some e => (s, some e.2)
      | none =>
        let (s, r) := s.readRun (.core c) p (128 * n) 128
        if r.refused then (s, none)
        else
          let x : LineState := if r.poison = [] then .good else .bad
          (s.modCore c fun q => { q with icache := fillLine s q.loopHead q.icache n x }, some x)
    match st with
    | none => (s, .unmapped (128 * n))
    | some .bad => (s, .uncorrectable (128 * n))
    | some .good => s.fetchLines c p k (n + 1)

/-- Fetch the long word of `len` parcels at the core's PC. -/
def State.fetch (s : State) (c len : Nat) : State × Fetch :=
  match (s.core c).task with
  | none => (s, .ok)
  | some t =>
    let a := t.codeBase + 2 * (s.core c).pc.toNat
    s.fetchLines c t.part ((a + 2 * len - 1) / 128 - a / 128 + 1) (a / 128)

end Sys2Proof.Machine
end

