-- ==== Sys2Proof/Machine/Purse.lean ====
section
/-! DEFINITION. Toll prices, purses and reservations (R196, R197, R320 to R324). Purses are kept in quarter tolls. -/

namespace Sys2Proof.Machine

/-- Quarter tolls per core-epoch at ratio 2 (Table 09-5). -/
def corePrice (cls : Nat) : Nat := [2, 4, 6, 12, 16, 20, 24, 28, 32, 38, 44, 52, 74, 80, 88, 96].getD cls 0

/-- Quarter tolls per tower work unit (Table 09-5). -/
def towerPrice (cls : Nat) : Nat := [1, 1, 1, 2, 2, 2, 3, 3, 4, 5, 6, 7, 8, 10, 12, 16].getD cls 0

/-- Tolls per MiB that DMA moves (Table 09-5); as many quarter tolls buy 256 KiB (R322). -/
def dmaPrice (cls : Nat) : Nat := [2, 4, 6, 8, 12, 14, 16, 18, 20, 22, 24, 26, 28, 32, 40, 48].getD cls 0

/-- The price of a core-epoch at an ACLK ratio (R321). -/
def coreCharge (ratio cls : Nat) : Nat :=
  if ratio = 0 then corePrice cls else if ratio = 1 then ceilDiv (corePrice cls) 2 else ceilDiv (3 * corePrice cls) 8

/-- Take quarter tolls from a group's purse. -/
def State.charge (s : State) (g n : Nat) : State := s.modGroup g fun x => { x with purse := x.purse - n }

/-- Whether a group's purse covers an amount. -/
def State.covers (s : State) (g n : Nat) : Bool := decide ((n : Int) ≤ (s.group g).purse)

/-- AGE_LIMIT of a partition (Table 09-11). -/
def State.ageLimit (s : State) (p : Nat) : Nat :=
  let n := s.regField (partBase p + Off.pdispCtl) 24 4
  if n = 0 then 1 else n

/-- Whether a job has a core in a group's home cores. -/
def State.jobInGroup (s : State) (p j g : Nat) : Bool := (homeCores g).any fun c => s.inCoreSet p j c

/-- The core's epoch charged up to a class (R322): the difference to what it has been charged for already. -/
def State.chargeCore (s : State) (c cls : Nat) : State :=
  let g := Config.groupOfCore c
  let ratio := (s.group g).ratio
  match (s.core c).paidClass with
  | some k => if cls ≤ k then s else
      (s.charge g (coreCharge ratio cls - coreCharge ratio k)).modCore c fun x => { x with paidClass := some cls }
  | none => (s.charge g (coreCharge ratio cls)).modCore c fun x => { x with paidClass := some cls }

/-! ## Tower commands -/

/-- The natural class of a command (Table 06-2). -/
def naturalClass : TCmd → Nat
  | .tattn => 9 | .tgemv => 8 | .tappend => 3 | .tcommit => 2 | .tdiscard => 1 | .tflushkv => 4 | .tfill => 6
  | .tcopy => 7 | .txform => 6 | .treduce => 6 | .tscrub => 3

/-- The reservation G of a command with `n` banks (R196, R197). -/
def reservation (cmd : TCmd) (cls n : Nat) : Nat :=
  let r := min 80 n
  if cls < naturalClass cmd then max 1 (ceilDiv r 2) else r

/-- The units of an instalment for the work left (R322). -/
def instalment (left g : Nat) : Nat := ceilDiv (min left (10800 * g + 21600)) 16384

/-! ## Accounts (R305, R314) -/

/-- The job whose standing job `j` runs with: along the donations, at most four (R314). -/
def State.standsFor (s : State) (p : Nat) : Nat → Nat → Nat
  | 0, j => j
  | n + 1, j => match (s.job p j).donor with
    | some (w, _) => s.standsFor p n w
    | none => j

/-- Cycles added to a job's account; while it runs with another job's standing, to that job's. -/
def State.debit (s : State) (p j n : Nat) : State :=
  s.modJob p (s.standsFor p 4 j) fun b => { b with account := b.account + BitVec.ofNat 64 n }

/-- Whether a Keep works: its tower can be reached and the clocks run. -/
def State.keepRuns (s : State) (t : Nat) : Bool := decide (t < s.units) && !s.dark t && !s.regBit Off.gstat 30

end Sys2Proof.Machine
end

