-- ==== Sys2Proof/Machine/Clock.lean ====
section
/-! DEFINITION. The clocks (R25, R28, R298): what one MCLK cycle adds to the local cycle counts and to the jobs' accounts.
This is the step on an empty queue (DESIGN CHOICE, log 10). -/

namespace Sys2Proof.Machine

/-- ACLK cycles of the `k`-th MCLK cycle at a ratio (Table 01-5): 8, 16/3 or 4. -/
def aclkStep (ratio k : Nat) : Nat :=
  match ratio with
  | 0 => 8
  | 1 => 16 * (k + 1) / 3 - 16 * k / 3
  | _ => 4

/-- Cycles of a core's clock, added to its count and to the account of the job whose task it holds (R305). -/
def State.tickCore (s : State) (c : Nat) : State :=
  if s.aclkRuns c then
    let n := aclkStep (s.group (Config.groupOfCore c)).ratio s.ticks
    let s := s.modCore c fun k => { k with cycles := k.cycles + BitVec.ofNat 64 n }
    match (s.core c).task with
    | some t => s.debit t.part t.job n
    | none => s
  else s

/-- FCLK cycles of a Keep: its count, the time that it has commands running, and each one's time, of which that under the brake
does not count against BOUND (R326). -/
def State.tickTower (s : State) (t : Nat) : State :=
  if (s.group t).pstate = .g4 then s
  else s.modTower t fun tw =>
    { tw with fclk := tw.fclk + 4, busy := if tw.running.any (fun r => r.working) then tw.busy + 4 else tw.busy,
              running := tw.running.map fun r => if r.working then
                { r with ran := r.ran + 4, counted := if s.gov.brakes = [] then r.counted + 4 else r.counted } else r }

/-- One MCLK cycle. After a FATAL error MCLK alone runs (R430); in recovery the root PLL is off (R28, R412). -/
def State.clockTick (s : State) : State :=
  if !s.mod.modPg then s
  else
    let s := { s with ticks := s.ticks + 1 }
    let s := s.modLanding fun l => { l with mclk := l.mclk + 1, fclk := if s.runs then l.fclk + 4 else l.fclk }
    if s.runs then
      let s := (List.range s.units).foldl State.tickTower s
      (List.range (Config.cores s.variant)).foldl State.tickCore s
    else s

end Sys2Proof.Machine
end

