-- ==== Sys2Proof/Machine/Approx.lean ====
section
/-! DEFINITION. The approximated functions of the vector unit (R145): the exact result rounded to FP32, and a free
result within the bound of Table 04-10 around it (DEDUCED, log 16). Fixed-point sums carry 320 fraction bits. -/

namespace Sys2Proof.Machine

/-- Fraction bits of the fixed-point sums. -/
def fxBits : Nat := 320

/-- One in fixed point. -/
def fxOne : Nat := 2 ^ fxBits

/-- The sum of 1 / (i * 2^i) for i from `k`, over `fuel` terms, in fixed point: ln 2 from k = 1. -/
def fxLn2 : Nat → Nat → Nat
  | 0, _ => 0
  | n + 1, k => fxOne / (k * 2 ^ k) + fxLn2 n (k + 1)

/-- ln 2 in fixed point. -/
def ln2 : Nat := fxLn2 330 1

/-- The exponential series from term `k`, whose value is `t`, at the point `r`. -/
def expSeries : Nat → Nat → Nat → Nat → Nat
  | 0, _, _, _ => 0
  | n + 1, r, k, t => t + expSeries n r (k + 1) (t * r / (k * fxOne))

/-- The arctangent series of 1/x: `p` is the running power 1/x^(2k+1). -/
def atanSeries : Nat → Nat → Nat → Nat → Int
  | 0, _, _, _ => 0
  | n + 1, x, k, p =>
    (if k % 2 = 0 then 1 else -1) * ((p / (2 * k + 1) : Nat) : Int) + atanSeries n x (k + 1) (p / (x * x))

/-- Pi in fixed point (Machin). -/
def fxPi : Nat := (16 * atanSeries 160 5 0 (fxOne / 5) - 4 * atanSeries 60 239 0 (fxOne / 239)).toNat

/-- The integer in fixed point of a finite value, truncated. -/
def fxOf (m : Nat) (e : Int) : Nat :=
  let k : Int := e + (fxBits : Int)
  if k ≥ 0 then m <<< k.toNat else m >>> (-k).toNat

/-- e^x for the fixed-point integer `x`: a mantissa and an exponent, with a sticky lowest bit. -/
def expFx (x : Int) : Nat × Int :=
  let k := x / (ln2 : Int)
  let r := (x - k * (ln2 : Int)).toNat
  (2 * expSeries 120 r 1 fxOne + 1, k - (fxBits : Int) - 1)

/-- The quotient 2^k * a / b with a sticky lowest bit, as a value of sign `s` times 2^e. -/
def quotVal (s : Bool) (a b : Nat) (e : Int) : Val :=
  let q := (a <<< 200) / b
  let st := b2n (decide ((a <<< 200) % b ≠ 0))
  .fin s (2 * q + st) (e - 201)

/-- The whole square root with a sticky lowest bit: 1 / sqrt(m * 2^e), for m not zero. -/
def rsqrtVal (m : Nat) (e : Int) : Val :=
  -- m * 2^e = m' * 2^(2h) with m' = m or 2m
  let odd := e % 2 = 1
  let m' := if odd then 2 * m else m
  let h : Int := if odd then (e - 1) / 2 else e / 2
  let n := 2 ^ 400 / m'
  let r := Nat.sqrt n
  let st := b2n (decide (r * r * m' ≠ 2 ^ 400))
  .fin false (2 * r + st) (-200 - h - 1)

/-- The series of the normal distribution function: the sum of (-1)^n x^(2n+1) / (n! 2^n (2n+1)), where `t` is
x^(2n+1) / (n! 2^n) in fixed point. -/
def phiSeries : Nat → Nat → Nat → Nat → Int
  | 0, _, _, _ => 0
  | f + 1, x2, n, t =>
    (if n % 2 = 0 then 1 else -1) * ((t / (2 * n + 1) : Nat) : Int)
      + phiSeries f x2 (n + 1) (t * x2 / fxOne / (2 * (n + 1)))

/-- The standard normal distribution function at +-x, for a fixed-point x below 16. -/
def phiFx (neg : Bool) (x : Nat) : Nat :=
  let s := phiSeries 900 (x * x / fxOne) 0 x
  -- 1 / sqrt(2 pi)
  let c := fxOne * fxOne / Nat.sqrt (2 * fxPi * fxOne)
  let p : Int := s * (c : Int) / (fxOne : Int)
  let half : Int := (fxOne / 2 : Nat)
  (if neg then half - p else half + p).toNat

/-- The exact result rounded once to FP32, with overflow and underflow as R42 and R43 give. -/
def exactFp32 (v : Val) : Val := (roundFp32 v).1

/-- One unit in the last place of a finite FP32 value, as an exponent. -/
def ulpExp (m : Nat) (e : Int) : Int := max (e + (bitLen m : Int) - 1) (-126) - 23

/-- Whether |c - r| is at most n * 2^u, for finite values. -/
def within (c r : Val) (n : Nat) (u : Int) : Bool :=
  match c with
  | .fin .. => match (addVal c (negVal r)).1 with
    | .fin _ m e => !(magLt n u m e)
    | _ => false
  | _ => false

/-- A free FP32 value within `n` * 2^`u` of the result `r`; `r` where the free value lies outside the bound. -/
def nearFree (free : Nat) (r : Val) (n : Nat) (u : Int) : Val :=
  let c := ofFp32 (BitVec.ofNat 32 free)
  if within c r n u then c else r

/-- A result below 2^-126 in magnitude is returned as zero of its sign with UNDERFLOW (R145). -/
def flushApprox (exactZero : Bool) (v : Val) : Val × FpFlags :=
  match v with
  | .fin s m e =>
    if exactZero then (.fin s 0 0, {})
    else if m = 0 || decide (e + (bitLen m : Int) - 1 < -126) then (.fin s 0 0, { underflow := true })
    else (v, {})
  | x => (x, {})

/-- A finite approximated result within `n` ulp of the exact one (R145); an exact result beyond the format overflows. -/
def approxUlp (free n : Nat) (exact : Val) : Val × FpFlags :=
  let (r, fl) := roundFp32 exact
  match r with
  | .fin _ m e => flushApprox (isZeroVal exact) (nearFree free r n (ulpExp m e))
  | x => (x, { overflow := fl.overflow })

/-- VEXP of one FP32 element (Table 04-10). -/
def approxExp (free : Nat) (x : Val) : Val × FpFlags :=
  match x with
  | .nan _ => (.nan false, {})
  | .inf true => (.fin false 0 0, {})
  | .inf false => (.inf false, {})
  | .fin s m e =>
    if !s && magLt 8872 0 (100 * m) e then (.inf false, flagOverflow)
    else if s && magLt 200 0 m e then flushApprox false (.fin false 0 0)
    else
      let (k, q) := expFx (if s then -(fxOf m e : Int) else (fxOf m e : Int))
      approxUlp free 2 (.fin false k q)

/-- VRCP of one FP32 element (Table 04-10). -/
def approxRcp (free : Nat) (x : Val) : Val × FpFlags :=
  match x with
  | .nan _ => (.nan false, {})
  | .inf s => (.fin s 0 0, {})
  | .fin s m e => if m = 0 then (.inf s, flagOverflow) else approxUlp free 1 (quotVal s 1 m (-e))

/-- VRSQ of one FP32 element (Table 04-10). -/
def approxRsq (free : Nat) (x : Val) : Val × FpFlags :=
  match x with
  | .nan _ => (.nan false, {})
  | .inf false => (.fin false 0 0, {})
  | .inf true => (.nan false, { invalid := true })
  | .fin s m e =>
    if m = 0 then (.inf s, flagOverflow)
    else if s then (.nan false, { invalid := true })
    else approxUlp free 2 (rsqrtVal m e)

/-- The bound 2^-16 * max(1, |x|) of VGELU as a multiple of a power of two. -/
def geluBound (m : Nat) (e : Int) : Nat × Int :=
  if magLt m e 1 0 then (1, -16) else (m, e - 16)

/-- The exact result of GELU, to the precision of the fixed-point sums. -/
def geluExact (s : Bool) (m : Nat) (e : Int) : Val :=
  if magLt m e 16 0 then (mulVal (.fin s m e) (.fin false (phiFx s (fxOf m e)) (-(fxBits : Int)))).1
  else if s then .fin true 1 (-300) else .fin false m e

/-- VGELU of one FP32 element (Table 04-10). -/
def approxGelu (free : Nat) (x : Val) : Val × FpFlags :=
  match x with
  | .nan _ => (.nan false, {})
  | .inf false => (.inf false, {})
  | .inf true => (.fin true 0 0, {})
  | .fin s m e =>
    if m = 0 then (x, {})
    else
      let r := exactFp32 (geluExact s m e)
      let (n, u) := geluBound m e
      flushApprox false (nearFree free r n u)

/-- The exact result of SiLU, to the precision of the fixed-point sums. -/
def siluExact (s : Bool) (m : Nat) (e : Int) : Val :=
  if magLt m e 200 0 then
    -- x / (1 + e^-x) = x * 2^B / (2^B + E)
    let (k, q) := expFx (if s then (fxOf m e : Int) else -(fxOf m e : Int))
    let t := fxOf k q
    (mulVal (.fin s m e) (quotVal false fxOne (fxOne + t) 0)).1
  else if s then .fin true 1 (-300) else .fin false m e

/-- VSILU of one FP32 element (Table 04-10): 4 ulp, or 2^-24 where that is larger. -/
def approxSilu (free : Nat) (x : Val) : Val × FpFlags :=
  match x with
  | .nan _ => (.nan false, {})
  | .inf false => (.inf false, {})
  | .inf true => (.fin true 0 0, {})
  | .fin s m e =>
    if m = 0 then (x, {})
    else
      let r := exactFp32 (siluExact s m e)
      match r with
      | .fin _ rm re =>
        let u := ulpExp rm re
        flushApprox false (if u + 2 ≥ -24 then nearFree free r 4 u else nearFree free r 1 (-24))
      | y => (y, {})

end Sys2Proof.Machine
end

