-- ==== Sys2Proof/Machine/Tiles.lean ====
section
/-! DEFINITION. Arithmetic on tiles: the vector unit (R143 to R145), the matrix unit (R46, R69, R147 to R149), and the
writing of tensor elements to memory (R47 to R49, R55, R93). -/

namespace Sys2Proof.Machine

/-- A list in an order that free draws choose: the order of partial sums is not promised (R72, DEDUCED, log 15). -/
def shuffle {α : Type} (draw : Nat → Nat) : List α → List α
  | [] => []
  | x :: r =>
    let t := shuffle draw r
    let k := draw r.length % (t.length + 1)
    t.take k ++ x :: t.drop k

/-! ## Vector unit -/

/-- An element of an operand as the vector unit converts it to FP32 (R144). -/
def Tile.fp32 (t : Tile) (r c : Nat) : Val × FpFlags := roundFp32 (t.val r c)

/-- Values of a result tile as rows, with the flags raised. -/
abbrev Grid := List (List Val)

/-- The value at a place of a grid. -/
def gridAt (g : Grid) (r c : Nat) : Val := (g.getD r []).getD c (.fin false 0 0)

/-- A grid from a function of row and column, with the flags of its elements together. -/
def mkGrid (rows cols : Nat) (f : Nat → Nat → Val × FpFlags) : Grid × FpFlags :=
  let g := (List.range rows).map fun r => (List.range cols).map fun c => f r c
  (g.map fun row => row.map (·.1), g.foldl (fun fl row => row.foldl (fun fl x => orFlags fl x.2) fl) {})

/-- An operation on one element and its flags, with the flags of its operands. -/
def vec1 (f : Val → Val × FpFlags) (a : Val × FpFlags) : Val × FpFlags :=
  let (x, fl) := f a.1
  (x, orFlags a.2 fl)

/-- An operation on two elements. -/
def vec2 (f : Val → Val → Val × FpFlags) (a b : Val × FpFlags) : Val × FpFlags :=
  let (x, fl) := f a.1 b.1
  (x, orFlags a.2 (orFlags b.2 fl))

/-- An FP32 subtraction. -/
def subFp32 (a b : Val) : Val × FpFlags := addFp32 a (negVal b)

/-- The sum of FP32 values in the order given, from the first. -/
def sumFp32 : List (Val × FpFlags) → Val × FpFlags
  | [] => (.fin false 0 0, {})
  | x :: r => r.foldl (fun a b => vec2 addFp32 a b) x

/-- The maximum of values (R143). -/
def maxList : List (Val × FpFlags) → Val × FpFlags
  | [] => (.inf true, {})
  | x :: r => r.foldl (fun a b => vec2 (fun p q => (maxVal p q, {})) a b) x

/-- The result of a vector operation before its conversion: the shape and the values (Table 04-9). `free` gives the
draws of the approximations and of the order of a sum. Only the operand elements that a result uses are converted, and raise
flags (DESIGN CHOICE, log 153). -/
def vecResult (op : VOp) (a b : Tile) (sr : Word) (free : Nat → Nat) : Nat × Nat × Grid × FpFlags :=
  let rows := tagRows a.tag
  let cols := tagCols a.tag
  let s : Val × FpFlags := (ofFp32 sr, {})
  let el (f : Nat → Nat → Val × FpFlags) : Nat × Nat × Grid × FpFlags :=
    let (g, fl) := mkGrid rows cols f
    (rows, cols, g, fl)
  let fr (r c : Nat) : Nat := free (64 * r + c)
  let row (r : Nat) : List (Val × FpFlags) := (List.range cols).map fun c => a.fp32 r c
  let red (f : Nat → Val × FpFlags) : Nat × Nat × Grid × FpFlags :=
    let (g, fl) := mkGrid rows 1 fun r _ => f r
    (rows, 1, g, fl)
  match op with
  | .vadd => el fun r c => vec2 addFp32 (a.fp32 r c) (b.fp32 r c)
  | .vsub => el fun r c => vec2 subFp32 (a.fp32 r c) (b.fp32 r c)
  | .vmul => el fun r c => vec2 mulFp32 (a.fp32 r c) (b.fp32 r c)
  | .vmax => el fun r c => vec2 (fun p q => (maxVal p q, {})) (a.fp32 r c) (b.fp32 r c)
  | .vmin => el fun r c => vec2 (fun p q => (minVal p q, {})) (a.fp32 r c) (b.fp32 r c)
  | .vadds => el fun r c => vec2 addFp32 (a.fp32 r c) s
  | .vmuls => el fun r c => vec2 mulFp32 (a.fp32 r c) s
  | .vfmas => el fun r c =>
      let x := a.fp32 r c
      let y := b.fp32 r c
      let (v, fl) := fmaFp32 x.1 s.1 y.1
      (v, orFlags x.2 (orFlags y.2 fl))
  | .vsubr => el fun r c => vec2 subFp32 (a.fp32 r c) (b.fp32 r 0)
  | .vmulr => el fun r c => vec2 mulFp32 (a.fp32 r c) (b.fp32 r 0)
  | .vrmax => red fun r => maxList (row r)
  | .vrsum => red fun r => sumFp32 (shuffle (fun i => fr r i) (row r))
  | .vcvt => el fun r c => a.fp32 r c
  | .vcausal => el fun r c => if (c : Int) ≤ (r : Int) + sr.toInt then a.fp32 r c else (.inf true, {})
  | .vexp => el fun r c => vec1 (approxExp (fr r c)) (a.fp32 r c)
  | .vrcp => el fun r c => vec1 (approxRcp (fr r c)) (a.fp32 r c)
  | .vrsq => el fun r c => vec1 (approxRsq (fr r c)) (a.fp32 r c)
  | .vgelu => el fun r c => vec1 (approxGelu (fr r c)) (a.fp32 r c)
  | .vsilu => el fun r c => vec1 (approxSilu (fr r c)) (a.fp32 r c)
  | .vrelu => el fun r c => vec1 (fun x => (maxVal x (.fin false 0 0), {})) (a.fp32 r c)

/-- Whether a vector operation reads QB. -/
def usesB : VOp → Bool
  | .vadd | .vsub | .vmul | .vmax | .vmin | .vfmas | .vsubr | .vmulr => true
  | _ => false

/-- Whether a vector operation reads SR. -/
def usesSr : VOp → Bool
  | .vadds | .vmuls | .vfmas | .vcausal => true
  | _ => false

/-- The tile that a vector operation pushes in format `f`, and its flags (R143, R144). VMAX, VMIN, VRMAX and VRELU raise none of
their own; that the conversions of their operands and of their result still raise theirs is the model's reading (DESIGN CHOICE,
log 152). -/
def vecTile (op : VOp) (a b : Tile) (sr : Word) (f : Format) (mode : Rounding) (ovf : Bool) (free rnd : Nat → Nat) :
    Tile × FpFlags :=
  let (rows, cols, g, fl) := vecResult op a b sr free
  let (d, fe) := encodeTile f mode ovf rnd rows cols (gridAt g)
  let poison := tagPoison a.tag || (usesB op && tagPoison b.tag)
  (⟨f, d, mkTag poison (tagLast a.tag) rows cols⟩, orFlags fl fe)

/-! ## Matrix unit -/

/-- A cell of an accumulator bank (R148). -/
def AccBank.at (a : AccBank) (r c : Nat) : Val := ofFp32 (mget 0 a.cells (64 * r + c))

/-- A bank from a grid of values that covers rows 0 to `rows` - 1 and columns 0 to `cols` - 1. -/
def gridCells (rows cols : Nat) (g : Grid) : List (Nat × Word) :=
  ((List.range rows).flatMap fun r => (List.range cols).map fun c => (64 * r + c, toFp32 (gridAt g r c))).filter
    fun e => decide (e.2 ≠ 0)

/-- A bank set to +0 with shape 1 x 1 and no poison mark (R147, R148). -/
def zeroBank : AccBank := {}

/-- The kinds of operands that the matrix unit multiplies (Table 04-13). -/
inductive MacClass where
  | narrowFloat | narrowInt | bf16 | fp16
  deriving DecidableEq, Repr

/-- The class of a format as an MMAC operand; FP32 and E8M0 have none. -/
def macClass : Format → Option MacClass
  | .fp32 | .e8m0 => none
  | .bf16 => some .bf16
  | .fp16 => some .fp16
  | .int8 | .int4 | .mxInt8 => some .narrowInt
  | _ => some .narrowFloat

/-- Whether MMAC accepts an operand pair (R149). -/
def macOk (a b : Format) : Bool :=
  match macClass a, macClass b with
  | some x, some y => decide (x = y)
  | _, _ => false

/-- An element's value without its block scale. -/
def Tile.raw (t : Tile) (r c : Nat) : Val :=
  if r < tagRows t.tag && c < tagCols t.tag then decodeElem t.fmt (codeAt t.data.get t.fmt 0 (64 * r + c))
  else .fin false 0 0

/-- The scale code of a block of a tile; 127, a scale of 1, for formats without block scales. -/
def Tile.scaleCode (t : Tile) (r b : Nat) : Nat :=
  if isMx t.fmt then (t.data.get (tileData t.fmt + 2 * r + b)).toNat else 127

/-- A block's product sum with the product of two scales applied (R46): NaN where a scale is NaN, zero below 2^-149,
infinity with OVERFLOW above 2^127 where the sum is not zero. -/
def scaleSum (v : Val) (sa sb : Nat) : Val × FpFlags :=
  if sa = 255 || sb = 255 then (.nan false, {})
  else
    let e : Int := (sa : Int) + (sb : Int) - 254
    match v with
    | .fin s m q =>
      if m = 0 then (v, {})
      else if e < -149 then (.fin s 0 0, {})
      else if e > 127 then (.inf s, flagOverflow)
      else (.fin s m (q + e), {})
    | .inf s => if e < -149 then (.fin s 0 0, {}) else (v, if e > 127 then flagOverflow else {})
    | x => (x, {})

/-- The exact sum of products of lists of values, and the flags of invalid steps. -/
def dotExact : List Val → List Val → Val × FpFlags
  | x :: xs, y :: ys =>
    let (p, f1) := mulVal x y
    let (q, f2) := dotExact xs ys
    let (z, f3) := addVal p q
    (z, orFlags f1 (orFlags f2 f3))
  | _, _ => (.fin false 0 0, {})

/-- Elements in a row, each with its value without the block scale and its scale's code. -/
abbrev ScaledRow := List (Val × Nat)

/-- A pair of elements put to the pairs that have its scales. -/
def addToGroup (k : Nat × Nat) (x : Val × Val) : List ((Nat × Nat) × List (Val × Val)) →
    List ((Nat × Nat) × List (Val × Val))
  | [] => [(k, [x])]
  | g :: r => if g.1 = k then (k, x :: g.2) :: r else g :: addToGroup k x r

/-- The exact sum of values, the last as it is. -/
def sumExact : List (Val × FpFlags) → Val × FpFlags
  | [] => (.fin false 0 0, {})
  | [x] => x
  | x :: r => vec2 addVal x (sumExact r)

/-- The product sum of two blocks of 32 with their scales applied (R46, R69): exact, one sum for each pair of scales. Two whole
blocks have one pair; elements brought together from several blocks keep the scale of their own (R39). -/
def dotScaled (xs ys : ScaledRow) : Val × FpFlags :=
  sumExact (((xs.zip ys).foldr (fun p g => addToGroup (p.1.2, p.2.2) (p.1.1, p.2.1) g) []).map fun g =>
    vec1 (fun v => scaleSum v g.1.1 g.1.2) (dotExact (g.2.map (·.1)) (g.2.map (·.2))))

/-- Add the product of two rows of 64 elements to a value under R69, for operands of a class; `order` chooses the order of the
rounded additions. -/
def macCell (cls : Option MacClass) (xs ys : ScaledRow) (order : Nat → Nat) (acc : Val) : Val × FpFlags :=
  let sums := match cls with
    | some .bf16 | some .fp16 => (xs.zip ys).map fun p => mulVal p.1.1 p.2.1
    | _ => [dotScaled (xs.take 32) (ys.take 32), dotScaled (xs.drop 32) (ys.drop 32)]
  (shuffle order sums).foldl (fun x t => vec2 accAdd x t) (acc, {})

/-- A bank with the products of the rows `xs` by the rows `ys` added (R69). -/
def macRows (acc : AccBank) (cls : Option MacClass) (xs ys : List ScaledRow) (poison : Bool) (order : Nat → Nat) :
    AccBank × FpFlags :=
  let rows := max acc.rows xs.length
  let cols := max acc.cols ys.length
  let (g, fl) := mkGrid rows cols fun r c =>
    match xs[r]?, ys[c]? with
    | some x, some y => macCell cls x y (fun i => order (4096 * i + 64 * r + c)) (acc.at r c)
    | _, _ => (acc.at r c, {})
  ({ rows := rows, cols := cols, poison := acc.poison || poison, cells := gridCells rows cols g }, fl)

/-- The rows of a tile within its shape, 64 elements each. -/
def Tile.lines (t : Tile) : List ScaledRow :=
  (List.range (tagRows t.tag)).map fun r => (List.range 64).map fun k => (t.raw r k, t.scaleCode r (k / 32))

/-- MMAC (R147, R148). With ZERO the bank is zero with shape 1 x 1 first (Table 04-11 zeroes the bank; the shape is the model's,
DESIGN CHOICE, log 150). -/
def macBank (acc : AccBank) (a b : Tile) (zero : Bool) (order : Nat → Nat) : AccBank × FpFlags :=
  macRows (if zero then zeroBank else acc) (macClass a.fmt) a.lines b.lines (tagPoison a.tag || tagPoison b.tag) order

/-! ## Tiles of tensors as an engine reads them -/

/-- A tile read from a tensor: for each element of its shape the code and its own scale's code (127 where the format has no block
scales), so that elements of several blocks keep their scales (R39). -/
structure SrcTile where
  fmt : Format
  rows : Nat
  cols : Nat
  poison : Bool
  cells : List (List (Nat × Nat))
  deriving DecidableEq, Repr

/-- An element of a tile read: its value without the block scale and its scale's code. -/
def SrcTile.elem (t : SrcTile) (r c : Nat) : Val × Nat :=
  match (t.cells.getD r [])[c]? with
  | some x => (decodeElem t.fmt x.1, x.2)
  | none => (.fin false 0 0, 127)

/-- The value of an element of a tile read (R39). -/
def SrcTile.val (t : SrcTile) (r c : Nat) : Val :=
  let x := t.elem r c
  if isMx t.fmt then applyScale x.1 x.2 else x.1

/-- The rows of a tile read, 64 elements each. -/
def SrcTile.lines (t : SrcTile) : List ScaledRow :=
  (List.range t.rows).map fun r => (List.range 64).map (t.elem r)

/-- The scale that a block of codes of one format takes in a tile's bytes: the one that its elements share; a zero has any scale
but a NaN. None where they have several. -/
def sharedScale (f : Format) (l : List (Nat × Nat)) : Option Nat :=
  match l.filter fun x => decide (x.2 = 255) || !isZeroVal (decodeElem f x.1) with
  | [] => some ((l.headD (0, 127)).2)
  | x :: r => if r.all (fun y => decide (y.2 = x.2)) && (decide (x.2 ≠ 255) || decide (r.length + 1 = l.length))
              then some x.2 else none

/-- A block of at most 32 elements of one MX format as a block of that format: the scale, the codes and the flags. Elements that
do not share a scale are quantised again (R45, DESIGN CHOICE, log 110). -/
def packBlock (f : Format) (l : List (Nat × Nat)) : Nat × List Nat × FpFlags :=
  if l = [] then (0, [], {})
  else match sharedScale f l with
    | some s => (s, l.map (·.1), {})
    | none =>
      let (s, codes, fl) := quantiseBlock f .rne false (fun _ => 0) 0
        (l.map (fun x => applyScale (decodeElem f x.1) x.2) ++ List.replicate (32 - l.length) (.fin false 0 0))
      (s, codes.take l.length, fl)

/-- The bytes of a tile read, as a queue's slot holds it (R91), and the flags of quantising blocks again. -/
def SrcTile.pack (t : SrcTile) (last : Bool) : Tile × FpFlags :=
  let block (r b : Nat) : Nat × List Nat × FpFlags :=
    let l := (((t.cells.getD r []).take t.cols).drop (32 * b)).take 32
    if isMx t.fmt then packBlock t.fmt l else (0, l.map (·.1), {})
  let blocks := (List.range 64).map fun r => (block r 0, block r 1)
  let row (x : (Nat × List Nat × FpFlags) × (Nat × List Nat × FpFlags)) : List Byte :=
    leBytes (8 * elemBits t.fmt) (packCodes (elemBits t.fmt)
      (x.1.2.1 ++ List.replicate (32 - x.1.2.1.length) 0 ++ x.2.2.1))
  let scales : List Byte := if isMx t.fmt then blocks.flatMap fun x => [BitVec.ofNat 8 x.1.1, BitVec.ofNat 8 x.2.1] else []
  (⟨t.fmt, Memory.ofBytes 0 (blocks.flatMap row ++ scales), mkTag t.poison last t.rows t.cols⟩,
   blocks.foldl (fun f x => orFlags f (orFlags x.1.2.2 x.2.2.2)) {})

/-- The tile that MDRAIN pushes (R148); with ZERO the bank is `zeroBank` after it, as for MMAC (log 150). -/
def drainTile (acc : AccBank) (f : Format) (mode : Rounding) (ovf : Bool) (rnd : Nat → Nat) : Tile × FpFlags :=
  let (d, fl) := encodeTile f mode ovf rnd acc.rows acc.cols acc.at
  (⟨f, d, mkTag acc.poison false acc.rows acc.cols⟩, fl)

/-- MLDA: the bank set to a tile (R144, R148). -/
def loadBank (t : Tile) : AccBank × FpFlags :=
  let rows := tagRows t.tag
  let cols := tagCols t.tag
  let (g, fl) := mkGrid rows cols fun r c => t.fp32 r c
  ({ rows := rows, cols := cols, poison := tagPoison t.tag, cells := gridCells rows cols g }, fl)

/-- MTR: the transpose of a tile; codes move unchanged, but MX elements are quantised again (R148). -/
def transposeTile (t : Tile) : Tile × FpFlags :=
  let rows := tagRows t.tag
  let cols := tagCols t.tag
  let tag := mkTag (tagPoison t.tag) (tagLast t.tag) cols rows
  if isMx t.fmt then
    let (g, f1) := mkGrid cols rows fun r c => t.fp32 c r
    let (d, f2) := encodeTile t.fmt .rne false (fun _ => 0) cols rows (gridAt g)
    (⟨t.fmt, d, tag⟩, orFlags f1 f2)
  else
    let row (r : Nat) : List Byte :=
      leBytes (8 * elemBits t.fmt) (packCodes (elemBits t.fmt)
        ((List.range 64).map fun c => if r < cols && c < rows then codeAt t.data.get t.fmt 0 (64 * c + r) else 0))
    (⟨t.fmt, Memory.ofBytes 0 ((List.range 64).flatMap row), tag⟩, {})

/-! ## Writing tensor elements -/

/-- Bits of bytes to write, by address: a mask and the bits. -/
abbrev BitWrites := List (Nat × (Nat × Nat))

/-- `n` bytes of bits from address `a`, low first. -/
def putBits (m : BitWrites) (a mask v : Nat) : Nat → BitWrites
  | 0 => m
  | n + 1 =>
    let old := mget (0, 0) m a
    let k := mask % 256
    putBits (if k = 0 then m else mset (0, 0) m a (old.1 ||| k, (old.2 &&& (255 - k)) ||| (v % 256 &&& k)))
      (a + 1) (mask / 256) (v / 256) n

/-- The bits of one element of a dense run. -/
def putCode (m : BitWrites) (f : Format) (base u code : Nat) : BitWrites :=
  let b := elemBits f
  let sh := b * u % 8
  putBits m (base + b * u / 8) ((2 ^ b - 1) <<< sh) ((code % 2 ^ b) <<< sh) ((sh + b + 7) / 8)

/-- A whole byte. -/
def putByte (m : BitWrites) (a v : Nat) : BitWrites := mset (0, 0) m a (255, v % 256)

/-- The writes of the words of a list, word by word: the address of the word and its bytes. -/
def groupWords : BitWrites → List (Nat × List (Nat × (Nat × Nat)))
  | [] => []
  | e :: r =>
    let w := e.1 - e.1 % 32
    match groupWords r with
    | (w', l) :: rest => if w = w' then (w, e :: l) :: rest else (w, [e]) :: (w', l) :: rest
    | [] => [(w, [e])]

/-- Runs of bytes next to each other. -/
def byteRuns : List (Nat × Byte) → List (Nat × List Byte)
  | [] => []
  | (a, b) :: r => match byteRuns r with
    | (a', l) :: rest => if a + 1 = a' then (a, b :: l) :: rest else (a, [b]) :: (a', l) :: rest
    | [] => [(a, [b])]

/-- Write the bits of one word: poisoned whole, whole, or by read-modify-write (R93, R169). -/
def State.writeBitsWord (s : State) (ag : Agent) (p w : Nat) (l : List (Nat × (Nat × Nat))) (poison : Bool) :
    State × Bool :=
  if poison then s.writeWord ag p w (List.replicate 32 0) true false
  else if l.all fun e => decide (e.2.1 = 255) then
    (byteRuns (l.map fun e => (e.1, BitVec.ofNat 8 e.2.2))).foldl (fun x r =>
      let (s, ok) := x.1.writeWord ag p r.1 r.2 false false
      (s, x.2 && ok)) (s, true)
  else
    let (s, r) := s.readWord ag p w
    match r with
    | none => (s, false)
    | some d =>
      let bytes := l.map fun e => (e.1, BitVec.ofNat 8 (((d.data.get (e.1 - w)).toNat &&& (255 - e.2.1)) ||| e.2.2))
      (byteRuns bytes).foldl (fun x r =>
        let (s, ok) := x.1.writeWord ag p r.1 r.2 false false
        (s, x.2 && ok)) (s, true)

/-- Make the writes of words in order, up to one that is refused: its address (R353). The words of `poison` are written
poisoned whole. -/
def State.writeWords (s : State) (ag : Agent) (p : Nat) (poison : List Nat) :
    List (Nat × List (Nat × (Nat × Nat))) → State × Option Nat
  | [] => (s, none)
  | g :: r => match s.writeBitsWord ag p g.1 g.2 (poison.contains g.1) with
    | (s, true) => s.writeWords ag p poison r
    | (s, false) => (s, some g.1)

/-- Make the writes; the address of the word that was refused, if one was. -/
def State.writeBits (s : State) (ag : Agent) (p : Nat) (m : BitWrites) (poison : List Nat) : State × Option Nat :=
  s.writeWords ag p poison (groupWords m)

/-- The words that a set of writes touches. -/
def writtenWords (m : BitWrites) : List Nat := (groupWords m).map (·.1)

/-- The bits of one element of a tensor, with its block scale where its format has one. -/
def putElem (m : BitWrites) (d : TensorDesc) (x : List Nat) (code : Nat) (scale : Option Nat) : BitWrites :=
  let q := elemPos d x
  let m := putCode m d.fmt q.base q.u code
  match q.scale, scale with
  | some a, some v => putByte m a v
  | _, _ => m

/-- The bytes of a scaled row's header (Table 02-7). -/
def rowHeader (f : Format) (vectors tag : Nat) : Nat := formatCode f + vectors * 256 + tag * 2 ^ 32

/-- The end of a line's elements with the padding that R49 has written. -/
def padEnd (d : TensorDesc) (n : Nat) : Nat :=
  let k := match d.layout with
    | 0 | 1 => if elemBits d.fmt = 4 then 2 else if elemBits d.fmt = 6 then 4 else 1
    | 2 => 64
    | _ => rowElems d.fmt
  ceilDiv n k * k

/-- Zero bytes of a scaled row behind its scales (Table 02-6). -/
def rowReserve (m : BitWrites) (f : Format) (row : Nat) : BitWrites :=
  (List.range (120 - rowElems f / 32)).foldl (fun m i => putByte m (row + 1920 + rowElems f / 32 + i) 0) m

/-- The writes of the elements `lo` on of a line of a tensor, at the indices `outer` of dimensions 1 and above: the elements, the
padding at the line's end as zero (R49), and the headers of the scaled rows that begin among them, with a tag (R55). -/
def lineWrites (d : TensorDesc) (outer : List Nat) (lo : Nat) (l : List (Nat × Nat × Bool)) (tag : Nat) (m : BitWrites) :
    BitWrites :=
  let e0 := d.ext.getD 0 1
  let hi := lo + l.length
  let m := (List.range ((if hi < e0 then hi else padEnd d e0) - lo)).foldl (fun m i =>
    let k := lo + i
    let x := l.getD i (0, 0, false)
    putElem m d (k :: outer) x.1 (if isMx d.fmt && k % 32 = 0 then some x.2.1 else none)) m
  if d.layout = 3 then
    let e := rowElems d.fmt
    (List.range (ceilDiv hi e - ceilDiv lo e)).foldl (fun m j =>
      let i := ceilDiv lo e + j
      let q := elemPos d (i * e :: outer)
      let m := rowReserve m d.fmt q.base
      match q.header with
      | some h => putBits m h (2 ^ 64 - 1) (rowHeader d.fmt (ceilDiv (min e (e0 - i * e)) 128) tag) 8
      | none => m) m
  else m

/-- A line of zeros. -/
def zeroLine (d : TensorDesc) : List (Nat × Nat × Bool) := List.replicate (d.ext.getD 0 1) (0, 0, false)

/-- The extent of dimension 1: 1 where there is none. -/
def TensorDesc.ext1 (d : TensorDesc) : Nat := if d.ndim < 2 then 1 else d.ext.getD 1 1

/-- The zero lines that fill a TILED tensor's last tile row (R49); a tensor of one dimension has one row. -/
def padLines (d : TensorDesc) (outer : List Nat) (m : BitWrites) : BitWrites :=
  let e1 := d.ext1
  if d.layout = 2 && outer.headD 0 + 1 = e1 then
    (List.range (ceilDiv e1 64 * 64 - e1)).foldl (fun m i =>
      lineWrites d ((e1 + i) :: outer.tail) 0 (zeroLine d) 0 m) m
  else m

/-- Whether no two lines of a tensor share a byte, told from its strides alone (R61, R62). -/
def linesApart (d : TensorDesc) : Bool :=
  let e0 := d.ext.getD 0 1
  let line := match d.layout with
    | 0 | 1 => rowBytes d.fmt e0
    | 2 => ceilDiv e0 64 * tileBytes d.fmt
    | _ => ceilDiv e0 (rowElems d.fmt) * 2048
  ((List.range (d.ndim - 1)).foldl (fun (x : Bool × Nat) k =>
    let n := if d.layout = 2 && k = 0 then ceilDiv (d.ext.getD 1 1) 64 else d.ext.getD (k + 1) 1
    let st := d.strides.getD k 0
    (x.1 && (decide (n ≤ 1) || decide (x.2 ≤ st)), x.2 + (n - 1) * st)) (true, line)).1

/-- The number of the line at the indices of dimensions 1 and above: the inverse of `lineIndex`. -/
def lineNumber : List Nat → List Nat → Nat
  | e :: r, x :: xs => x + e * lineNumber r xs
  | _, _ => 0

/-- The bytes that line `n` of a tensor takes. -/
def lineTakes (d : TensorDesc) (n : Nat) : List Nat :=
  let outer := lineIndex ((d.ext.take d.ndim).drop 1) n
  (padLines d outer (lineWrites d outer 0 (zeroLine d) 0 [])).map (·.1)

/-- The writes of line `n` of a tensor that stay. Of the bytes that an earlier line shares, a word keeps this line's or the
earlier one's, which is free (R62, DESIGN CHOICE, log 142, purpose 21). -/
def State.keptWrites (s : State) (d : TensorDesc) (n : Nat) (m : BitWrites) : BitWrites :=
  if linesApart d then m
  else
    let before := (List.range n).flatMap (lineTakes d)
    m.filter fun e => !(before.contains e.1 && decide (s.draw 21 (2 ^ 48 * n + e.1 / 32) % 2 = 1))

/-- Writes over writes: the bits of `w` over those of `m`. -/
def mergeWrites (m w : BitWrites) : BitWrites :=
  w.foldl (fun m e =>
    let old := mget (0, 0) m e.1
    mset (0, 0) m e.1 (old.1 ||| e.2.1, (old.2 &&& (255 - e.2.1)) ||| e.2.2)) m

/-- The bytes of the elements of a shape of `rows` by `cols`, with their block scales (R47, R52). -/
def shapeBytes (f : Format) (rows cols : Nat) : Nat := rows * (rowBytes f cols + if isMx f then ceilDiv cols 32 else 0)

/-- The value to store for a value under the destination's TENSOR_SCALE: the exact quotient (R39, R212). -/
def descale (d : TensorDesc) (v : Val) : Val :=
  if perTensor d.fmt then
    match v, ofFp32 d.scale with
    | .fin s m e, .fin _ n f => if m = 0 then v else quotVal s m n (e - f)
    | x, _ => x
  else v

end Sys2Proof.Machine
end

