-- ==== Sys2Proof/Machine/Sequencer.lean ====
section
/-! DEFINITION. The layer sequencer (R102 to R111): the layer configuration block, its validation, a slice's binding of
queues, its tower commands, its output tiles and its end. -/

namespace Sys2Proof.Machine

/-- The format of the tower results' queue: FP32, the form of the partial sums (DEDUCED, log 35). -/
def towerFormat : Format := .fp32

/-! ## Validation (R105) -/

/-- The masks of the reserved bits of the LCB's words, by word. -/
def lcbReserved : List (Nat × Nat) := [
  (0, 0xFF000000), (1, 0xFFFFF880), (2, 0xFFFFFF08), (3, 0xFFFF0000), (8, 0xFFC0C0C0), (9, 0xFFFFFFFF),
  (10, 0xFFFFFF0C), (14, 0xFFFFFFFF), (15, 0xFFFFFFFF), (17, 0xFFFF0000), (19, 0xFFFF0000), (21, 0xFFFF0000),
  (23, 0xFFFF0000), (25, 0xFFFF0000), (27, 0xFFFF0000), (28, 0xFFFF00F0), (29, 0xFFFF00F0), (30, 0xFFFF00F0),
  (31, 0xFFFF00F0), (32, 0xF0000020), (33, 0xF0000020), (34, 0xF0000020), (35, 0xF0000020), (36, 0xF0000020),
  (37, 0xF0000020), (38, 0xFFFFFFFF), (39, 0xFFFFFFFF), (40, 0xFFFFFF00), (41, 0xFFFFFFFF), (42, 0x00808080),
  (43, 0xFFFF0000), (44, 0x00808080), (45, 0xFFFF0000)]

/-- The reserved bits of word `i`: words 46 to 111 are reserved whole, 112 to 127 are software's. -/
def lcbReservedMask (i : Nat) : Nat :=
  if 46 ≤ i && i < 112 then 0xFFFFFFFF
  else match lcbReserved.find? fun e => decide (e.1 = i) with
    | some e => e.2
    | none => 0

/-- EPI_OP and EPI_ARG of a stage. -/
def LayerSeq.epi (q : LayerSeq) (i : Nat) : Nat × Nat := (field (q.w (28 + i)) 0 4, field (q.w (28 + i)) 8 8)

/-- Whether a stage's codes are in range (Table 03-15), and it does not follow a REQUANT stage. -/
def LayerSeq.epiOk (q : LayerSeq) (i : Nat) : Bool :=
  let (op, arg) := q.epi i
  decide (op ≤ 5) && (if op = 2 then decide (arg ≤ 2) else decide (arg = 0)) &&
  (decide (op = 0) || !(List.range i).any fun j => decide ((q.epi j).1 = 5))

/-- Whether a window field's K, S and D are those that WIN_AXES asks of it: within Table 02-9, or zero with the padding where
the axis is not expanded (R66). -/
def LayerSeq.winFieldOk (q : LayerSeq) (i axes : Nat) : Bool :=
  if axes ≤ q.winAxes then winRange (winOf (q.d i)) else decide (q.w i = 0)

/-- Whether the fields of word `i` are in range (R105, step 2; DEDUCED, log 36). -/
def LayerSeq.wordOk (q : LayerSeq) (i : Nat) : Bool :=
  let v := q.w i
  if v &&& lcbReservedMask i ≠ 0 then false
  else match i with
    | 0 => decide (field v 8 8 = 0)
    | 1 => decide (q.roundCode ≠ 3)
    | 2 => decide (q.splitAxis ≠ 3) && decide (q.loopOrder ≤ 3)
    | 3 => decide (1 ≤ q.splitCount) && decide (q.splitCount ≤ 4096)
    | 7 => decide (1 ≤ q.batch)
    | 10 => decide (q.towerMode ≠ 3)
    | 12 => decide (1 ≤ q.towerBound) && decide (q.towerBound ≤ 2700000)
    | 28 => q.epiOk 0
    | 29 => q.epiOk 1
    | 30 => q.epiOk 2
    | 31 => q.epiOk 3
    | 40 => (if q.kind = 2 then decide (q.winAxes = 1) || decide (q.winAxes = 2) else decide (q.winAxes = 0)) &&
        (decide (q.winAxes ≠ 0) || decide (q.axisA = 0)) &&
        (if q.winAxes = 2 then decide (q.axisA < q.axisB) else decide (q.axisB = 0))
    | 42 => q.winFieldOk 42 1
    | 43 => decide (1 ≤ q.winAxes) || decide (v = 0)
    | 44 => q.winFieldOk 44 2
    | 45 => decide (2 ≤ q.winAxes) || decide (v = 0)
    | _ => true

/-- A failed check: the status and the word. -/
abbrev LcbFail := Status × Nat

/-- Create the descriptor named at word `i`, if it is present. -/
def State.lcbDesc (s : State) (ag : Agent) (p : Nat) (q : LayerSeq) (i : Nat) : State × Except LcbFail (Option TensorDesc) :=
  let a := q.d i % 2 ^ 48
  if a = 0 then (s, .ok none)
  else match s.createDesc ag p a with
    | (s, .ok d) => (s, .ok (some d))
    | (s, .error st) => (s, .error (st, i))

/-- Whether extents are those of a list that may leave out a BATCH of 1. -/
def extentsAre (ext want : List Nat) : Bool :=
  decide (ext = want) || (decide (want.getLast? = some 1) && decide (2 < want.length) && decide (ext = want.dropLast))

/-- The extents of a descriptor. -/
def TensorDesc.extents (d : TensorDesc) : List Nat := d.ext.take d.ndim

/-- Step 4 of R105 for the window expansion of a CONV's A, which needs A's extents: the word of the first check that fails
(R66 to R68; DEDUCED, log 36). -/
def LayerSeq.winFail (q : LayerSeq) (d : TensorDesc) : Option Nat :=
  let one (axis i : Nat) : Bool := decide (winCount (winOf (q.d i)) (d.ext.getD axis 0) ≥ 1)
  if d.ndim > 4 || q.axisA ≥ d.ndim || (q.winAxes = 2 && q.axisB ≥ d.ndim) then some 40
  else if !one q.axisA 42 then some 42
  else if q.winAxes = 2 && !one q.axisB 44 then some 44
  else none

/-- Step 4 of R105: the word of the first check that fails. The step does not list a pair of formats that MMAC does not accept
(R149); the model refuses it here, at B_DESC's word (DESIGN CHOICE, log 156). -/
def LayerSeq.shapeFail (q : LayerSeq) : Option Nat :=
  let mul := q.multiplies
  let aExt (d : TensorDesc) : List Nat := winExtents d q.winAxes q.axisA q.axisB (q.d 42) (q.d 44)
  let win := match q.aDesc with
    | some d => if q.kind = 2 then q.winFail d else none
    | none => none
  let aBad := match q.aDesc with
    | none => true
    | some d => decide (d.layout = 1) ||
        !(if mul then extentsAre (aExt d) [q.k, q.m, q.batch] else extentsAre d.extents [q.n, q.m, q.batch])
  let bBad := match q.bDesc with
    | none => (mul && decide (q.towerMode ≠ 2)) || decide (q.kind = 4)
    | some d => decide (d.layout = 0) || decide (q.towerMode = 2) ||
        (match q.kind with
          | 1 => !(extentsAre d.extents [q.k, q.n, q.batch] || decide (d.extents = [q.k, q.n]))
          | 2 => !decide (d.extents = [q.k, q.n])
          | 4 => !decide (d.extents = [q.n])
          | _ => true)
  let cBad := match q.cDesc with
    | none => true
    | some d => (decide (d.layout ≠ 0) && decide (d.layout ≠ 2)) || !extentsAre d.extents [q.n, q.m, q.batch]
  let stage (op : Nat) : Bool := (List.range 4).any fun i => decide ((q.epi i).1 = op)
  let biasBad := match q.biasDesc with
    | none => stage 1
    | some d => !(decide (d.extents = [q.n]) || decide (d.extents = [q.n, 1]))
  let residBad := match q.residDesc with
    | none => stage 4
    | some d => !extentsAre d.extents [q.n, q.m, q.batch]
  let mx (d : Option TensorDesc) : Bool := match d with
    | some x => isMx x.fmt
    | none => false
  let kBad := mul && (mx q.aDesc || mx q.bDesc) && decide (q.tileK % 32 ≠ 0)
  let pairBad := match q.aDesc, q.bDesc with
    | some a, some b => mul && !macOk a.fmt b.fmt
    | _, _ => false
  let towerBad := (!mul && decide (q.towerMode ≠ 0))
  let tnBad := match q.towerMode with
    | 0 => decide (q.towerN ≠ 0)
    | 1 => decide (q.towerN = 0) || decide (q.towerN ≥ q.n)
    | _ => decide (q.towerN ≠ q.n)
  let reach := decide (q.towerMode ≠ 0) && decide (q.m * q.batch > 8388608)
  if win.isSome then win
  else if aBad then some 16
  else if bBad || pairBad then some 18
  else if cBad then some 20
  else if biasBad then some 22
  else if residBad then some 24
  else if kBad then some 8
  else if towerBad then some 10
  else if tnBad then some 11
  else if reach then some 4
  else none

/-- The operands that have a queue: their QSPEC's word and the format of the queue. -/
def LayerSeq.queueFormats (q : LayerSeq) : List (Nat × Format) :=
  let of (i : Nat) (d : Option TensorDesc) : List (Nat × Format) :=
    match d with
    | some x => [(i, x.fmt)]
    | none => []
  of 32 q.aDesc ++ of 33 q.bDesc ++ of 34 q.cDesc ++ (if q.towerMode ≠ 0 then [(35, towerFormat)] else []) ++
    of 36 q.biasDesc ++ of 37 q.residDesc

/-- QEND, depth and base of a QSPEC. -/
def qspecOf (v : Nat) : Nat × Nat × Nat := (field v 0 5, field v 6 6 + 1, field v 12 16 * 32)

/-- The region of a QSPEC that is not zero. -/
def LayerSeq.qspecRegion (q : LayerSeq) (e : Nat × Format) : Option (Nat × Nat) :=
  let v := q.w e.1
  if v = 0 then none
  else
    let (_, depth, base) := qspecOf v
    some (base, depth * tileBytes e.2)

/-- Step 5 of R105: the word of the first QSPEC whose region leaves the tile store or overlaps. -/
def LayerSeq.qspecFail (q : LayerSeq) (c : Core) : Option Nat :=
  let l := q.queueFormats
  (l.find? fun e => match q.qspecRegion e with
    | none => false
    | some (a, n) =>
      decide (a + n > tileStoreBytes) || c.hitsQueue a n none ||
      l.any fun f => decide (f.1 < e.1) && (match q.qspecRegion f with
        | some (b, k) => overlap a n b k
        | none => false)).map (·.1)

/-- Step 6 of R105. -/
def State.btFail (s : State) (p core : Nat) (q : LayerSeq) : Bool :=
  decide (q.towerMode ≠ 0) && (match q.btDesc with
    | none => true
    | some d =>
      let home := Config.groupOfCore core
      let inHome (a : Nat) : Bool := match s.region p a with
        | .banked t _ => decide (t = home)
        | _ => false
      decide (d.layout ≠ 3) || !inHome d.base || !inHome (d.base + footprint d - 1) ||
      decide (d.extents ≠ [q.k, q.towerN]))

/-- Validate a working copy (R105): the copy with its descriptors, or the first failure. -/
def State.validateLcb (s : State) (core p : Nat) (q : LayerSeq) : State × Except LcbFail LayerSeq :=
  let ag : Agent := .core core
  if field (q.w 0) 0 8 ≠ 1 || q.kind = 0 || q.kind > 4 then (s, .error (.refused, 0))
  else match (List.range 112).find? fun i => !q.wordOk i with
    | some i => (s, .error (.descInvalid, i))
    | none =>
      let (s, a) := s.lcbDesc ag p q 16
      match a with
      | .error e => (s, .error e)
      | .ok a =>
        let (s, b) := s.lcbDesc ag p q 18
        match b with
        | .error e => (s, .error e)
        | .ok b =>
          let (s, c) := s.lcbDesc ag p q 20
          match c with
          | .error e => (s, .error e)
          | .ok c =>
            let (s, bi) := s.lcbDesc ag p q 22
            match bi with
            | .error e => (s, .error e)
            | .ok bi =>
              let (s, re) := s.lcbDesc ag p q 24
              match re with
              | .error e => (s, .error e)
              | .ok re =>
                let (s, bt) := s.lcbDesc ag p q 26
                match bt with
                | .error e => (s, .error e)
                | .ok bt =>
                  let q := { q with aDesc := a, bDesc := b, cDesc := c, biasDesc := bi, residDesc := re, btDesc := bt }
                  match q.shapeFail with
                  | some i => (s, .error (.descInvalid, i))
                  | none => match q.qspecFail (s.core core) with
                    | some i => (s, .error (.bounds, i))
                    | none => if s.btFail p core q then (s, .error (.descInvalid, 26)) else (s, .ok q)

/-- The working copy of an LCB: the words that the device reads. -/
def lcbCopy (m : Memory) : List (Nat × Word) :=
  (List.range 112).filterMap fun i =>
    let w : Word := BitVec.ofNat 32 (m.num (4 * i) 4)
    if w = 0 then none else some (i, w)

/-- LCFG's work (R105): read the LCB, validate it, set LSTAT. Its sixteen words are read but for the last two, which R102 says the
device never reads (DESIGN CHOICE, log 157). A read that fails is reported as R60 reports one (DEDUCED, log 36). -/
def State.loadLcb (s : State) (core p a : Nat) : State :=
  let (s, r) := s.readRun (.core core) p a 448
  let fail (s : State) (lcb : List (Nat × Word)) (e : LcbFail) : State :=
    s.modCore core fun c => { c with seq := { lcb := lcb, status := e.1, failWord := e.2 } }
  if r.refused then fail s [] (.bounds, 0)
  else if r.poison ≠ [] then fail s [] (.uncorrected, 0)
  else
    let q : LayerSeq := { lcb := lcbCopy r.data }
    match s.validateLcb core p q with
    | (s, .error e) => fail s q.lcb e
    | (s, .ok q) => s.modCore core fun c => { c with seq := { q with loaded := true } }

/-! ## Reading tiles of operands (R107) -/

/-- The indices that a tile reads, row by row. -/
def tileCells (rows cols : Nat) (at_ : Nat → Nat → Resolved) : List (List Resolved) :=
  (List.range rows).map fun r => (List.range cols).map fun c => at_ r c

/-- An element of a tile read: the code and its scale's code; one that CLAMP makes zero has the scale 1 (R65). -/
def cellCode (im : Image) (d : TensorDesc) (x : Resolved) : Nat × Nat :=
  match x with
  | .inside i =>
    let q := elemPos d i
    (codeAt im.bytes.get d.fmt q.base q.u, match q.scale with
      | some a => (im.bytes.get a).toNat
      | none => 127)
  | _ => (0, 127)

/-- Read a tile of a tensor by resolved accesses. A row whose header does not match is poisoned (R56). -/
def State.readTile (s : State) (ag : Agent) (p : Nat) (d : TensorDesc) (rows cols : Nat) (at_ : Nat → Nat → Resolved) :
    State × Except ReadStop SrcTile :=
  let cells := tileCells rows cols at_
  let (s, r) := s.readCells ag p d (cells.flatMap fun row => row)
  (s, r.map fun im =>
    { fmt := d.fmt, rows := rows, cols := cols, cells := cells.map fun row => row.map (cellCode im d),
      poison := cells.any fun row => row.any fun x => match x with
        | .inside i => (imageVal im d.fmt (elemPos d i)).2
        | _ => false })

/-- The index of an element with an outer index, for a tensor that may leave the batch out. -/
def batchIndex (d : TensorDesc) (x y b : Nat) : List Int :=
  if d.ndim ≥ 3 then [x, y, b] else if d.ndim = 2 then [x, y] else [x]

/-! ## Writing a tile to a tensor -/

/-- The writes of a tile at row `r0` and column `c0` of the plane `outer` of a tensor: its elements within the extents, the
padding at the tensor's edges as zero (R49), and the headers and reserved bytes of scaled rows (R53, R55). Only the rows that
`pick` names. Where the tile begins within a block of a tensor of an MX format, the spec does not say whose scale the block
gets: it gets that of the last of the tile's own blocks that has an element in it (DESIGN CHOICE, log 151). -/
def tileWrites (d : TensorDesc) (r0 c0 : Nat) (outer : List Nat) (t : Tile) (rowTag : Nat) (pick : Nat → Bool) : BitWrites :=
  let rows := tagRows t.tag
  let cols := tagCols t.tag
  let e0 := d.ext.getD 0 1
  let e1 := d.ext1
  let cEnd := if c0 + cols ≥ e0 then padEnd d e0 else c0 + cols
  let rEnd := if r0 + rows < e1 then r0 + rows else if d.layout = 2 then ceilDiv e1 64 * 64 else e1
  let inside (r c : Nat) : Bool := decide (r < r0 + rows) && decide (c < c0 + cols) && decide (c < e0) && decide (r < e1)
  let m : BitWrites := ((List.range (rEnd - r0)).filter pick).foldl (fun m i => (List.range (cEnd - c0)).foldl (fun m j =>
    let r := r0 + i
    let c := c0 + j
    let code := if inside r c then codeAt t.data.get t.fmt 0 (64 * i + j) else 0
    let scale := if inside r c then (t.data.get (tileData t.fmt + 2 * i + j / 32)).toNat else 0
    putElem m d (c :: r :: outer) code
      (if isMx d.fmt && (decide (c % 32 = 0) || (decide (j % 32 = 0) && inside r c)) then some scale else none)) m) []
  if d.layout = 3 then
    let e := rowElems d.fmt
    ((List.range (min rows (e1 - r0))).filter pick).foldl (fun m i =>
      (List.range (ceilDiv (min e0 (c0 + cols)) e - c0 / e)).foldl (fun m k =>
        let n := c0 / e + k
        let q := elemPos d (n * e :: (r0 + i) :: outer)
        let m := rowReserve m d.fmt q.base
        match q.header with
        | some h => putBits m h (2 ^ 64 - 1) (rowHeader d.fmt (ceilDiv (min e (e0 - n * e)) 128) rowTag) 8
        | none => m) m) m
  else m

/-- The writes of a tile that stay (R62): row by row where lines of the tensor share bytes. -/
def State.keptTile (s : State) (d : TensorDesc) (r0 c0 : Nat) (outer : List Nat) (t : Tile) (rowTag : Nat) : BitWrites :=
  if linesApart d then tileWrites d r0 c0 outer t rowTag fun _ => true
  else
    let e1 := d.ext1
    let line (i : Nat) : Nat :=
      if d.ndim ≥ 2 then lineNumber ((d.ext.take d.ndim).drop 1) (min (r0 + i) (e1 - 1) :: outer) else 0
    (List.range 128).foldl (fun m i =>
      mergeWrites m (s.keptWrites d (line i) (tileWrites d r0 c0 outer t rowTag fun k => decide (k = i)))) []

/-- Write a tile to a tensor; a poisoned tile is written poisoned (R93). The address of a word that was refused. -/
def State.writeTile (s : State) (ag : Agent) (p : Nat) (d : TensorDesc) (r0 c0 : Nat) (outer : List Nat) (t : Tile)
    (rowTag : Nat) : State × Option Nat :=
  let m := s.keptTile d r0 c0 outer t rowTag
  s.writeBits ag p m (if tagPoison t.tag then writtenWords m else [])

/-! ## A slice (R107) -/

/-- The range of slice `i` along an extent. -/
def sliceRange (extent count i : Nat) : Nat × Nat :=
  let n := ceilDiv extent count
  (min extent (i * n), min extent ((i + 1) * n))

/-- Starts of steps of `n` over a range. -/
def stepsOf (lo hi n : Nat) : List Nat := (List.range (ceilDiv (hi - lo) n)).map fun i => lo + i * n

/-- The ranges of rows, columns and batches of slice `i`. -/
def LayerSeq.ranges (q : LayerSeq) (i : Nat) : (Nat × Nat) × (Nat × Nat) × (Nat × Nat) :=
  match q.splitAxis with
  | 0 => (sliceRange q.m q.splitCount i, (0, q.n), (0, q.batch))
  | 1 => ((0, q.m), sliceRange q.n q.splitCount i, (0, q.batch))
  | _ => ((0, q.m), (0, q.n), sliceRange q.batch q.splitCount i)

/-- The output tiles of a slice in the order of LOOP_ORDER, batch by batch. -/
def LayerSeq.sliceTiles (q : LayerSeq) (i : Nat) : List (Nat × Nat × Nat) :=
  let ((mlo, mhi), (nlo, nhi), (blo, bhi)) := q.ranges i
  let ms := stepsOf mlo mhi q.tileM
  let ns := stepsOf nlo nhi q.tileN
  (stepsOf blo bhi 1).flatMap fun b =>
    if q.loopOrder = 0 || q.loopOrder = 2 then ms.flatMap fun m => ns.map fun n => (b, m, n)
    else ns.flatMap fun n => ms.map fun m => (b, m, n)

/-- The TGEMV groups of a slice: up to 16 output rows each, where the slice holds a column of the tower's. -/
def LayerSeq.sliceGroups (q : LayerSeq) (i : Nat) : List (Nat × Nat × Nat) :=
  let ((mlo, mhi), (_, nhi), (blo, bhi)) := q.ranges i
  if q.towerMode = 0 || nhi ≤ q.n - q.towerN then []
  else (stepsOf blo bhi 1).flatMap fun b => (stepsOf mlo mhi 16).map fun m => (b, m, min 16 (mhi - m))

/-- Queue ends named by QSPECs that are not zero. -/
def LayerSeq.qspecEnds (q : LayerSeq) : List Nat :=
  q.queueFormats.filterMap fun e => if q.w e.1 = 0 then none else some (qspecOf (q.w e.1)).1

/-- The kind that the sequencer binds a queue of an operand in (R107, step 1). -/
def State.seqKind (s : State) (p : Nat) (q : LayerSeq) (i : Nat) : BindKind :=
  let kindOf (d : Option TensorDesc) : BindKind :=
    match d with
    | some x => match s.region p x.base with
      | .scratch _ _ => .cupolaIn
      | _ => .dmaIn
    | none => .dmaIn
  match i with
  | 32 => kindOf q.aDesc
  | 33 => kindOf q.bDesc
  | 34 => .dmaOut
  | 35 => .towerReturn
  | 36 => kindOf q.biasDesc
  | _ => kindOf q.residDesc

/-- Bind the queue of one operand: at its QSPEC's place, or at an end and a place that the sequencer chooses (DESIGN CHOICE,
log 37). The end; none where the region leaves the tile store or overlaps a bound queue's, or there is no place (R90). Two
QSPECs that name one end: the later binding replaces the earlier (DESIGN CHOICE, log 159). -/
def State.seqBind (s : State) (core p : Nat) (q : LayerSeq) (e : Nat × Format) : State × Option Nat :=
  let c := s.core core
  let bind (n depth base : Nat) : State × Option Nat :=
    (s.setCore core (c.setQueue n { kind := s.seqKind p q e.1, fmt := e.2, depth := depth, base := base, bySeq := true }),
      some n)
  let v := q.w e.1
  if v ≠ 0 then
    let (n, depth, base) := qspecOf v
    let bytes := depth * tileBytes e.2
    if base + bytes ≤ tileStoreBytes && !c.hitsQueue base bytes (some n) then bind n depth base else (s, none)
  else
    let free := (List.range 32).filter fun n => !(c.queue n).bound && !q.qspecEnds.contains n
    match free[s.draw 6 e.1 % free.length]?, c.place (tileBytes e.2) none with
    | some n, some base => bind n 1 base
    | _, _ => (s, none)

/-- Bind the queues of operands in order: their ends by QSPEC word, or none at the first that cannot be bound. -/
def State.seqBinds (s : State) (core p : Nat) (q : LayerSeq) : List (Nat × Format) → State × Option (List (Nat × Nat))
  | [] => (s, some [])
  | e :: r => match s.seqBind core p q e with
    | (s, none) => (s, none)
    | (s, some n) =>
      let (s, l) := s.seqBinds core p q r
      (s, l.map fun l => (e.1, n) :: l)

/-- The operands in the order of their binding: those with a QSPEC of their own first. -/
def LayerSeq.bindOrder (q : LayerSeq) : List (Nat × Format) :=
  (q.queueFormats.filter fun e => decide (q.w e.1 ≠ 0)) ++ q.queueFormats.filter fun e => decide (q.w e.1 = 0)

/-- A tile passed through the queue of an operand: pushed, and popped by whoever takes it (R92, R107). -/
def Core.pass (c : Core) (word : Nat) (t : Tile) : Core :=
  match c.seq.run with
  | some r => match r.endOf word with
    | some n => (c.push n t.data t.tag).pop n
    | none => c
  | none => c

/-- The parameter block of a group's TGEMV (R153, R206, Tables 04-16 and 06-5). -/
def LayerSeq.tgemvBlock (q : LayerSeq) (g : Nat × Nat × Nat) : List Byte :=
  let first := g.1 * q.m + g.2.1
  leBytes 4 q.towerBound ++ leBytes 4 (q.towerClass + 16 * q.roundCode + 64 * b2n q.ovf) ++ leBytes 8 0 ++ leBytes 4 0 ++
  leBytes 4 (first * 512 + (g.2.2 - 1)) ++ leBytes 8 (q.d 26) ++ leBytes 8 0 ++ leBytes 8 (q.d 16) ++
  leBytes 8 q.k ++ leBytes 8 q.towerN

/-- Issue the slice's TGEMVs while the tower's queue has room (R107, step 5); a core stopped for a pre-emption issues none
(R113, R201). -/
def State.seqIssue (s : State) (core : Nat) : Nat → State
  | 0 => s
  | n + 1 =>
    let c := s.core core
    let t := Config.groupOfCore core
    match c.task, c.seq.run, c.seq.aDesc, c.seq.btDesc with
    | some task, some r, some a, some bt =>
      match r.groups with
      | [] => s
      | g :: rest =>
        let tw := s.tower t
        if tw.queue.length ≥ 64 || c.halted then s
        else
          let q := c.seq
          let cmd : TowerCmd := {
            cmd := .tgemv, params := q.tgemvBlock g, core := core, part := task.part, job := task.job,
            qret := (r.endOf 35).getD 0, retEn := true, order := tw.nextOrder,
            bySeq := some ⟨a, bt, q.winAxes, q.axisA, q.axisB, q.d 42, q.d 44⟩ }
          let s := s.setTower t { tw with queue := tw.queue ++ [cmd], nextOrder := tw.nextOrder + 1 }
          let s := s.setCore core { c with seq := { q with run := some { r with groups := rest, issued := r.issued ++ [g] } } }
          s.seqIssue core n
    | _, _, _, _ => s

/-- The number of groups that a slice has still to issue. -/
def State.seqWaiting (s : State) (core : Nat) : Nat :=
  match (s.core core).seq.run with
  | some r => r.groups.length
  | none => 0

/-- Whether a START runs a slice: an LCB is loaded, the index names a slice, and its range is not empty (R107). -/
def LayerSeq.starts (q : LayerSeq) (idx : Nat) : Bool :=
  let ((mlo, mhi), (nlo, nhi), (blo, bhi)) := q.ranges idx
  q.loaded && decide (idx < q.splitCount) && decide (mlo < mhi) && decide (nlo < nhi) && decide (blo < bhi)

/-- The end of a slice's range along SPLIT_AXIS. -/
def LayerSeq.sliceHi (q : LayerSeq) (idx : Nat) : Nat :=
  match q.splitAxis with
  | 0 => (q.ranges idx).1.2
  | 1 => (q.ranges idx).2.1.2
  | _ => (q.ranges idx).2.2.2

/-- START's work (R107): refuse, end an empty slice at once, or bind the queues and begin. A queue that cannot be bound ends the
slice with BOUNDS and the bounds-violation trap (R90, R109). -/
def State.startSlice (s : State) (core p idx : Nat) : State :=
  let q := (s.core core).seq
  let refuse (st : Status) : State :=
    s.modCore core fun c => { c with seq := { c.seq with status := st } }.postFlag q.doneFlag
  if !q.loaded || idx ≥ q.splitCount then refuse .refused
  else if !q.starts idx then refuse .ok
  else
    let (s, ends) := s.seqBinds core p q q.bindOrder
    let r : SliceRun := match ends with
      | some l => { hi := q.sliceHi idx, tiles := q.sliceTiles idx, groups := q.sliceGroups idx, ends := l }
      | none => { hi := q.sliceHi idx, tiles := [], groups := [], status := .bounds }
    let s := s.modCore core fun c => { c with seq := { c.seq with
      run := some r, status := .ok, trap := if ends.isNone then some none else c.seq.trap } }
    let s := s.chargeCore core q.energyClass
    s.tick.seqIssue core (s.seqWaiting core)

/-! ## Tower results (R107, step 5) -/

/-- The cells of a result tile as entries of the merged results. -/
def mergeCells (g : Nat × Nat × Nat) (col : Nat) (t : RetTile) : List (Nat × Nat × Nat × Word × Bool) :=
  (List.range t.rows).flatMap fun r => (List.range t.cols).map fun c =>
    (g.1, g.2.1 + r, col + c, mget 0 t.cells (64 * r + c), t.poison)

/-- A result tile as a slot of the tower-return queue holds it. -/
def retTile (t : RetTile) : Tile :=
  ⟨towerFormat, (encodeTile towerFormat .rne false (fun _ => 0) t.rows t.cols fun r c => ofFp32 (mget 0 t.cells (64 * r + c))).1,
    mkTag t.poison t.last t.rows t.cols⟩

/-- Take a result tile of the oldest group issued, through the tower-return queue. A command that failed returns one poisoned
tile: the rest of its columns are poisoned (R154). -/
def State.seqTake (s : State) (core : Nat) (t : RetTile) : State :=
  let c := (s.core core).pass 35 (retTile t)
  match c.seq.run with
  | none => s
  | some r => match r.issued with
    | [] => s
    | g :: rest =>
      let q := c.seq
      let col := q.n - q.towerN + 64 * r.back
      let cells := if t.last && decide (col + t.cols < q.n)
        then (List.range g.2.2).flatMap fun i => (List.range (q.n - col)).map fun k => (g.1, g.2.1 + i, col + k, (0 : Word), true)
        else mergeCells g col t
      let r := { r with merged := r.merged ++ cells, issued := if t.last then rest else r.issued,
                        back := if t.last then 0 else r.back + 1 }
      let s := s.setCore core { c with seq := { q with run := some r } }
      s.seqIssue core (s.seqWaiting core)

/-! ## An output tile (R107, steps 3 to 5; R104) -/

/-- A value of a tensor with its TENSOR_SCALE, in FP32 (R39, R144). -/
def scaledFp32 (d : TensorDesc) (v : Val) : Val × FpFlags :=
  roundFp32 (if perTensor d.fmt then (mulVal v (scaleVal1 d)).1 else v)

/-- One stage of the epilogue on a grid (Table 03-15). -/
def epiStage (q : LayerSeq) (op arg : Nat) (bias resid : Nat → Nat → Val × FpFlags) (free : Nat → Nat)
    (rows cols : Nat) (g : Grid) : Grid × FpFlags :=
  let on (f : Nat → Nat → Val → Val × FpFlags) : Grid × FpFlags := mkGrid rows cols fun r c => f r c (gridAt g r c)
  match op with
  | 1 => on fun r c x => vec2 addFp32 (x, {}) (bias r c)
  | 2 => on fun r c x =>
      if arg = 0 then (maxVal x (.fin false 0 0), {})
      else if arg = 1 then approxGelu (free (64 * r + c)) x
      else approxSilu (free (64 * r + c)) x
  | 3 => on fun _ _ x => mulFp32 x q.epiConst
  | 4 => on fun r c x => vec2 addFp32 (x, {}) (resid r c)
  | 5 => match q.cDesc with
    | none => (g, {})
    | some d =>
      let (t, fl) := encodeTile d.fmt q.round q.ovf free rows cols fun r c => descale d (gridAt g r c)
      let tile : Tile := ⟨d.fmt, t, mkTag false false rows cols⟩
      let (g2, f2) := mkGrid rows cols fun r c => scaledFp32 d (tile.val r c)
      (g2, orFlags fl f2)
  | _ => (g, {})

/-- The epilogue from stage `i` on, until op 0 (R104). -/
def epilogue (q : LayerSeq) (bias resid : Nat → Nat → Val × FpFlags) (free : Nat → Nat) (rows cols : Nat) :
    Nat → Nat → Grid → Grid × FpFlags
  | 0, _, g => (g, {})
  | n + 1, i, g =>
    let (op, arg) := q.epi i
    if op = 0 then (g, {})
    else
      let (g, f1) := epiStage q op arg bias resid (fun k => free (8192 * (i + 1) + k)) rows cols g
      let (g, f2) := epilogue q bias resid free rows cols n (i + 1) g
      (g, orFlags f1 f2)

/-- The agent of a layer sequencer's accesses to a tensor: its core (R263); host memory is reached through the home group's DMA
engine alone (Table 05-3). -/
def State.seqAgent (s : State) (core p : Nat) (d : TensorDesc) : Agent :=
  match s.region p d.base with
  | .hostWindow _ => .dma (Config.groupOfCore core)
  | _ => .core core

/-- Stream a tile of an operand through its queue (R107, step 2). -/
def State.seqStream (s : State) (core p word : Nat) (d : TensorDesc) (rows cols : Nat) (at_ : Nat → Nat → Resolved) :
    State × Except ReadStop SrcTile :=
  match s.readTile (s.seqAgent core p d) p d rows cols at_ with
  | (s, .error e) => (s, .error e)
  | (s, .ok t) => (s.modCore core fun c => c.pass word (t.pack false).1, .ok t)

/-- The index of A's element at reduction index `k` and output row `m`, through the window of a CONV. -/
def LayerSeq.aAt (q : LayerSeq) (a : TensorDesc) (k m bt : Nat) : Resolved :=
  let n := (winExtents a q.winAxes q.axisA q.axisB (q.d 42) (q.d 44)).length
  clampRead a (winSource a q.winAxes q.axisA q.axisB (q.d 42) (q.d 44) (if n ≥ 3 then [k, m, bt] else [k, m]))

/-- The matrix work of an output tile: K steps from step `i` on, each an MMAC into the bank. -/
def State.seqMacs (s : State) (core p : Nat) (q : LayerSeq) (a b : TensorDesc) (bt m n rows cols : Nat) :
    Nat → Nat → AccBank → FpFlags → State × Except ReadStop (AccBank × FpFlags)
  | 0, _, acc, fl => (s, .ok (acc, fl))
  | k + 1, i, acc, fl =>
    let lo := i * q.tileK
    let w := min q.tileK (q.k - lo)
    match s.seqStream core p 32 a rows w fun r c => q.aAt a (lo + c) (m + r) bt with
    | (s, .error e) => (s, .error e)
    | (s, .ok x) => match s.seqStream core p 33 b cols w fun r c => clampRead b (batchIndex b (lo + c) (n + r) bt) with
      | (s, .error e) => (s, .error e)
      | (s, .ok y) =>
        let (acc, f) := macRows acc (macClass a.fmt) x.lines y.lines (x.poison || y.poison)
          (fun j => s.draw 7 (i * 65536 + j))
        s.seqMacs core p q a b bt m n rows cols k (i + 1) acc (orFlags fl f)

/-- A tile of an operand shaped as the output, streamed through the queue of `word`. -/
def State.seqPlane (s : State) (core p word : Nat) (d : TensorDesc) (bt m n rows cols : Nat) :
    State × Except ReadStop SrcTile :=
  s.seqStream core p word d rows cols fun r c => clampRead d (batchIndex d (n + c) (m + r) bt)

/-- The sums of squares of the rows of A over all N columns, 64 columns at a time (NORM, Table 03-14a). -/
def State.seqSquares (s : State) (core p : Nat) (q : LayerSeq) (d : TensorDesc) (bt m rows : Nat) :
    Nat → Nat → List (Val × FpFlags) → Bool → State × Except ReadStop (List (Val × FpFlags) × Bool)
  | 0, _, acc, bad => (s, .ok (acc, bad))
  | k + 1, i, acc, bad =>
    let w := min 64 (q.n - 64 * i)
    match s.seqPlane core p 32 d bt m (64 * i) rows w with
    | (s, .error e) => (s, .error e)
    | (s, .ok t) =>
      let acc := acc.zipIdx.map fun x =>
        sumFp32 (x.1 :: shuffle (fun j => s.draw 7 (i * 65536 + 64 * x.2 + j)) ((List.range w).map fun c =>
          let v := scaledFp32 d (t.val x.2 c)
          vec2 mulFp32 v v))
      s.seqSquares core p q d bt m rows k (i + 1) acc (bad || t.poison)

/-- The quotient of an FP32 value by a count, rounded once. -/
def divCount (v : Val) (n : Nat) : Val × FpFlags :=
  match v with
  | .fin s m e => if m = 0 then (v, {}) else roundFp32 (quotVal s m n e)
  | x => (x, {})

/-- An output tile before the epilogue: the values with their flags, whether an input was poisoned, and the accumulator bank
that the matrix unit used. -/
structure Product where
  grid : Grid
  fp : FpFlags
  bad : Bool
  bank : Option AccBank := none
  deriving DecidableEq, Repr

/-- GEMM and CONV: the matrix unit's columns and the tower's (R107, steps 3 and 5), scaled by the TENSOR_SCALEs (R149). -/
def State.seqGemm (s : State) (core p : Nat) (q : LayerSeq) (r : SliceRun) (a : TensorDesc) (b m n rows cols : Nat) :
    State × Except ReadStop Product :=
  let mc := min cols (q.n - q.towerN - n)
  let (s, acc) : State × Except ReadStop (AccBank × FpFlags) := match q.bDesc with
    | some bd => if mc = 0 then (s, .ok (({} : AccBank), ({} : FpFlags)))
                 else s.seqMacs core p q a bd b m n rows mc (ceilDiv q.k q.tileK) 0 {} {}
    | none => (s, .ok ({}, {}))
  (s, acc.map fun (acc, fl) =>
    let sc : Val := match q.bDesc with
      | some bd => (roundFp32 (mulVal (scaleVal1 a) (scaleVal1 bd)).1).1
      | none => .fin false 1 0
    let (g, f2) := mkGrid rows cols fun i j =>
      if j < mc then mulFp32 (acc.at i j) sc
      else match mergedAt r b (m + i) (n + j) with
        | some (w, _) => (ofFp32 w, {})
        | none => (.fin false 0 0, {})
    let bad := acc.poison || (List.range rows).any fun i => (List.range cols).any fun j =>
      decide (mc ≤ j) && (match mergedAt r b (m + i) (n + j) with
        | some (_, z) => z
        | none => false)
    { grid := g, fp := orFlags fl f2, bad := bad, bank := if mc = 0 then none else some acc })

/-- NORM: A times the reciprocal root of the mean of its squares, times B (Table 03-14a). -/
def State.seqNorm (s : State) (core p : Nat) (q : LayerSeq) (a bd : TensorDesc) (t : SrcTile) (b m n rows cols : Nat) :
    State × Except ReadStop Product :=
  match s.seqSquares core p q a b m rows (ceilDiv q.n 64) 0 (List.replicate rows (.fin false 0 0, {})) false with
  | (s, .error e) => (s, .error e)
  | (s, .ok (sums, bad)) =>
    let (s, tb) := s.seqStream core p 33 bd 1 cols fun _ c => clampRead bd [(n + c : Nat)]
    (s, tb.map fun tb =>
      let norm (i : Nat) : Val × FpFlags :=
        let y := vec1 (fun v => divCount v q.n) (sums.getD i (.fin false 0 0, {}))
        vec1 (approxRsq (s.draw 8 i)) (vec2 addFp32 y (q.epiConst, {}))
      let rs := (List.range rows).map norm
      let (g, fl) := mkGrid rows cols fun i j =>
        vec2 mulFp32 (vec2 mulFp32 (scaledFp32 a (t.val i j)) (rs.getD i (.fin false 0 0, {}))) (scaledFp32 bd (tb.val 0 j))
      { grid := g, fp := fl, bad := bad || t.poison || tb.poison })

/-- An output tile before the epilogue (Table 03-14a). -/
def State.seqProduct (s : State) (core p : Nat) (q : LayerSeq) (r : SliceRun) (a : TensorDesc) (b m n rows cols : Nat) :
    State × Except ReadStop Product :=
  if q.multiplies then s.seqGemm core p q r a b m n rows cols
  else match s.seqPlane core p 32 a b m n rows cols with
    | (s, .error e) => (s, .error e)
    | (s, .ok t) => match q.bDesc with
      | some bd => s.seqNorm core p q a bd t b m n rows cols
      | none =>
        let (g, fl) := mkGrid rows cols fun i j => scaledFp32 a (t.val i j)
        (s, .ok { grid := g, fp := fl, bad := t.poison })

/-- An optional operand of the epilogue: the bias, one row, or the residual. -/
def State.seqOperand (s : State) (core p : Nat) (d : Option TensorDesc) (bias : Bool) (b m n rows cols : Nat) :
    State × Except ReadStop (Option (TensorDesc × SrcTile)) :=
  match d with
  | none => (s, .ok none)
  | some d =>
    let (s, t) := if bias
      then s.seqStream core p 36 d 1 cols fun _ c =>
        clampRead d (if d.ndim ≥ 2 then [(n + c : Nat), 0] else [(n + c : Nat)])
      else s.seqPlane core p 37 d b m n rows cols
    (s, t.map fun t => some (d, t))

/-- A value of an optional operand. -/
def operandVal (x : Option (TensorDesc × SrcTile)) (r c : Nat) : Val × FpFlags :=
  match x with
  | some (d, t) => scaledFp32 d (t.val r c)
  | none => (.fin false 0 0, {})

/-- Whether an operand of the epilogue that a stage uses is poisoned. -/
def LayerSeq.operandBad (q : LayerSeq) (x : Option (TensorDesc × SrcTile)) (op : Nat) : Bool :=
  match x with
  | some (_, t) => t.poison && (List.range 4).any fun i => decide ((q.epi i).1 = op)
  | none => false

/-- The slice stops: its tiles so far stay (Table 03-16). With `trap`, the core will take the bounds-violation trap at the address
(R109, R111). -/
def State.seqStop (s : State) (core : Nat) (st : Status) (trap : Option (Option Nat)) : State :=
  s.modCore core fun c => { c with seq := { c.seq with
    trap := if trap.isSome then trap else c.seq.trap,
    run := c.seq.run.map fun r => { r with tiles := [], groups := [], status := st } } }

/-- A slice whose read stopped: BOUNDS with the trap, or UNCORRECTED where host memory did not answer, a path that cannot carry
poison (R109, R110). -/
def State.seqFault (s : State) (core : Nat) : ReadStop → State
  | .outside a | .refused a => s.seqStop core .bounds (some (some a))
  | .failed => s.seqStop core .uncorrected none

/-- The finished tile goes through C's queue to memory. A poisoned tile cannot be written to host memory: the slice ends
UNCORRECTED (R109; DEDUCED, log 160). -/
def State.seqWrite (s : State) (core p : Nat) (cd : TensorDesc) (b m n : Nat) (t : Tile) : State :=
  let ag := s.seqAgent core p cd
  let s := s.modCore core fun c => c.pass 34 t
  if tagPoison t.tag && decide (ag ≠ .core core) then s.seqStop core .uncorrected none
  else match s.writeTile ag p cd m n (if cd.ndim ≥ 3 then [b] else []) t 0 with
    | (s, none) => s
    | (s, some a) => s.seqFault core (.refused a)

/-- Run one output tile of the slice: its product, its epilogue, its conversion to C's format and its write. -/
def State.seqTile (s : State) (core p : Nat) (q : LayerSeq) (r : SliceRun) (b m n : Nat) : State :=
  let rows := min q.tileM ((if q.splitAxis = 0 then r.hi else q.m) - m)
  let cols := min q.tileN ((if q.splitAxis = 1 then r.hi else q.n) - n)
  match q.aDesc, q.cDesc with
  | some a, some cd => match s.seqProduct core p q r a b m n rows cols with
    | (s, .error e) => s.seqFault core e
    | (s, .ok prod) => match s.seqOperand core p q.biasDesc true b m n rows cols with
      | (s, .error e) => s.seqFault core e
      | (s, .ok bias) => match s.seqOperand core p q.residDesc false b m n rows cols with
        | (s, .error e) => s.seqFault core e
        | (s, .ok resid) =>
          let bad := prod.bad || q.operandBad bias 1 || q.operandBad resid 4
          let (g, f2) := epilogue q (fun _ c => operandVal bias 0 c) (operandVal resid) (fun i => s.draw 9 i) rows cols 4 0 prod.grid
          let (data, f3) := encodeTile cd.fmt q.round q.ovf (fun i => s.rounds i) rows cols fun i j => descale cd (gridAt g i j)
          let s := s.tick.modCore core fun c =>
            let c := match prod.bank with
              | some k => c.setBank (r.ran % q.accBanks) k
              | none => c
            { (c.orFp (orFlags prod.fp (orFlags f2 f3))) with
              seq := { c.seq with run := c.seq.run.map fun r => { r with
                poisoned := r.poisoned || bad, tiles := r.tiles.tail, ran := r.ran + 1 } } }
          s.seqWrite core p cd b m n ⟨cd.fmt, data, mkTag bad false rows cols⟩
  | _, _ => s

/-! ## Result tiles (R199, R201) -/

/-- Whether the next result tile of a command can be pushed: its turn has come, its job's task stands on the core, and the queue
end has a free slot; the layer sequencer takes its own tiles. -/
def State.pushDue (s : State) (t : Nat) (r : Running) : Bool :=
  let c := r.cmd
  let q := (s.core c.core).queue c.qret
  decide (r.tiles ≠ []) && (s.tower t).returnsNext c && s.holdsTask c.part c.job c.core &&
  (c.bySeq.isSome || (decide (q.kind = .towerReturn) && q.room))

end Sys2Proof.Machine
end

