-- ==== Sys2Proof/Machine/Standing.lean ====
section
/-! DEFINITION. The standing of jobs and the start of a pre-emption (R299, R305 to R310, R314). -/

namespace Sys2Proof.Machine

/-- A word of a job's core set. -/
def State.coreWord (s : State) (p j w : Nat) : Nat := s.reg (jobBase p j + Off.pjobCores0 + 4 * w)

/-- Whether two jobs are rivals: their core sets share a core (R300). -/
def State.rivals (s : State) (p j k : Nat) : Bool :=
  decide (j ≠ k) && (List.range 9).any fun w => decide (s.coreWord p j w &&& s.coreWord p k w ≠ 0)

/-- The jobs of a partition. -/
def jobList : List Nat := List.range 64

/-- Whether a job is ready: it has a command in progress or pending (R306); not while its model loads (R316). -/
def State.isReady (s : State) (p j : Nat) : Bool :=
  let b := s.job p j
  match b.state with
  | .ready | .resident | .preempted => true
  | .idle => b.cmd.isSome || decide (s.pendingEntries p j ≠ 0)
  | .disabled | .faulted | .killing | .loading => false

/-- Whether a job holds cores: resident, or being killed or faulted with tasks left. -/
def State.holdsCores (s : State) (p j : Nat) : Bool :=
  decide ((s.job p j).state = .resident) || s.cores.any fun e => s.holdsTask p j e.1

/-- SRV_CTL.ENABLE. -/
def State.serves (s : State) (p : Nat) : Bool := s.regBit (partBase p + Off.srvCtl) 0

/-- SRV_CTL.GEN_RING. -/
def State.genRing (s : State) (p : Nat) : Nat := s.regField (partBase p + Off.srvCtl) 4 6

/-- SRV_CTL.PROMPT_RING. -/
def State.promptRing (s : State) (p : Nat) : Nat := s.regField (partBase p + Off.srvCtl) 10 6

/-- Whether a job counts as URGENT by itself (R306, R307). -/
def State.ownUrgent (s : State) (p j : Nat) : Bool :=
  s.regBit (jobBase p j + Off.pjobCtl) 16 || (s.serves p && decide (s.genRing p = j))

/-- SHARES of a job. -/
def State.shares (s : State) (p j : Nat) : Nat := s.regField (jobBase p j + Off.pjobCtl) 0 16

/-- The job's own virtual time as a fraction (R306). -/
def State.ownTime (s : State) (p j : Nat) : Nat × Nat :=
  let b := s.job p j
  let sh := max 1 (s.shares p j)
  (b.account.toNat * b.vden + b.vnum * sh, sh * b.vden)

/-- How many donations lead to a job (R314). -/
def State.standDepth (s : State) (p : Nat) : Nat → Nat → Nat
  | 0, _ => 0
  | n + 1, j => match (s.job p j).donor with
    | some (w, _) => s.standDepth p n w + 1
    | none => 0

/-- Comparison of fractions. -/
def fracLt (a b : Nat × Nat) : Bool := decide (a.1 * b.2 < b.1 * a.2)

/-- Whether job `j` stands before job `k` (R306). Of jobs that run with one job's standing, the one that the donation reached last
goes first: it is to become resident while its giver waits (R314). -/
def State.before (s : State) (p j k : Nat) : Bool :=
  let a := s.standsFor p 4 j
  let b := s.standsFor p 4 k
  let za := decide (s.shares p a = 0)
  let zb := decide (s.shares p b = 0)
  let ua := s.ownUrgent p a
  let ub := s.ownUrgent p b
  if za != zb then zb
  else if ua != ub then ua
  else if !za && fracLt (s.ownTime p a) (s.ownTime p b) then true
  else if !za && fracLt (s.ownTime p b) (s.ownTime p a) then false
  else if a = b && s.standDepth p 4 j ≠ s.standDepth p 4 k then decide (s.standDepth p 4 k < s.standDepth p 4 j)
  else decide (j < k)

/-- A job put into a list in standing order. -/
def State.insertJob (s : State) (p j : Nat) : List Nat → List Nat
  | [] => [j]
  | k :: r => if s.before p j k then j :: k :: r else k :: s.insertJob p j r

/-- Jobs in standing order. -/
def State.standing (s : State) (p : Nat) (l : List Nat) : List Nat := l.foldl (fun r j => s.insertJob p j r) []

/-- The least virtual time among the ready jobs other than `j`. -/
def State.leastTime (s : State) (p j : Nat) : Option (Nat × Nat) :=
  (jobList.filter fun k => decide (k ≠ j) && s.isReady p k && decide (s.shares p k ≠ 0)).foldl (fun m k =>
    let t := s.ownTime p k
    match m with
    | some x => if fracLt t x then some t else some x
    | none => some t) none

/-- A job becomes ready: its virtual time is raised to the least among the ready jobs (R306). -/
def State.becomeReady (s : State) (p j : Nat) : State :=
  match s.leastTime p j with
  | none => s.modJob p j fun b => { b with state := .ready }
  | some t =>
    let own := s.ownTime p j
    if fracLt own t then
      let acct := (s.job p j).account.toNat
      let sh := max 1 (s.shares p j)
      s.modJob p j fun b => { b with state := .ready, vnum := t.1 * sh - acct * t.2, vden := t.2 * sh }
    else s.modJob p j fun b => { b with state := .ready }

/-- The job's state once nothing runs: ready with entries pending, else IDLE. -/
def State.settleJob (s : State) (p j : Nat) : State :=
  if (s.job p j).cmd.isSome || s.pendingEntries p j ≠ 0 then s.becomeReady p j
  else s.modJob p j fun b => { b with state := .idle }

/-- The core that counts a job's slice: the lowest of its core set (R309). -/
def State.sliceCore (s : State) (p j : Nat) : Nat := (s.coreSet p j).headD 0

/-- The local cycle count of a job's slice core. -/
def State.sliceCycles (s : State) (p j : Nat) : Nat := (s.core (s.sliceCore p j)).cycles.toNat

/-- A job's slice: PSLICE less its outstanding overrun, at least a quarter of PSLICE (R309). -/
def State.sliceLen (s : State) (p j : Nat) : Nat :=
  let n := max 54000 (s.preg p Off.pslice)
  max (n - (s.job p j).overrun) (n / 4)

/-- The address of a job's context area (R310). -/
def State.ctxBase (s : State) (p j : Nat) : Nat :=
  s.reg (jobBase p j + Off.pjobCtxLo) + 2 ^ 32 * s.reg (jobBase p j + Off.pjobCtxHi)

/-- Whether a job may be pre-empted (R310). -/
def State.preemptible (s : State) (p j : Nat) : Bool :=
  decide ((s.job p j).state = .resident) && !(s.job p j).preempting && decide (s.ctxBase p j ≠ 0)

/-- Whether a rival of better standing waits for a resident job's cores. -/
def State.betterWaits (s : State) (p j : Nat) : Bool :=
  jobList.any fun k => s.rivals p j k && s.isReady p k && decide ((s.job p k).state ≠ .resident) && s.before p k j

/-- A job that cannot be pre-empted gives up its cores to a waiting rival of better standing once it has no command in progress
(R310). -/
def State.yieldCores (s : State) (p j : Nat) : State :=
  let b := s.job p j
  if b.state = .resident && decide (s.ctxBase p j = 0) && b.cmd.isNone && s.betterWaits p j then
    s.modJob p j fun b => { b with state := .ready, overrun := 0 }
  else s

/-! ## Placements and reservations (R303, R324) -/

/-- Whether a core can take a task of the job now, but for tolls: free, in service, and not being replaced. -/
def State.coreFree (s : State) (c : Nat) : Bool :=
  let k := s.core c
  let g := s.group (Config.groupOfCore c)
  k.task.isNone && k.phys.isSome && !k.retired && k.testing.isNone &&
  !g.dispatchHeld && !g.outOfService && !g.testing && decide (g.pstate ≠ .g4)

/-- The free cores that the unplaced tasks of a job are to take, lowest first (R303). -/
def State.placements (s : State) (p j : Nat) : List Nat :=
  let b := s.job p j
  match b.cmd with
  | some r =>
    if b.state = .resident && !b.preempting && !b.held && (!r.modelEn || r.modelUp) then
      ((s.coreSet p j).filter fun c => s.coreFree c).take (r.ntasks - r.placed)
    else []
  | none => []

/-- Whether cores of a job wait for tolls in a group: held there, or free for a task that is not placed. -/
def State.waitsIn (s : State) (p j g : Nat) : Bool :=
  ((s.job p j).held && (homeCores g).any fun c => s.holdsTask p j c) ||
  (s.placements p j).any fun c => decide (Config.groupOfCore c = g)

/-- Whether a job is reserved in a group (R324). -/
def State.reserved (s : State) (p j g : Nat) : Bool := decide ((s.job p j).age ≥ s.ageLimit p) && s.waitsIn p j g

/-- Whether another job is reserved in a group, so that this one is paid nothing; of two reserved jobs the one of better standing
goes first (R324). -/
def State.shutOut (s : State) (p j g : Nat) : Bool :=
  jobList.any fun k => decide (k ≠ j) && s.reserved p k g && (!s.reserved p j g || s.before p k j)

/-- The price in quarter tolls of a placement on a core (R322). -/
def State.placePrice (s : State) (p j c : Nat) : Nat :=
  match (s.job p j).cmd with
  | some r => coreCharge (s.group (Config.groupOfCore c)).ratio r.cls
  | none => 0

/-- Whether a placement on a core can be paid now (R323, R324). -/
def State.canPlace (s : State) (p j c : Nat) : Bool :=
  s.covers (Config.groupOfCore c) (s.placePrice p j c) && !s.shutOut p j (Config.groupOfCore c)

/-- Whether a job waits for a placement that cannot be paid (R324). -/
def State.passedOver (s : State) (p j : Nat) : Bool := (s.placements p j).any fun c => !s.canPlace p j c

/-- Whether a placement of job `j` in a group is next in standing order: no job that stands before it has one there that can be
paid (R323, step 5; R324). -/
def State.placeTurn (s : State) (p j g : Nat) : Bool :=
  jobList.all fun k => decide (k = j) || !s.before p k j ||
    (match s.placements p k with
     | c :: _ => decide (Config.groupOfCore c ≠ g) || !s.canPlace p k c
     | [] => true)

/-! ## The queue that a channel serves (R345) -/

/-- Whether a queue end is bound to channel `ch`, to be filled (`inward`) or emptied. -/
def Queue.serves (q : Queue) (ch : Nat) (inward : Bool) : Bool :=
  decide (q.kind = if inward then .dmaIn else .dmaOut) && !q.bySeq && decide (q.param = ch)

/-- The core and the queue end that have bound a tower DMA channel. -/
def State.channelQueue (s : State) (e ch : Nat) (inward : Bool) : Option (Nat × Nat) :=
  if e < 12 then
    ((s.cores.filter fun x => decide (Config.groupOfCore x.1 = e)).flatMap fun x =>
      (x.2.queues.filter fun q => q.2.serves ch inward).map fun q => (x.1, q.1)).head?
  else none

/-- Whether a pre-empted job of the partition has saved a queue end bound to the channel. -/
def State.savedQueue (s : State) (e ch p : Nat) (inward : Bool) : Bool :=
  (s.part p).jobs.any fun j => j.2.saved.any fun x =>
    decide (Config.groupOfCore x.core = e) && x.ctx.queues.any fun q => q.2.serves ch inward

/-! ## Pre-emption (R113, R141, R309) -/

/-- Whether a job is pre-empted or being pre-empted. -/
def State.jobPaused (s : State) (p j : Nat) : Bool :=
  (s.job p j).preempting || decide ((s.job p j).state = .preempted)

/-- Whether a queue end bound to the channel, for tiles in or out, belongs to a job that is pre-empted or being pre-empted: its
core still holds it, or its saved context does. -/
def State.queuePaused (s : State) (e c : Nat) (inward : Bool) : Bool :=
  match s.channelQueue e c inward with
  | some kq => match (s.core kq.1).task with
    | some t => s.jobPaused t.part t.job
    | none => false
  | none => s.savedQueue e c (s.chan e c).part inward

/-- Whether a pre-emption holds a channel: a DMAK of the job runs it (R141), or it is bound to a queue of one of the job's cores
(R113). -/
def State.chanPaused (s : State) (e c : Nat) : Bool :=
  (match (s.chan e c).kicker with
   | .dmak _ _ j => s.jobPaused (s.chan e c).part j
   | _ => false) || s.queuePaused e c true || s.queuePaused e c false

/-- The channels that a pre-emption holds stop at their next burst boundary; those that do not hold the engine are PAUSED at once
(R113, R141, R335). -/
def State.pauseChannels (s : State) : State :=
  (List.range s.units).foldl (fun s e => (List.range 16).foldl (fun s c =>
    let ch := s.chan e c
    if s.chanPaused e c && decide ((s.engine e).busy ≠ some c) && (decide (ch.state = .running) || decide (ch.state = .parked))
    then s.setChan e c { ch with state := .paused, park := some .preempted } else s) s) s

/-- Pre-emption of a resident job begins: its cores stop between long words (R309). -/
def State.beginPreempt (s : State) (p j : Nat) : State :=
  let s := s.modJob p j fun b => { b with preempting := true, sliceEnd := s.sliceCycles p j }
  let s := (s.taskCores p j).foldl (fun s c => s.modCore c fun x => { x with halted := true }) s
  s.pauseChannels

/-- A donation ends (R314): the job returns to its own standing and is pre-empted if a better rival waits. -/
def State.endDonation (s : State) (p j : Nat) (sem : Option Nat) : State :=
  match (s.job p j).donor with
  | some (_, k) =>
    if sem = none || sem = some k then
      let s := s.modJob p j fun b => { b with donated := false, donor := none }
      if s.preemptible p j && s.betterWaits p j then s.beginPreempt p j else s.yieldCores p j
    else s
  | none => s

end Sys2Proof.Machine
end

