-- ==== Sys2Proof/Machine/Crc.lean ====
section
/-! DEFINITION. Cyclic redundancy checks: CRC-32C (R166, R355), the CRC-64 of flits (R382) and CRC-8. -/

namespace Sys2Proof.Machine

/-- `n` steps of a reflected CRC register (low bit first). -/
def crcReflect (poly : Nat) : Nat → Nat → Nat
  | 0, r => r
  | n + 1, r => crcReflect poly n (if r % 2 = 1 then r / 2 ^^^ poly else r / 2)

/-- CRC-32C of bytes: polynomial 0x1EDC6F41 reflected, all ones in and out. -/
def crc32c (bs : List Byte) : Nat :=
  bs.foldl (fun r b => crcReflect 0x82F63B78 8 (r ^^^ b.toNat)) 0xFFFFFFFF ^^^ 0xFFFFFFFF

/-- `n` steps of a CRC register of `w` bits (high bit first). -/
def crcForward (w poly : Nat) : Nat → Nat → Nat
  | 0, r => r
  | n + 1, r => crcForward w poly n (if nbit r (w - 1) then (2 * r % 2 ^ w) ^^^ poly else 2 * r % 2 ^ w)

/-- CRC-64 with the polynomial of ECMA-182 (R382): register zero at the start, no reflection, no final change
(PRESUMED, log 32). -/
def crc64 (bs : List Byte) : Nat :=
  bs.foldl (fun r b => crcForward 64 0x42F0E1EBA9EA3693 8 (r ^^^ (b.toNat * 2 ^ 56))) 0

/-- CRC-8 with polynomial 0x07, register zero at the start. -/
def crc8 (bs : List Byte) : Nat :=
  bs.foldl (fun r b => crcForward 8 0x07 8 (r ^^^ b.toNat)) 0

end Sys2Proof.Machine
end

