-- ==== Sys2Proof/Machine/StreamCode.lean ====
section
/-! DEFINITION. Stream blocks (R355 to R359), code tables (R357, Table 10-12) and KN4 blocks (R363): coding and expanding
runs of bytes. -/

namespace Sys2Proof.Machine

/-! ## Bits of a stream (R356) -/

/-- Bits of a number, low first. -/
def bitsOf : Nat → Nat → List Bool
  | 0, _ => []
  | n + 1, v => nbit v 0 :: bitsOf n (v / 2)

/-- The number of a list of bits, low first. -/
def bitsNum : List Bool → Nat
  | [] => 0
  | b :: r => b2n b + 2 * bitsNum r

/-- Bits as bytes: bit k of a stream is bit k mod 8 of byte k / 8; the last byte is filled with zero. -/
def bitBytes (l : List Bool) : List Byte := leBytes ((l.length + 7) / 8) (bitsNum l)

/-- The bits of bytes. -/
def byteBits (l : List Byte) : List Bool := l.flatMap fun b => bitsOf 8 b.toNat

/-! ## Element splits (Table 10-9) -/

/-- An element split: bytes of an element, low bit and width of its symbol, bits of its raw field. -/
structure Split where
  size : Nat
  lo : Nat
  width : Nat
  raw : Nat
  deriving DecidableEq, Repr

/-- The split of an ELEM code; none for the reserved codes. -/
def splitOf : Nat → Option Split
  | 0 => some ⟨1, 0, 8, 0⟩
  | 1 => some ⟨2, 7, 8, 8⟩
  | 2 => some ⟨2, 10, 5, 11⟩
  | 3 => some ⟨4, 23, 8, 24⟩
  | 4 => some ⟨1, 3, 4, 4⟩
  | 5 => some ⟨1, 2, 5, 3⟩
  | _ => none

/-- The symbol of an element. -/
def Split.symbol (x : Split) (v : Nat) : Nat := field v x.lo x.width

/-- The raw field of an element: its sign over the bits below the symbol. -/
def Split.rawOf (x : Split) (v : Nat) : Nat :=
  if x.raw = 0 then 0 else (v >>> (x.lo + x.width)) * 2 ^ x.lo + v % 2 ^ x.lo

/-- The element of a symbol and a raw field. -/
def Split.join (x : Split) (sym raw : Nat) : Nat :=
  (raw >>> x.lo) * 2 ^ (x.lo + x.width) + sym * 2 ^ x.lo + raw % 2 ^ x.lo

/-- The elements of bytes, little-endian. -/
def elemsOf (size : Nat) : Nat → List Byte → List Nat
  | 0, _ => []
  | n + 1, l => leNum (l.take size) :: elemsOf size n (l.drop size)

/-! ## Code tables (R357, R361) -/

/-- The first code of each length from `len` on, for `n` lengths. -/
def firstCodes (lengths : List Nat) : Nat → Nat → Nat → List Nat
  | 0, _, _ => []
  | n + 1, len, next => next :: firstCodes lengths n (len + 1) (2 * (next + lengths.count len))

/-- The code of a symbol: its length, and its value under the canonical order. -/
def codeOf (lengths : List Nat) (sym : Nat) : Nat × Nat :=
  let len := lengths.getD sym 0
  (len, (firstCodes lengths 15 1 0).getD (len - 1) 0 + (lengths.take sym).count len)

/-- The bits of a symbol's code, the most significant first. -/
def codeBits (lengths : List Nat) (sym : Nat) : List Bool :=
  let (len, c) := codeOf lengths sym
  (bitsOf len c).reverse

/-- Whether a code table is valid (R357). -/
def tableOk (lengths : List Nat) : Bool :=
  let present := lengths.filter fun n => decide (n ≠ 0)
  decide ((present.map fun n => 2 ^ (15 - n)).sum = 2 ^ 15) || decide (present = [1])

/-- The generation and lengths of a table image (Table 10-12); none where it is invalid. -/
def parseTable (bs : List Byte) : Option (Nat × List Nat) :=
  let lengths := ((bs.drop 16).take 128).flatMap fun b => [b.toNat % 16, b.toNat / 16]
  if ((bs.drop 2).take 14).any (fun b => decide (b ≠ 0)) || !tableOk lengths then none
  else some (leNum (bs.take 2), lengths)

/-- The symbol whose code starts a bit stream, and the rest: `len` bits of value `c` read so far. -/
def readSymbol (lengths : List Nat) (first : List Nat) : Nat → Nat → Nat → List Bool → Option (Nat × List Bool)
  | 0, _, _, _ => none
  | _, _, _, [] => none
  | n + 1, len, c, b :: r =>
    let c := 2 * c + b2n b
    let len := len + 1
    let base := first.getD (len - 1) 0
    if base ≤ c && c < base + lengths.count len then
      ((lengths.zipIdx.filter fun x => decide (x.1 = len))[c - base]?).map fun x => (x.2, r)
    else readSymbol lengths first n len c r

/-- `n` symbols of a bit stream, and what is left of it. -/
def readSymbols (lengths : List Nat) : Nat → List Bool → Option (List Nat × List Bool)
  | 0, l => some ([], l)
  | n + 1, l => match readSymbol lengths (firstCodes lengths 15 1 0) 15 0 0 l with
    | none => none
    | some (x, r) => (readSymbols lengths n r).map fun y => (x :: y.1, y.2)

/-- The symbol stream ended in the last byte of the payload with zero padding (R359). -/
def padOk (l : List Bool) : Bool := decide (l.length < 8) && l.all fun b => !b

/-! ## Coding (R358) -/

/-- The payload of elements under a table: none where the table lacks a symbol. -/
def codedPayload (x : Split) (lengths : List Nat) (elems : List Nat) : Option (List Byte) :=
  let syms := elems.map x.symbol
  if syms.any fun y => decide (lengths.getD y 0 = 0) then none
  else some (bitBytes (elems.flatMap fun v => bitsOf x.raw (x.rawOf v)) ++ bitBytes (syms.flatMap (codeBits lengths)))

/-- The shortest payload that the loaded slots give, the lower slot first: the slot's number, its generation, the
payload. -/
def bestPayload (slots : List (Nat × Slot)) (x : Split) (elems : List Nat) : Option (Nat × Nat × List Byte) :=
  slots.foldl (fun m e =>
    if !e.2.loaded || e.2.loading then m
    else match codedPayload x e.2.lengths elems, m with
      | some b, none => some (e.1, e.2.gen, b)
      | some b, some y => if b.length < y.2.2.length then some (e.1, e.2.gen, b) else m
      | none, _ => m) none

/-- A block's header and payload (Table 10-11). -/
def blockBytes (elem slot gen : Nat) (zero stored : Bool) (data payload : List Byte) : List Byte :=
  leBytes 4 (crc32c data) ++
  leBytes 4 (slot * 2 ^ 20 + elem * 2 ^ 16 + b2n zero * 2 ^ 14 + b2n stored * 2 ^ 13 + payload.length) ++
  leBytes 4 gen ++ leBytes 4 data.length ++ payload

/-- Code a block of 1 to 4,096 bytes (R358): header and payload, without the padding to 32. -/
def codeBlock (slots : List (Nat × Slot)) (elem : Nat) (data : List Byte) : List Byte :=
  match splitOf elem with
  | none => blockBytes elem 0 0 false true data data
  | some x =>
    if data.all fun b => decide (b = 0) then blockBytes elem 0 0 true false data []
    else match bestPayload slots x (elemsOf x.size (data.length / x.size) data) with
      | some (n, gen, b) =>
        if b.length < data.length then blockBytes elem n gen false false data b
        else blockBytes elem 0 0 false true data data
      | none => blockBytes elem 0 0 false true data data

/-- A length rounded up to a multiple. -/
def roundTo (n k : Nat) : Nat := (n + k - 1) / k * k

/-! ## Expanding (R359) -/

/-- The fields of a block header. -/
structure BlockHead where
  check : Nat
  slot : Nat
  elem : Nat
  zero : Bool
  stored : Bool
  codedLen : Nat
  gen : Nat
  ulen : Nat
  reserved : Bool
  deriving DecidableEq, Repr

/-- The header in the first 16 bytes of a block. -/
def blockHead (bs : List Byte) : BlockHead :=
  let w := leNum ((bs.drop 4).take 4)
  let g := leNum ((bs.drop 8).take 4)
  let u := leNum ((bs.drop 12).take 4)
  { check := leNum (bs.take 4), slot := field w 20 2, elem := field w 16 4, zero := nbit w 14, stored := nbit w 13,
    codedLen := field w 0 13, gen := field g 0 16, ulen := field u 0 13,
    reserved := decide (field w 22 10 ≠ 0) || nbit w 15 || decide (g ≥ 2 ^ 16) || decide (u ≥ 2 ^ 13) }

/-- Whether ULEN is within 1 to 4,096. -/
def BlockHead.ulenOk (h : BlockHead) : Bool := decide (1 ≤ h.ulen) && decide (h.ulen ≤ 4096)

/-- The table slot that a block needs: none for a STORED or a ZERO block. -/
def BlockHead.needs (h : BlockHead) : Option Nat := if h.zero || h.stored then none else some h.slot

/-- Bytes that a block occupies in a stream (R355). -/
def BlockHead.size (h : BlockHead) : Nat := roundTo (16 + h.codedLen) 32

/-- The decode of a coded payload (R356, R357). -/
def decodePayload (x : Split) (lengths : List Nat) (n : Nat) (payload : List Byte) : Option (List Byte) :=
  let rawLen := (n * x.raw + 7) / 8
  if payload.length < rawLen then none
  else
    let raws := byteBits (payload.take rawLen)
    match readSymbols lengths n (byteBits (payload.drop rawLen)) with
    | none => none
    | some (syms, rest) =>
      if !padOk rest || !padOk (raws.drop (n * x.raw)) then none
      else some (syms.zipIdx.flatMap fun y =>
        leBytes x.size (x.join y.1 (bitsNum ((raws.drop (y.2 * x.raw)).take x.raw))))

/-- Expand a block from its header and payload: none where a check of R359 fails. -/
def expandBlock (slots : List (Nat × Slot)) (h : BlockHead) (payload : List Byte) : Option (List Byte) :=
  match splitOf h.elem with
  | none => none
  | some x =>
    if h.reserved || !h.ulenOk || h.ulen % x.size ≠ 0 || (h.zero && h.stored) then none
    else
      let out : Option (List Byte) :=
        if h.zero then (if h.codedLen = 0 then some (List.replicate h.ulen 0) else none)
        else if h.stored then (if h.codedLen = h.ulen then some payload else none)
        else
          let sl := mget {} slots h.slot
          if !sl.loaded || sl.gen ≠ h.gen then none else decodePayload x sl.lengths (h.ulen / x.size) payload
      match out with
      | some b => if b.length = h.ulen && crc32c b = h.check then some b else none
      | none => none

/-! ## KN4 (R363) -/

/-- The fields of a KN4 block header (Table 10-13). -/
structure Kn4Head where
  check : Nat
  base : Nat
  fp16 : Bool
  codedLen : Nat
  reserved : Bool
  deriving DecidableEq, Repr

/-- The header in the first 8 bytes of a KN4 block. -/
def kn4Head (bs : List Byte) : Kn4Head :=
  let v := leNum (bs.take 8)
  { check := field v 32 32, base := field v 24 8, fp16 := nbit v 16, codedLen := field v 0 13,
    reserved := decide (field v 17 7 ≠ 0) || decide (field v 13 3 ≠ 0) }

/-- Bytes that a KN4 block occupies. -/
def Kn4Head.size (h : Kn4Head) : Nat := roundTo (8 + h.codedLen) 8

/-- One exponent of a KN4 symbol stream: `d` counts the one-bits read. -/
def readKn4 (base width : Nat) : Nat → Nat → List Bool → Option (Nat × List Bool)
  | 0, _, l =>
    if l.length < width then none
    else some (bitsNum (l.take width).reverse, l.drop width)
  | _, _, [] => none
  | n + 1, d, b :: r =>
    if b then readKn4 base width n (d + 1) r
    else if d ≤ base && base - d < 2 ^ width then some (base - d, r) else none

/-- `n` exponents of a KN4 symbol stream. -/
def readKn4s (base width : Nat) : Nat → List Bool → Option (List Nat × List Bool)
  | 0, l => some ([], l)
  | n + 1, l => match readKn4 base width 15 0 l with
    | none => none
    | some (e, r) => (readKn4s base width n r).map fun y => (e :: y.1, y.2)

/-- Expand a KN4 block to its 2,048 bytes: none where a check fails. -/
def expandKn4 (h : Kn4Head) (payload : List Byte) : Option (List Byte) :=
  match splitOf (if h.fp16 then 2 else 1) with
  | none => none
  | some x =>
    let rawLen := 1024 * x.raw / 8
    if h.reserved || h.codedLen = 0 || h.codedLen > 4096 || payload.length < rawLen then none
    else
      let raws := byteBits (payload.take rawLen)
      match readKn4s h.base x.width 1024 (byteBits (payload.drop rawLen)) with
      | none => none
      | some (es, rest) =>
        let out := es.zipIdx.flatMap fun y =>
          leBytes 2 (x.join y.1 (bitsNum ((raws.drop (y.2 * x.raw)).take x.raw)))
        if padOk rest && crc32c out = h.check then some out else none

end Sys2Proof.Machine
end

