-- ==== Sys2Proof/Machine/KeepOps.lean ====
section
/-! DEFINITION. The Keep's memory events (05_tower_memory.md): accesses, the frame table, repair, sanitise, migration,
evacuation's copies, temperatures and patrol scrub. -/

namespace Sys2Proof.Machine

/-! ## Accesses (R159 to R172) -/

/-- The unit that an engine id names (Table 10-7). -/
def agentOf (id : Nat) : Agent :=
  let n := id % 4096
  match id / 4096 with
  | 0 => .core n | 1 => .tower n | 2 => .dma n | 3 => .link n | 4 => .dispatcher n | 5 => .serving n | 6 => .cupola n
  | _ => .host

/-- The banked-view address of a byte of a tower. -/
def bankedAddr (t off : Nat) : Nat := 0x100000000000 + t * 0x2000000000 + off

/-- The access of a word at `32 * wordAddr` of a tower's banked window, through the frame table (R159). -/
def State.accessTower (s : State) (tower wordAddr : Nat) (engineId : BitVec 16) (access : WordAccess) (upset : Upset) : State :=
  let pl := bankedDecode tower (32 * wordAddr)
  let a := bankedAddr tower (32 * wordAddr)
  let write : Bool := decide (access ≠ .read)
  let (s, ok) := s.admitAccess (agentOf engineId.toNat) (s.owner tower) a pl write false
  if !ok then s
  else match access with
    | .read => (s.readTower pl upset).1
    | .write bytes poison => s.writeTower pl (Memory.setBytes [] 0 bytes) poison
    | .narrow off bytes => s.narrowTower pl off bytes upset

/-! ## Repair and error rates (R180, R437) -/

/-- COL_REPAIR_DONE (R437): the copy of a code-word column of a bank of a physical floor ends. -/
def execColRepairDone (tower floor bank word : Nat) (s : State) : Result :=
  if !s.runs then done s else
  let tw := s.tower tower
  let r : RowRepair := ⟨floor, bank, 0, word⟩
  if tw.colBusy.contains r then
    let used := (tw.colRepairs.filter fun x => decide (x.floor = floor) && decide (x.bank = bank)).length
    let s := s.setTower tower { tw with colBusy := tw.colBusy.erase r, colRepairs := tw.colRepairs ++ [r] }
    let (s, ok) := s.writeJournal 4 tower floor bank (word + 2 ^ 16 * used)
    done (s.logError { errOf .colRepair tw.owner 1 tower with
      physHi := floor, physLo := bank, addr := word * 2 ^ 26, detail := repairDetail (spareCols - used - 1) ok,
      cycles := tw.fclk.toNat })
  else done s

/-- CE_WINDOW_EXPIRE (R180): the count of a tracked frame returns to zero. -/
def execCeWindowExpire (tower frame : Nat) (s : State) : Result :=
  if !s.runs then done s else
  done (s.modTower tower fun tw => { tw with track := mset ⟨0, false⟩ tw.track frame ⟨0, false⟩ })

/-! ## Registers of the tower block (R160, R173, R174, R186) -/

/-- The entry that a write to half a frame table word leaves (R160, R171). -/
def frameWrite (f : Frame) (v : Nat) : Frame :=
  if f.migrating then f
  else
    { valid := nbit v 15, checked := nbit v 14, init := nbit v 13 && decide (nbit v 14 = f.checked), engineRo := nbit v 12,
      migrating := false, band := field v 0 6 }

/-- The bits of a frame table entry (Table 05-5). -/
def frameBits (f : Frame) : Nat :=
  b2n f.valid * 2 ^ 15 + b2n f.checked * 2 ^ 14 + b2n f.init * 2 ^ 13 + b2n f.engineRo * 2 ^ 12 + b2n f.migrating * 2 ^ 11 +
  f.band % 64

/-- A write to word `i` of a tower's frame table. -/
def State.writeFrames (s : State) (t i v : Nat) : State :=
  s.modTower t fun tw =>
    let lo := mget {} tw.frames (2 * i)
    let hi := mget {} tw.frames (2 * i + 1)
    (tw.setFrame (2 * i) (frameWrite lo (field v 0 16))).setFrame (2 * i + 1) (frameWrite hi (field v 16 16))

/-- FRAME_TABLE_WRITE (R160): a PF write to word `index` of the frame table. -/
def execFrameTableWrite (tower index : Nat) (value : Word) (s : State) : Result :=
  done (s.onWrite .pf (towerBase tower + Off.frameTable + 4 * index) fun s => s.writeFrames tower index value.toNat)

/-- The counts of a tower set to zero. -/
def State.clearCounts (s : State) (t : Nat) : State := s.modTower t fun tw => { tw with ceCount := 0, ueCount := 0 }

/-- CLR_COUNTS (R186): TWR_CE_COUNT and TWR_UE_COUNT return to zero. -/
def execClrCounts (tower : Nat) (s : State) : Result :=
  done (s.onWrite .pf (towerBase tower + Off.twrCtl) fun s => s.clearCounts tower)

/-- Whether the Keep accepts a sanitise (R173). -/
def State.canSanitise (s : State) (t : Nat) : Bool :=
  let tw := s.tower t
  let up := match (s.group t).pstate with
    | .g0 | .g1 | .g2 => true
    | _ => false
  decide (tw.owner = 15) && up && !(s.group t).outOfService && !tw.sanitiseBusy && tw.migration.isNone && tw.evac.isNone

/-- A write of SANITISE. -/
def State.startSanitise (s : State) (t : Nat) : State :=
  if s.canSanitise t then s.modTower t fun tw => { tw with sanitiseBusy := true }
  else s.setRegBit (towerBase t + Off.twrStat) 4 true

/-- SANITISE (R173): the zero fill of the whole tower starts, or the write is ignored with SANITISE_REFUSED. -/
def execSanitise (tower : Nat) (s : State) : Result :=
  done (s.onWrite .pf (towerBase tower + Off.twrCtl) fun s => s.startSanitise tower)

/-- Words of a tower's memory. -/
def towerWords : Nat := 17 * 64 * 65536 * 64

/-- The first physical word of a frame's band. -/
def bandStart (tw : Tower) (i : Nat) (band : Nat) : Nat :=
  wordNumber (tw.physFloor (i / 4096)) (i / 64 % 64) (band * 1024) 0

/-- Words of a frame. -/
def frameWords : Nat := 65536

/-- The whole tower zero, each valid frame in its protection type. -/
def zeroTower (tw : Tower) : Ram :=
  tw.frames.foldl (fun r e =>
    if e.2.valid && e.2.checked then r.fill (bandStart tw e.1 e.2.band) frameWords (.good 1) else r)
    (tw.ram.fill 0 towerWords (.good 0))

/-- SANITISE_DONE (R173): every word is zero in its frame's protection type, every valid entry is INIT. -/
def execSanitiseDone (tower : Nat) (s : State) : Result :=
  if !s.runs then done s else
  let tw := s.tower tower
  if tw.sanitiseBusy then
    done (s.setTower tower { tw with
      sanitiseBusy := false, ram := zeroTower tw,
      frames := mmapv {} (fun _ f => if f.valid then { f with init := true } else f) tw.frames })
  else done s

/-- The bits set in a mask of 16. -/
def popCount16 (n : Nat) : Nat := ((List.range 16).filter fun i => nbit n i).length

/-- A write of TWR_PIN: ignored with more than two bits set. -/
def State.writePin (s : State) (t v : Nat) : State :=
  if popCount16 v ≤ 2 then s.setReg (towerBase t + Off.twrPin) (v % 65536) else s

/-- TWR_PIN_WRITE (R174): the mask of the floors that keep their contents in G3. -/
def execTwrPinWrite (tower : Nat) (mask : BitVec 16) (s : State) : Result :=
  done (s.onWrite .pf (towerBase tower + Off.twrPin) fun s => s.writePin tower mask.toNat)

/-! ## Migration (R181, R182) -/

/-- The status bits of TWR_MIGRATE_STAT and TWR_EVAC_STAT: BUSY, DONE, STATUS, POISON_WORDS. -/
def moveStat (busy done : Bool) (st : Status) (poison : Nat) : Nat :=
  b2n busy * 2 ^ 31 + b2n done * 2 ^ 30 + statusCode st * 2 ^ 16 + min poison 65535

/-- Whether a destination band is the physical band of a valid entry of a frame's bank. -/
def bandTaken (tw : Tower) (frame band : Nat) : Bool :=
  (List.range 64).any fun n =>
    let f := mget {} tw.frames (frame / 64 * 64 + n)
    f.valid && decide (f.band = band)

/-- A write of GO to TWR_MIGRATE. -/
def State.startMigration (s : State) (t frame band : Nat) : State :=
  let tw := s.tower t
  let f := mget {} tw.frames frame
  let stat := towerBase t + Off.twrMigrateStat
  if tw.migration.isSome || !f.valid || bandTaken tw frame band || tw.evac.isSome then
    s.setReg stat (putField (putField (s.reg stat) 16 8 (statusCode .refused)) 30 1 1)
  else
    (s.setTower t { (tw.setFrame frame { f with migrating := true }) with migration := some ⟨frame, band⟩ }).setReg stat
      (moveStat true (s.regBit stat 30) .ok 0)

/-- TWR_MIGRATE (R181): a migration starts, or is refused. -/
def execTwrMigrate (tower : Nat) (frame : BitVec 16) (destBand : BitVec 6) (s : State) : Result :=
  done (s.onWrite .pf (towerBase tower + Off.twrMigrate) fun s =>
    (s.setReg (towerBase tower + Off.twrMigrate) (frame.toNat * 64 + destBand.toNat)).startMigration tower frame.toNat
      destBand.toNat)

/-- The place of word `i` of a logical frame. -/
def framePlace (t frame i : Nat) : Place :=
  { tower := t, floor := frame / 4096, bank := frame / 64 % 64, row := frame % 64 * 1024 + i / 64, word := i % 64, byte := 0 }

/-- Copy the word at a place to physical word `dest`: its check is reported, the source stays as it is, and a bad or
poisoned word is written poisoned (R181, R434). The count of words written poisoned goes up. -/
def State.copyWord (s : State) (pl : Place) (dest n : Nat) : State × Nat :=
  let tw := s.tower pl.tower
  let fr := tw.frameOf pl
  let w := tw.wordOf pl
  let m := tw.ram.mark w
  let f := s.inspect fr m
  let d := s.found fr w (tw.ram.word w) m f
  let s := (s.report pl f).tick
  let (mark, n) := match f with
    | .stored | .bad => (WordMark.poison (protOf fr), n + 1)
    | _ => (WordMark.good (protOf fr), n)
  (s.modTower pl.tower fun tw => { tw with ram := tw.ram.put dest d mark }, n)

/-- MIGRATION_DONE (R181): the frame's words have been copied, its entry names the new band, STATUS and DONE are set. -/
def execMigrationDone (tower : Nat) (s : State) : Result :=
  if !s.runs then done s else
  match (s.tower tower).migration with
  | none => done s
  | some m =>
    let start := bandStart (s.tower tower) m.frame m.dest
    let (s, n) := (List.range frameWords).foldl (fun x i =>
      State.copyWord x.1 (framePlace tower m.frame i) (start + i) x.2) (s, 0)
    let s := s.modTower tower fun tw =>
      { (tw.setFrame m.frame { mget {} tw.frames m.frame with band := m.dest, migrating := false }) with migration := none }
    done (s.setReg (towerBase tower + Off.twrMigrateStat) (moveStat false true (if n = 0 then .ok else .poison) n))

/-! ## Refresh, temperature, scrub (R175 to R179) -/

/-- REFRESH (R175, R177): a bank's rows are rewritten as they stand; only time passes (DESIGN CHOICE, log 20). -/
def execRefresh (_tower _floor _bank : Nat) (s : State) : Result := done s

/-- The hottest of a list of readings and its place, of several the lowest floor (DESIGN CHOICE, log 162). -/
def hottest (l : List Nat) : Nat × Nat :=
  l.zipIdx.foldl (fun m x => if x.1 > m.1 then x else m) (l.headD 0, 0)

/-- HOT after a reading of every floor (R176). -/
def hotAfter (hot : Bool) (l : List Nat) : Bool :=
  if l.any fun t => decide (t > 85) then true else if l.all fun t => decide (t ≤ 83) then false else hot

/-- TEMP_READING (R176): the Keep reads the temperature of each physical floor. -/
def execTempReading (tower : Nat) (celsius : List Nat) (s : State) : Result :=
  if !s.runs then done s else
  if celsius = [] || s.dark tower then done s
  else
    let (t, f) := hottest celsius
    done (s.modTower tower fun tw => { tw with hot := hotAfter tw.hot celsius, tempC := t, hotFloor := f })

/-- Whether the rows of a frame are scrubbed: VALID 1, INIT 1, PROT 0 (R178), and no migration of it runs (R179). -/
def Frame.scrubs (f : Frame) : Bool := f.valid && f.init && !f.checked && !f.migrating

/-- Whether the patrol scrub reads the rows of a frame: it passes over a floor that is being evacuated (R435). -/
def scrubbed (tw : Tower) (i : Nat) (f : Frame) : Bool := f.scrubs && decide (tw.evac ≠ some (i / 4096))

/-- Rows of a tower's data floors. -/
def towerRows : Nat := 16 * 64 * 65536

/-- The next row that the scrub reads from its position on, and whether it wraps on the way. -/
def nextScrub (tw : Tower) : Option (Nat × Bool) :=
  let cur := tw.scrubPos / 1024
  if scrubbed tw cur (mget {} tw.frames cur) then some (tw.scrubPos, false)
  else match tw.frames.find? fun e => decide (cur < e.1) && scrubbed tw e.1 e.2 with
    | some e => some (e.1 * 1024, false)
    | none => (tw.frames.find? fun e => scrubbed tw e.1 e.2).map fun e => (e.1 * 1024, true)

/-- Scrub the word at a place (R178): a correctable word is written back, a bad one rewritten poisoned. -/
def State.scrubWord (s : State) (pl : Place) : State × WordKind :=
  let (s, r) := s.readTower pl .none
  match r.kind with
  | .found | .failed => (s.writeTower pl r.data true, .found)
  | k => (s, k)

/-- PATROL_SCRUB_ROW (R178, R179): the scrub reads its next row and moves on. -/
def execPatrolScrubRow (tower : Nat) (s : State) : Result :=
  if !s.runs then done s else
  let tw := s.tower tower
  let up := match (s.group tower).pstate with
    | .g0 | .g1 => true
    | _ => false
  if !up || (s.group tower).outOfService || tw.sanitiseBusy || s.regField (towerBase tower + Off.twrScrubRate) 0 16 = 0 then
    done s
  else match nextScrub tw with
    | none => done s
    | some (row, wrapped) =>
      let s := (List.range 64).foldl (fun s i => (State.scrubWord s (framePlace tower (row / 1024) (row % 1024 * 64 + i))).1) s
      let last := decide (row + 1 = towerRows)
      done (s.modTower tower fun tw => { tw with
        scrubPos := if last then 0 else row + 1, scrubPasses := (tw.scrubPasses + b2n wrapped + b2n last) % 64 })

end Sys2Proof.Machine
end

