-- ==== Sys2Proof/Machine/TowerCheck.lean ====
section
/-! DEFINITION. What the Keep's sequencer reads from a tower command: its parameter block (Tables 04-16, 06-3 to 06-8), the
reserved bits, the descriptors it names, the places its operands may lie in and its bank set (R192 to R194, R203 to R214).
The rules of TATTN and of the staging commands are in Staging.lean. -/

namespace Sys2Proof.Machine

/-! ## The parameter block -/

/-- The 64-byte parameter block as one number. -/
def TowerCmd.num (c : TowerCmd) : Nat := leNum c.params

/-- Bits of the parameter block: `n` bits from bit `lo` of the word at offset `off`. -/
def TowerCmd.bits (c : TowerCmd) (off lo n : Nat) : Nat := field c.num (8 * off + lo) n

/-- An address field of the parameter block. -/
def TowerCmd.addr (c : TowerCmd) (off : Nat) : Nat := c.bits off 0 48

def TowerCmd.bound (c : TowerCmd) : Nat := c.bits 0x00 0 32
def TowerCmd.cls (c : TowerCmd) : Nat := c.bits 0x04 0 4
def TowerCmd.roundCode (c : TowerCmd) : Nat := c.bits 0x04 4 2
def TowerCmd.round (c : TowerCmd) : Rounding := (roundingOf c.roundCode).getD .rne
def TowerCmd.ovf (c : TowerCmd) : Bool := decide (c.bits 0x04 6 1 = 1)

/-- The fields that a command uses in bytes 0x14 to 0x3F, as bit ranges of the block (first bit, width). -/
def cmdFields : TCmd → List (Nat × Nat)
  | .tattn => [(160, 14), (176, 6), (192, 48), (256, 64), (320, 48), (384, 64), (448, 64)]
  | .tgemv => [(160, 32), (192, 48), (256, 48), (320, 48), (384, 64), (448, 64)]
  | .tappend => [(160, 7), (192, 48), (256, 48), (320, 48), (384, 32), (448, 64)]
  | .tcommit | .tdiscard => [(160, 16), (320, 48)]
  | .tflushkv => [(160, 1), (320, 48)]
  | .tfill => [(160, 1), (192, 48), (256, 64), (320, 64)]
  | .tcopy => [(192, 48), (256, 48), (320, 64)]
  | .txform => [(160, 32), (192, 48), (256, 48)]
  | .treduce => [(160, 3), (192, 48)]
  | .tscrub => [(192, 48), (256, 64)]

/-- The fields of the header (Table 04-16). -/
def headerFields : List (Nat × Nat) := [(0, 32), (32, 7), (64, 48), (128, 32)]

/-- The bits of the block that a command uses. -/
def usedBits (c : TCmd) : Nat :=
  (headerFields ++ cmdFields c).foldl (fun m f => m ||| ((2 ^ f.2 - 1) <<< f.1)) 0

/-- Step 1 of R154. -/
def TowerCmd.fieldsOk (c : TowerCmd) : Bool :=
  decide (c.num ||| usedBits c.cmd = usedBits c.cmd) && decide (c.roundCode ≠ 3) &&
  (decide (c.record = 0) || recordOk c.record)

/-! ## Places (R193) -/

/-- Whether a range lies wholly in the banked view of tower `t`. -/
def State.inTower (s : State) (p t a n : Nat) : Bool :=
  let inIt (x : Nat) : Bool := match s.region p x with
    | .banked u _ => decide (u = t)
    | _ => false
  inIt a && inIt (a + n - 1)

/-- Whether a range lies wholly in scratch granules of the partition. -/
def State.rangeScratch (s : State) (p a n : Nat) : Bool :=
  let lo := (a - 0x200000000000) / granuleBytes
  let hi := (a + n - 1 - 0x200000000000) / granuleBytes
  decide (0x200000000000 ≤ a) && decide (hi < 64) && (List.range (hi - lo + 1)).all fun i => s.ownsGranule p (lo + i)

/-- Whether a streamed operand lies in the hashed view, in one banked view or in scratch; scaled rows lie in a banked view only
(R57). -/
def State.streamOk (s : State) (p : Nat) (d : TensorDesc) : Bool :=
  let n := footprint d
  match s.region p d.base with
  | .hashed => decide (d.layout ≠ 3) && s.isHashed p (d.base + n - 1)
  | .banked t _ => s.inTower p t d.base n
  | .scratch _ _ => decide (d.layout ≠ 3) && s.rangeScratch p d.base n
  | _ => false

/-- Whether a tensor of bank units lies in the banked view of its tower. -/
def State.homeOk (s : State) (p t : Nat) (d : TensorDesc) : Bool := s.inTower p t d.base (footprint d)

/-- Whether a tensor may be a stored operand (R189). -/
def storedOk (d : TensorDesc) : Bool :=
  (rowFormat d.fmt && decide (d.layout = 3)) ||
  (decide (d.fmt = .int8) && decide (d.layout = 0) && decide (d.base % 2048 = 0) && decide (d.strides.getD 0 0 % 2048 = 0))

/-! ## Lines (R204) -/

/-- The lines of a tensor along dimension 0. -/
def TensorDesc.lines (d : TensorDesc) : Nat :=
  ((List.range 5).map fun k => if 0 < k && k < d.ndim then d.ext.getD k 1 else 1).foldl (· * ·) 1

/-- The indices of element `k` of line `n`. -/
def TensorDesc.at (d : TensorDesc) (k n : Nat) : List Nat := k :: lineIndex ((d.ext.take d.ndim).drop 1) n

/-! ## Bank sets (R194) -/

/-- The banks that a range of a tower's banked view lies in, as floor * 64 + bank. -/
def banksOf (t a n : Nat) : List Nat :=
  if n = 0 then [] else
  let lo := (a - bankWindow t) / 2 ^ 27
  let hi := (a + n - 1 - bankWindow t) / 2 ^ 27
  (List.range (hi - lo + 1)).map fun i => lo + i
where
  /-- The base of the banked window of a tower. -/
  bankWindow (t : Nat) : Nat := 0x100000000000 + t * 0x2000000000

/-- The bytes of one line of a tensor from element `k` on, `n` elements: start and length. -/
def lineSpan (d : TensorDesc) (line k n : Nat) : Nat × Nat :=
  let q := elemPos d (d.at k line)
  match d.layout with
  | 3 =>
    let e := rowElems d.fmt
    let first := q.base
    (first, ((k + n - 1) / e - k / e + 1) * 2048)
  | 2 =>
    let last := elemPos d (d.at (k + n - 1) line)
    (q.base, last.base + tileBytes d.fmt - q.base)
  | _ => (q.base, rowBytes d.fmt (k + n))

/-- The banks of lines `lo` to `lo + count - 1` of a tensor. -/
def lineBanks (t : Nat) (d : TensorDesc) (lo count : Nat) : List Nat :=
  ((List.range count).flatMap fun i =>
    let (a, n) := lineSpan d (lo + i) 0 (d.ext.getD 0 1)
    banksOf t a n).dedup

/-- The region form (Table 06-3): the first row, the number of rows, the floor mask and the bank mask. -/
def TowerCmd.region (c : TowerCmd) : Nat × Nat × Nat × Nat :=
  (c.bits 0x18 32 16, c.bits 0x18 16 16 + 1, c.bits 0x18 0 16, c.bits 0x20 0 64)

/-- Whether a region is accepted (R203). -/
def TowerCmd.regionOk (c : TowerCmd) : Bool :=
  let (first, n, fm, bm) := c.region
  decide (fm ≠ 0) && decide (bm ≠ 0) && decide (first + n ≤ 65536)

/-- The banks of a region, floor by floor. -/
def TowerCmd.regionBanks (c : TowerCmd) : List Nat :=
  let (_, _, fm, bm) := c.region
  (List.range 16).flatMap fun f => if nbit fm f then
    (List.range 64).filterMap fun b => if nbit bm b then some (f * 64 + b) else none else []

/-- Runs of words of a region, frame by frame: logical frame, first word in it, words. -/
def TowerCmd.regionRuns (c : TowerCmd) : List (Nat × Nat × Nat) :=
  let (first, n, _, _) := c.region
  c.regionBanks.flatMap fun b => (List.range ((first + n - 1) / 1024 - first / 1024 + 1)).map fun i =>
    let band := first / 1024 + i
    let lo := max first (band * 1024)
    let hi := min (first + n) (band * 1024 + 1024)
    (b * 64 + band, (lo - band * 1024) * 64, (hi - lo) * 64)

/-- Runs of words of a range of a tower's banked view, frame by frame; the offset and length in words. -/
def rangeRuns (off n : Nat) : List (Nat × Nat × Nat) :=
  if n = 0 then []
  else (List.range ((off + n - 1) / 65536 - off / 65536 + 1)).map fun i =>
    let f := off / 65536 + i
    let lo := max off (f * 65536)
    let hi := min (off + n) (f * 65536 + 65536)
    (f, lo - f * 65536, hi - lo)

/-! ## TGEMV (R204, R205) -/

def TowerCmd.xFirst (c : TowerCmd) : Nat := c.bits 0x14 9 23
def TowerCmd.tailPos (c : TowerCmd) : Nat := c.bits 0x14 4 5 * 128
def TowerCmd.nvec (c : TowerCmd) : Nat := c.bits 0x14 0 4 + 1
def TowerCmd.k (c : TowerCmd) : Nat := c.bits 0x30 0 32
def TowerCmd.expectTag (c : TowerCmd) : Nat := c.bits 0x30 32 32
def TowerCmd.nCount (c : TowerCmd) : Nat := c.bits 0x38 0 32
def TowerCmd.nFirst (c : TowerCmd) : Nat := c.bits 0x38 32 32

/-- The extents of X: through the window parameters of a CONV layer where the layer sequencer passed them (R206). -/
def TowerCmd.xExtents (c : TowerCmd) (x : TensorDesc) : List Nat :=
  match c.bySeq with
  | some q => winExtents x q.axes q.axisA q.axisB q.win0 q.win1
  | none => x.ext.take x.ndim

/-- The rules of TGEMV (R189, R193, R204, R205): W, the tail and X as created. -/
def State.gemvOk (s : State) (t : Nat) (c : TowerCmd) (w x : TensorDesc) (tail : Option TensorDesc) : Bool :=
  let xe := c.xExtents x
  let e0 := w.ext.getD 0 0
  storedOk w && s.homeOk c.part t w && s.streamOk c.part x && decide (w.ndim ≤ 3) && decide (c.k ≤ 16384) &&
  decide (c.nCount ≠ 0) && decide (c.nCount ≤ 4096) && decide (c.nFirst + c.nCount ≤ w.lines) &&
  decide (xe.getD 0 0 = c.k) && decide (c.xFirst + c.nvec ≤ (xe.drop 1).foldl (· * ·) 1) &&
  (match tail with
    | none => decide (e0 = c.k)
    | some d =>
      decide (w.layout = 3) && decide (d.layout = 3) && decide (d.fmt = w.fmt) && decide (d.lines = w.lines) &&
      decide (e0 % rowElems w.fmt = 0) && decide (e0 < c.k) && decide (c.tailPos + (c.k - e0) ≤ d.ext.getD 0 0) &&
      s.homeOk c.part t d)

/-- The banks of a TGEMV. -/
def TowerCmd.gemvBanks (c : TowerCmd) (t : Nat) (w : TensorDesc) (tail : Option TensorDesc) : List Nat :=
  let e0 := min (w.ext.getD 0 0) c.k
  ((List.range c.nCount).flatMap fun i =>
    let (a, n) := lineSpan w (c.nFirst + i) 0 e0
    banksOf t a n ++ match tail with
      | some d =>
        let (b, m) := lineSpan d (c.nFirst + i) c.tailPos (c.k - e0)
        banksOf t b m
      | none => []).dedup

/-! ## The other memory commands (R210 to R214) -/

/-- The rules of TFILL, TCOPY, TXFORM, TREDUCE and TSCRUB, with the descriptors created, and the bank set. -/
def State.memCmdOk (s : State) (t : Nat) (c : TowerCmd) (d : List (Option TensorDesc)) : Option (List Nat) :=
  match c.cmd, d with
  | .tfill, _ =>
    if c.bits 0x14 0 1 = 1 then (if c.regionOk then some c.regionBanks else none)
    else
      let a := c.addr 0x18
      let n := c.bits 0x20 0 64
      if a % 32 = 0 && n % 32 = 0 && n ≥ 32 && s.inTower c.part t a n then some (banksOf t a n) else none
  | .tcopy, _ =>
    let a := c.addr 0x18
    let b := c.addr 0x20
    let n := c.bits 0x28 0 64
    if a % 32 = 0 && b % 32 = 0 && n % 32 = 0 && s.inTower c.part t a (max 1 n) && s.inTower c.part t b (max 1 n) &&
        (a + n ≤ b || b + n ≤ a) then some (banksOf t a n ++ banksOf t b n).dedup
    else none
  | .txform, [some x, some y] =>
    if s.homeOk c.part t x && s.homeOk c.part t y && x.ext.take x.ndim = y.ext.take y.ndim && y.fmt ≠ .e8m0 then
      some (lineBanks t x 0 x.lines ++ lineBanks t y 0 y.lines).dedup
    else none
  | .treduce, [some x] =>
    if s.homeOk c.part t x && x.layout = 3 && x.ndim ≤ 2 && x.lines ≤ 4096 && c.bits 0x14 0 3 ≤ 4 then
      some (lineBanks t x 0 x.lines)
    else none
  | .tscrub, _ => if c.regionOk then some c.regionBanks else none
  | _, _ => none

/-- The descriptor fields of a command, in the order of its fields. -/
def TowerCmd.descAddrs (c : TowerCmd) : List Nat :=
  match c.cmd with
  | .tattn | .treduce => [c.addr 0x18]
  | .tgemv => [c.addr 0x18, c.addr 0x20, c.addr 0x28]
  | .tappend | .txform => [c.addr 0x18, c.addr 0x20]
  | _ => []

/-- Create the descriptors at a list of addresses; zero names none (R192). -/
def State.createAll (s : State) (ag : Agent) (p : Nat) : List Nat → State × Except Status (List (Option TensorDesc))
  | [] => (s, .ok [])
  | a :: r =>
    if a = 0 then
      let (s, l) := s.createAll ag p r
      (s, match l with
        | .ok l => .ok (none :: l)
        | .error e => .error e)
    else
      let (s, d) := s.createDesc ag p a
      match d with
      | .error e => (s, .error e)
      | .ok d =>
        let (s, l) := s.createAll ag p r
        (s, match l with
          | .ok l => .ok (some d :: l)
          | .error e => .error e)

end Sys2Proof.Machine
end

