-- ==== Sys2Proof/Machine/TowerRun.lean ====
section
/-! DEFINITION. What the tower commands on memory do when they run: products of the bank units (TGEMV), fills, copies,
conversions, reductions and scrubs (R189, R204 to R220). -/

namespace Sys2Proof.Machine

/-- What a command that has run leaves for its completion. -/
structure RunOut where
  status : Status := .ok
  fp : FpFlags := {}
  tiles : List RetTile := []
  progress : Nat := 0
  deriving DecidableEq, Repr

/-! ## Sums (R69 to R72) -/

/-- Replace the elements `k` and `k + 1` of a list by their rounded sum. -/
def joinAt : Nat → List (Val × FpFlags) → List (Val × FpFlags)
  | 0, x :: y :: r => vec2 accAdd x y :: r
  | k + 1, x :: r => x :: joinAt k r
  | _, l => l

/-- The sum of partial sums in FP32, in an order and a bracketing that free draws choose (R70, R72, DEDUCED, log 15). -/
def treeSum (draw : Nat → Nat) : Nat → List (Val × FpFlags) → Val × FpFlags
  | 0, l => l.headD (.fin false 0 0, {})
  | n + 1, l => if l.length ≤ 1 then l.headD (.fin false 0 0, {})
                else treeSum draw n (joinAt (draw n % (l.length - 1)) l)

/-- Block sums, in the order given, added to FP32 accumulators (R69, R70): to the last one of `acc`, or to a new one where a free
draw starts another bank's (log 15). -/
def bankSums (draw : Nat → Nat) : Nat → List (Val × FpFlags) → List (Val × FpFlags) → List (Val × FpFlags)
  | _, acc, [] => acc
  | i, [], x :: r => bankSums draw (i + 1) [vec2 accAdd (.fin false 0 0, {}) x] r
  | i, a :: acc, x :: r =>
    bankSums draw (i + 1)
      (if draw i % 2 = 0 then vec2 accAdd a x :: acc else vec2 accAdd (.fin false 0 0, {}) x :: a :: acc) r

/-- A sum of block sums: each bank adds those of its blocks to its accumulator, and the reducer tree combines the banks' sums
(R70); which blocks lie in which bank, and every order, is free (R72). -/
def sumBlocks (draw : Nat → Nat) (l : List (Val × FpFlags)) : Val × FpFlags :=
  treeSum (fun i => draw (l.length + i)) l.length (bankSums (fun i => draw (2 * l.length + i)) 0 [] (shuffle draw l))

/-! ## Elements of stored operands -/

/-- A block of 32 elements: each with its value and its scale's code, and whether a word of it is poisoned. -/
structure ScaledBlock where
  elems : ScaledRow
  poison : Bool
  deriving DecidableEq, Repr

/-- An element of an image: its value without the block scale, the scale code (127 where there is none), and whether it is
poisoned: a word of it, or a header that does not match (R56) or lacks the tag asked for (R220). -/
def imageRaw (im : Image) (f : Format) (tag : Nat) (q : ElemPos) : Val × Nat × Bool :=
  let v := decodeElem f (codeAt im.bytes.get f q.base q.u)
  let bad := (elemWords f q).any fun w => im.poison.contains w
  let head := match q.header with
    | some h => !headerOk f (im.bytes.num h 8) || (decide (tag ≠ 0) && decide (im.bytes.num (h + 4) 4 ≠ tag))
    | none => false
  (v, match q.scale with
    | some a => (im.bytes.get a).toNat
    | none => 127, bad || head)

/-- Blocks of 32 from a list of elements; the last is filled with zeros. -/
def blocksOf (l : List (Val × Nat × Bool)) : List ScaledBlock :=
  (chunks 32 (l.length / 32 + 1) l).map fun b =>
    { elems := b.map (fun x => (x.1, x.2.1)) ++
        List.replicate (32 - b.length) (.fin false 0 0, (b.headD (.fin false 0 0, 127, false)).2.1),
      poison := b.any fun x => x.2.2 }

/-- The product of two lists of blocks (R46, R69, R70). -/
def dotBlocks (draw : Nat → Nat) (x w : List ScaledBlock) : Val × FpFlags :=
  sumBlocks draw ((x.zip w).map fun b => dotScaled b.1.elems b.2.elems)

/-! ## The streamed operand (R189) -/

/-- The elements of a streamed vector: values with their scales, and whether one is poisoned. -/
structure Streamed where
  blocks : List ScaledBlock
  fp : FpFlags
  poison : Bool
  deriving DecidableEq, Repr

/-- Whether a format is the streamed form as it is: MXFP8 against a floating-point stored operand, MXINT8 against an integer
one. -/
def streamsAsIs (f : Format) (int : Bool) : Bool :=
  match f with
  | .mxE4m3 | .mxE5m2 => !int
  | .mxInt8 => int
  | _ => false

/-- Convert the elements of a vector for the operand buffers. -/
def streamVector (d : TensorDesc) (int : Bool) (mode : Rounding) (ovf : Bool) (rnd : Nat → Nat)
    (l : List (Val × Nat × Bool)) : Streamed :=
  let poison := l.any fun x => x.2.2
  if streamsAsIs d.fmt int then { blocks := blocksOf l, fp := {}, poison := poison }
  else
    let f : Format := if int then .mxInt8 else .mxE4m3
    let vals := l.map fun x => (mulVal (if isMx d.fmt then applyScale x.1 x.2.1 else x.1) (scaleVal1 d)).1
    let bs := (chunks 32 (vals.length / 32 + 1) vals).zipIdx.map fun b =>
      let (sc, codes, fl) := quantiseBlock f mode ovf rnd (32 * b.2) (b.1 ++ List.replicate (32 - b.1.length) (.fin false 0 0))
      (({ elems := codes.map fun k => (decodeElem f k, sc), poison := false } : ScaledBlock), fl)
    { blocks := bs.map (·.1), fp := bs.foldl (fun a x => orFlags a x.2) {}, poison := poison }

/-- Read the elements of a list of resolved accesses to a tensor. -/
def State.readElems (s : State) (ag : Agent) (p : Nat) (d : TensorDesc) (tag : Nat) (l : List Resolved) :
    State × Except ReadStop (List (Val × Nat × Bool)) :=
  let (s, r) := s.readCells ag p d l
  (s, r.map fun im => l.map fun x => match x with
    | .inside i => imageRaw im d.fmt tag (elemPos d i)
    | _ => (.fin false 0 0, 127, false))

/-- The indices of element `k` of vector `v` of X: through the window where the layer sequencer passed one (R206). -/
def TowerCmd.xIndex (c : TowerCmd) (x : TensorDesc) (k v : Nat) : Resolved :=
  let xe := c.xExtents x
  let i : List Nat := k :: lineIndex (xe.drop 1) v
  match c.bySeq with
  | some q => clampRead x (winSource x q.axes q.axisA q.axisB q.win0 q.win1 (i.map Int.ofNat))
  | none => .inside i

/-- Read and convert vectors `v` to `v + n - 1` of X. -/
def State.streamX (s : State) (t : Nat) (c : TowerCmd) (x : TensorDesc) (int : Bool) :
    Nat → Nat → State × Option (List Streamed)
  | 0, _ => (s, some [])
  | n + 1, v =>
    let (s, l) := s.readElems (.tower t) c.part x 0 ((List.range c.k).map fun k => c.xIndex x k (c.xFirst + v))
    match l with
    | .error _ => (s, none)
    | .ok l =>
      let here := streamVector x int c.round c.ovf (fun i => s.rounds (16384 * v + i)) l
      let (s, rest) := s.streamX t c x int n (v + 1)
      (s, rest.map fun r => here :: r)

/-! ## TGEMV (R204 to R206) -/

/-- The blocks of line `n` of W with its tail. -/
def State.gemvLine (s : State) (t : Nat) (c : TowerCmd) (w : TensorDesc) (tail : Option TensorDesc) (n : Nat) :
    State × Option (List ScaledBlock) :=
  let e0 := min (w.ext.getD 0 0) c.k
  let (s, a) := s.readElems (.tower t) c.part w c.expectTag ((List.range e0).map fun k => .inside (w.at k n))
  match a, tail with
  | .error _, _ => (s, none)
  | .ok a, none => (s, some (blocksOf a))
  | .ok a, some d =>
    let (s, b) := s.readElems (.tower t) c.part d c.expectTag
      ((List.range (c.k - e0)).map fun k => .inside (d.at (c.tailPos + k) n))
    (s, b.toOption.map fun b => blocksOf (a ++ b))

/-- Result cells of one line: a value for each vector. -/
def gemvCells (draw : Nat → Nat) (w : TensorDesc) (xs : List Streamed) (line : List ScaledBlock) : List (Val × FpFlags) :=
  xs.zipIdx.map fun x =>
    let r := dotBlocks (fun i => draw (65536 * x.2 + i)) x.1.blocks line
    if perTensor w.fmt then vec1 (fun v => mulFp32 v (ofFp32 w.scale)) r else r

/-- Lines of one result tile from column `j` on, up to one whose read is refused: cells by row and column with their flags, and
whether a line is poisoned. -/
def State.gemvTile (s : State) (t : Nat) (c : TowerCmd) (w : TensorDesc) (tail : Option TensorDesc) (xs : List Streamed)
    (first : Nat) : Nat → Nat → State × List (List (Val × FpFlags)) × Bool
  | 0, _ => (s, [], false)
  | n + 1, j =>
    let (s, line) := s.gemvLine t c w tail (first + j)
    match line with
    | none => (s, [], false)
    | some line =>
      let col := gemvCells (fun i => s.draw 7 (2 ^ 24 * (first + j) + i)) w xs line
      let (s, cols, bad) := s.gemvTile t c w tail xs first n (j + 1)
      (s, col :: cols, (line.any fun b => b.poison) || bad)

/-- A result tile from its columns. -/
def colTile (rows : Nat) (cols : List (List (Val × FpFlags))) (poison last : Bool) : RetTile :=
  { rows := rows, cols := cols.length, poison := poison, last := last,
    cells := ((List.range rows).flatMap fun r => cols.zipIdx.map fun c =>
      (64 * r + c.2, toFp32 ((c.1.getD r (.fin false 0 0, {})).1))).filter fun e => decide (e.2 ≠ 0) }

/-- A tile that a stopped command pushes in place of one it has not finished (R216). -/
def poisonTile (rows cols : Nat) (last : Bool) : RetTile :=
  { rows := rows, cols := cols, poison := true, last := last, cells := [] }

/-- The result tiles of a TGEMV from tile `j` on; `stop` once an access was refused. -/
def State.gemvTiles (s : State) (t : Nat) (c : TowerCmd) (w : TensorDesc) (tail : Option TensorDesc) (xs : List Streamed)
    (stop : Bool) : Nat → Nat → State × RunOut
  | 0, _ => (s, { status := if stop then .bounds else .ok })
  | n + 1, j =>
    let cols := min 64 (c.nCount - 64 * j)
    let last := decide (n = 0)
    let (s, cells, bad) := if stop then (s, [], false) else s.gemvTile t c w tail xs (c.nFirst + 64 * j) cols 0
    let fp := cells.foldl (fun f col => col.foldl (fun f x => orFlags f x.2) f) {}
    if cells.length < cols then
      let (s, r) := s.gemvTiles t c w tail xs true n (j + 1)
      (s, { r with status := .bounds, fp := orFlags fp r.fp, tiles := poisonTile c.nvec cols last :: r.tiles,
                   progress := cells.length + r.progress })
    else
      let bad := bad || xs.any fun x => x.poison
      let (s, r) := s.gemvTiles t c w tail xs false n (j + 1)
      (s, { status := if r.status = .ok && bad then .poison else r.status, fp := orFlags fp r.fp,
            tiles := colTile c.nvec cells bad last :: r.tiles, progress := cols + r.progress })

/-- TGEMV runs. -/
def State.runGemv (s : State) (t : Nat) (c : TowerCmd) (w x : TensorDesc) (tail : Option TensorDesc) : State × RunOut :=
  let int : Bool := decide (w.fmt = .int8) || decide (w.fmt = .mxInt8)
  let (s, xs) := s.streamX t c x int c.nvec 0
  let n := ceilDiv c.nCount 64
  let (s, r) := match xs with
    | none => s.gemvTiles t c w tail [] true n 0
    | some xs =>
      let (s, r) := s.gemvTiles t c w tail xs false n 0
      (s, { r with fp := xs.foldl (fun f (x : Streamed) => orFlags f x.fp) r.fp })
  (s.tick, r)

/-! ## TFILL (R210, R171) -/

/-- Fill `n` words of a logical frame from word `off`, with a pattern of 8 bytes; false where the frame is refused. -/
def State.fillRun (s : State) (t p pattern : Nat) (run : Nat × Nat × Nat) : State × Bool :=
  let (frame, off, n) := run
  let pl := framePlace t frame off
  let (s, ok) := s.admitAccess (.tower t) p (bankedAddr t (32 * (frame * 65536 + off))) pl true false
  if !ok then (s, false)
  else
    let tw := s.tower t
    let fr := mget {} tw.frames frame
    let w := tw.wordOf pl
    let ram := tw.ram.fill w n (.good (protOf fr))
    let ram := if pattern = 0 then ram
      else { ram with bytes := ram.bytes.overlay (32 * w) (Memory.ofBytes 0 ((List.range (4 * n)).flatMap fun _ => leBytes 8 pattern)) }
    (s.setTower t { (tw.setFrame frame (if n = frameWords then { fr with init := true } else fr)) with ram := ram }, true)

/-- Fill runs in order until one is refused: the bytes written. -/
def State.fillRuns (s : State) (t p pattern : Nat) : List (Nat × Nat × Nat) → State × RunOut
  | [] => (s, {})
  | r :: rest =>
    match s.fillRun t p pattern r with
    | (s, false) => (s, { status := .bounds })
    | (s, true) =>
      let (s, o) := s.fillRuns t p pattern rest
      (s, { o with progress := o.progress + 32 * r.2.2 })

/-- The offset in a tower's banked window of a banked-view address, in words. -/
def windowWord (a : Nat) : Nat := (a - 0x100000000000) % 0x2000000000 / 32

/-- The words that a TFILL writes, frame by frame. -/
def TowerCmd.fillWords (c : TowerCmd) : List (Nat × Nat × Nat) :=
  if c.bits 0x14 0 1 = 1 then c.regionRuns else rangeRuns (windowWord (c.addr 0x18)) (c.bits 0x20 0 64 / 32)

/-- TFILL runs. -/
def State.runFill (s : State) (t : Nat) (c : TowerCmd) : State × RunOut :=
  s.fillRuns t c.part (c.bits 0x28 0 64) c.fillWords

/-! ## TCOPY (R211, R219) -/

/-- Copy `n` words from `a` to `b`. -/
def State.copyWords (s : State) (t p a b : Nat) : Nat → RunOut → State × RunOut
  | 0, o => (s, o)
  | n + 1, o =>
    match s.readWord (.tower t) p a with
    | (s, none) => (s, { o with status := .bounds })
    | (s, some w) =>
      let bad := decide (w.kind ≠ .clean)
      match s.writeWord (.tower t) p b (w.data.bytes 0 32) bad false with
      | (s, false) => (s, { o with status := .bounds })
      | (s, true) => s.copyWords t p (a + 32) (b + 32) n
          { o with progress := o.progress + 32, status := if bad then .poison else o.status }

/-- Set INIT in the frames that a run of words covers whole (R171). -/
def State.initFrames (s : State) (t : Nat) (runs : List (Nat × Nat × Nat)) : State :=
  s.modTower t fun tw => runs.foldl (fun tw r =>
    if r.2.2 = frameWords then tw.setFrame r.1 { mget {} tw.frames r.1 with init := true } else tw) tw

/-- TCOPY runs; the frames that it has written whole are INIT, also where a refused access ends it. -/
def State.runCopy (s : State) (t : Nat) (c : TowerCmd) : State × RunOut :=
  let n := c.bits 0x28 0 64 / 32
  let (s, o) := s.copyWords t c.part (c.addr 0x18) (c.addr 0x20) n {}
  (s.initFrames t (rangeRuns (windowWord (c.addr 0x20)) (o.progress / 32)), o)

/-! ## TXFORM (R212, R219) -/

/-- The codes, scales and poison of a line of a destination: MX elements by blocks along dimension 0 (R45). -/
def encodeLine (f : Format) (mode : Rounding) (ovf : Bool) (rnd : Nat → Nat) (l : List (Val × Bool)) :
    List (Nat × Nat × Bool) × FpFlags :=
  if isMx f then
    let bs := (chunks 32 (l.length / 32 + 1) l).zipIdx.map fun b =>
      let (sc, codes, fl) := quantiseBlock f mode ovf rnd (32 * b.2)
        ((b.1.map (·.1)) ++ List.replicate (32 - b.1.length) (.fin false 0 0))
      let bad := b.1.any fun x => x.2
      ((codes.take b.1.length).map fun k => (k, sc, bad), fl)
    (bs.flatMap (·.1), bs.foldl (fun a x => orFlags a x.2) {})
  else
    let (codes, fl) := encodeList f mode ovf rnd 0 (l.map (·.1))
    ((codes.zip l).map fun x => (x.1, 127, x.2.2), fl)

/-- The words of the elements `lo` on of a line that hold an element or scale of a poisoned part, and the headers of poisoned
rows. -/
def linePoison (d : TensorDesc) (outer : List Nat) (lo : Nat) (l : List (Nat × Nat × Bool)) : List Nat :=
  (l.zipIdx.flatMap fun x => if x.1.2.2 then
    let q := elemPos d ((lo + x.2) :: outer)
    elemWords d.fmt { q with header := none } else []).dedup

/-- Write the elements `lo` on of line `n` of a destination, with the padding behind it where they end it; the address of a word that
was refused. -/
def State.writeLine (s : State) (ag : Agent) (p : Nat) (d : TensorDesc) (n lo : Nat) (l : List (Nat × Nat × Bool)) (tag : Nat) :
    State × Option Nat :=
  let outer := lineIndex ((d.ext.take d.ndim).drop 1) n
  let m := lineWrites d outer lo l tag []
  let m := s.keptWrites d n (if lo + l.length < d.ext.getD 0 1 then m else padLines d outer m)
  s.writeBits ag p m (linePoison d outer lo l)

/-- The exact value of an element under its block scale and tensor scales (R212). -/
def convertVal (src dst : TensorDesc) (x : Val × Nat × Bool) : Val × Bool :=
  let v := if isMx src.fmt then applyScale x.1 x.2.1 else x.1
  (descale dst (mulVal v (scaleVal1 src)).1, x.2.2)

/-- Convert lines `j` on of a tensor into another. -/
def State.xformLines (s : State) (ag : Agent) (p : Nat) (x y : TensorDesc) (mode : Rounding) (ovf : Bool) (tag : Nat) :
    Nat → Nat → RunOut → State × RunOut
  | 0, _, o => (s, o)
  | n + 1, j, o =>
    let e0 := x.ext.getD 0 0
    match s.readElems ag p x 0 ((List.range e0).map fun k => .inside (x.at k j)) with
    | (s, .error _) => (s, { o with status := .bounds })
    | (s, .ok l) =>
      let vals := l.map (convertVal x y)
      let (codes, fl) := encodeLine y.fmt mode ovf (fun i => s.rounds (i + e0 * j)) vals
      match s.writeLine ag p y j 0 codes tag with
      | (s, some _) => (s, { o with status := .bounds, fp := orFlags o.fp fl })
      | (s, none) => s.xformLines ag p x y mode ovf tag n (j + 1) { o with
          status := if vals.any fun v => v.2 then .poison else o.status, fp := orFlags o.fp fl, progress := o.progress + e0 }

/-- TXFORM runs. -/
def State.runXform (s : State) (t : Nat) (c : TowerCmd) (x y : TensorDesc) : State × RunOut :=
  let (s, o) := s.xformLines (.tower t) c.part x y c.round c.ovf (c.bits 0x14 0 32) x.lines 0 {}
  (s.tick, o)

/-! ## TREDUCE (R213) -/

/-- The reduction of a line (R213); NaN in MAX, MIN and MAXABS sets no flag. -/
def reduceLine (draw : Nat → Nat) (rop : Nat) (l : List (Val × Nat × Bool)) : Val × FpFlags :=
  let bs := blocksOf l
  let vals := l.map fun x => applyScale x.1 x.2.1
  let fold (f : Val → Val → Val) (vs : List Val) : Val × FpFlags :=
    if hasNan vs then (.nan false, {})
    else match vs with
      | [] => (.fin false 0 0, {})
      | v :: r => roundFp32 (r.foldl f v)
  match rop with
  | 0 => sumBlocks draw (bs.map fun b => dotScaled b.elems (List.replicate 32 (.fin false 1 0, 127)))
  | 1 => dotBlocks draw bs bs
  | 2 => fold maxVal vals
  | 3 => fold minVal vals
  | _ => fold maxVal (vals.map fun v => if signOf v then negVal v else v)

/-- Results of lines `j` on: value, flags and poison of each, up to the first that is refused. -/
def State.reduceLines (s : State) (t p : Nat) (x : TensorDesc) (rop : Nat) :
    Nat → Nat → State × List (Val × FpFlags × Bool)
  | 0, _ => (s, [])
  | n + 1, j =>
    match s.readElems (.tower t) p x 0 ((List.range (x.ext.getD 0 0)).map fun k => .inside (x.at k j)) with
    | (s, .error _) => (s, [])
    | (s, .ok l) =>
      let (v, fl) := reduceLine (fun i => s.draw 7 (65536 * j + i)) rop l
      let (s, rest) := s.reduceLines t p x rop n (j + 1)
      (s, (v, fl, l.any fun e => e.2.2) :: rest)

/-- TREDUCE runs: one tile for 64 lines; the tiles that a refused read leaves unfinished are poisoned. -/
def State.runReduce (s : State) (t : Nat) (c : TowerCmd) (x : TensorDesc) : State × RunOut :=
  let (s, l) := s.reduceLines t c.part x (c.bits 0x14 0 3) x.lines 0
  let n := ceilDiv x.lines 64
  let tile (j : Nat) : RetTile :=
    let rows := min 64 (x.lines - 64 * j)
    let mine := (l.drop (64 * j)).take rows
    if mine.length < rows then poisonTile rows 1 (decide (j + 1 = n))
    else colTile rows [mine.map fun v => (v.1, v.2.1)] (mine.any fun v => v.2.2) (decide (j + 1 = n))
  let st : Status := if l.length < x.lines then .bounds else if l.any fun v => v.2.2 then .poison else .ok
  (s.tick, { status := st, fp := l.foldl (fun f v => orFlags f v.2.1) {}, tiles := (List.range n).map tile,
             progress := l.length })

/-! ## TSCRUB (R214) -/

/-- Scrub the words of a run of a frame, if its rows are to be scrubbed: the rows scrubbed. -/
def State.scrubRun (s : State) (t : Nat) (run : Nat × Nat × Nat) : State × Nat :=
  let (frame, off, n) := run
  if (mget {} (s.tower t).frames frame).scrubs then
    ((List.range n).foldl (fun s i => (State.scrubWord s (framePlace t frame (off + i))).1) s, n / 64)
  else (s, 0)

/-- TSCRUB runs. -/
def State.runScrub (s : State) (t : Nat) (c : TowerCmd) : State × RunOut :=
  let (s, n) := c.regionRuns.foldl (fun x r =>
    let (s, k) := State.scrubRun x.1 t r
    (s, x.2 + k)) (s, 0)
  (s, { progress := n })

end Sys2Proof.Machine
end

