-- ==== Sys2Proof/Machine/Volath.lean ====
section
/-! DEFINITION. Volath links and the router (11_host_and_links.md): flits, sending under credits and the replay buffer,
routing, requests performed at this device and the answers they bring to their source. -/

namespace Sys2Proof.Machine

/-! ## Flits (R382) -/

/-- Bytes 0x00 to 0xF7 of a flit (Table 11-10). -/
def flitBytes (f : Flit) : List Byte :=
  leBytes 8 (f.seq.toNat * 2 ^ 52 + f.ack.toNat * 2 ^ 40 + b2n f.nak * 2 ^ 39 + f.ftype.toNat * 2 ^ 32 + f.credit.toNat) ++
  leBytes 8 (f.vc.toNat * 2 ^ 62 + f.op.toNat * 2 ^ 58 + f.dstId.toNat * 2 ^ 45 + f.srcId.toNat * 2 ^ 32 +
    f.dstPart.toNat * 2 ^ 28 + f.srcPart.toNat * 2 ^ 24 + f.counter.toNat * 2 ^ 12 + b2n f.cntEn * 2 ^ 11 +
    f.poison.toNat * 2 ^ 4) ++
  leBytes 8 (f.ttl.toNat * 2 ^ 58 + b2n f.ackReq * 2 ^ 57 + b2n f.first * 2 ^ 56 + f.aop.toNat * 2 ^ 53 +
    f.tag.toNat * 2 ^ 41 + f.len.toNat * 2 ^ 32 + f.addr.toNat) ++
  (f.payload ++ List.replicate (224 - f.payload.length) 0).take 224

/-- Whether the CRC that a flit carries is good. -/
def crcGood (f : Flit) : Bool := decide (f.crc.toNat = crc64 (flitBytes f))

/-- A flit with its CRC. -/
def sealFlit (f : Flit) : Flit := { f with crc := BitVec.ofNat 64 (crc64 (flitBytes f)) }

/-- Bytes 0x00 to 0xF7 of a TRAIN flit (R387). -/
def trainBytes (i : TrainInfo) : List Byte :=
  leBytes 8 (i.seq.toNat * 2 ^ 52 + i.ack.toNat * 2 ^ 40 + 2 * 2 ^ 32 + i.credit.toNat) ++
  leBytes 8 (i.deviceId.toNat + i.link.toNat * 2 ^ 13 + i.physLane.toNat * 2 ^ 16 + i.goodLanes.toNat * 2 ^ 20 +
    i.phase.toNat * 2 ^ 29) ++
  leBytes 8 (i.credits.getD 0 0 + i.credits.getD 1 0 * 2 ^ 10 + i.credits.getD 2 0 * 2 ^ 20 + i.credits.getD 3 0 * 2 ^ 30) ++
  List.replicate 224 0

/-- The bytes that each logical lane of a link carries of a flit: byte `k` on lane `k` mod width (R380). -/
def stripe (width : Nat) (bs : List Byte) : List (List Byte) :=
  (List.range width).map fun i => (bs.zipIdx.filter fun x => decide (x.2 % width = i)).map (·.1)

/-- Flit operations (Table 11-11). -/
def opWrite : Nat := 0
def opCblock : Nat := 1
def opRead : Nat := 2
def opAtomic : Nat := 3
def opResp : Nat := 4
def opWack : Nat := 5
def opErr : Nat := 6

/-! ## Link registers -/

/-- The device's own id (R390). -/
def State.ownId (s : State) : Nat := s.regField (routerBase + Off.volId) 0 13

/-- VOL_LSTAT.PHASE of a link: 0 DOWN, 1 DETECT, 2 EQUALISE, 3 LANE_MAP, 4 CREDIT_INIT, 5 ACTIVE. -/
def State.linkPhase (s : State) (l : Nat) : Nat := s.regField (linkBase l + Off.volLstat) 29 3

/-- PHASE set; a change is a link state change, PF vector 4 (Table 11-8). -/
def State.setPhase (s : State) (l ph : Nat) : State :=
  if s.linkPhase l = ph then s else (s.setRegField (linkBase l + Off.volLstat) 29 3 ph).signal 4

/-- A 32-bit count register raised, saturating. -/
def State.countReg (s : State) (a n : Nat) : State := s.setReg a (min (s.reg a + n) (2 ^ 32 - 1))

/-! ## Routing (R390) -/

/-- What the router decides for a flit. -/
inductive Hop where
  | here
  | out (l vc : Nat)
  /-- with REASON of VOL_DROP_LAST -/
  | drop (reason : Nat)
  deriving DecidableEq, Repr

/-- The first valid route entry that holds an id, from entry `n` on. -/
def State.routeEntry (s : State) (id : Nat) : Nat → Nat → Option Nat
  | 0, _ => none
  | k + 1, n =>
    let lo := s.reg (routerBase + Off.volRouteLo + 8 * n)
    let hi := s.reg (routerBase + Off.volRouteHi + 8 * n)
    if nbit lo 31 && decide (field lo 0 13 ≤ id) && decide (id ≤ field hi 0 13) then some n else s.routeEntry id k (n + 1)

/-- Size of the torus along a dimension. -/
def State.torusSize (s : State) (d : Nat) : Nat := s.regField (routerBase + Off.volTorus) (6 * d) 6 + 1

/-- The coordinate of an offset in the torus along a dimension. -/
def State.torusCoord (s : State) (c d : Nat) : Nat :=
  match d with
  | 0 => c % s.torusSize 0
  | 1 => c / s.torusSize 0 % s.torusSize 1
  | _ => c / (s.torusSize 0 * s.torusSize 1)

/-- The link named for a dimension and direction (VOL_TORUS_LINKS); 0 is plus. -/
def State.torusLink (s : State) (d dir : Nat) : Nat := s.regField (routerBase + Off.volTorusLinks) (3 * (2 * d + dir)) 3

/-- The dimension of the link on which a flit arrived. -/
def State.arrivalDim (s : State) (from_ : Option Nat) : Option Nat :=
  match from_ with
  | none => none
  | some l => (List.range 3).find? fun d => decide (s.torusLink d 0 = l) || decide (s.torusLink d 1 = l)

/-- Route a request or a response (R390). -/
def State.route (s : State) (from_ : Option Nat) (f : Flit) : Hop :=
  let own := s.ownId
  let dst := f.dstId.toNat
  if dst = own then .here
  else match s.routeEntry dst 64 0 with
    | none => .drop 1
    | some n =>
      let lo := s.reg (routerBase + Off.volRouteLo + 8 * n)
      let hi := s.reg (routerBase + Off.volRouteHi + 8 * n)
      if !nbit lo 30 then .out (field lo 16 3) f.vc.toNat
      else
        let base := field lo 0 13
        if own < base || own > field hi 0 13 then .drop 1
        else
          let me (d : Nat) : Nat := s.torusCoord (own - base) d
          let goal (d : Nat) : Nat := s.torusCoord (dst - base) d
          match (List.range 3).find? fun d => decide (me d ≠ goal d) with
          | none => .drop 1
          | some d =>
            let size := s.torusSize d
            let plus := (goal d + size - me d % size) % size
            let dir := if plus ≤ size - plus then 0 else 1
            let vc := if s.arrivalDim from_ = some d then f.vc.toNat else f.vc.toNat / 2 * 2
            let wrap := (dir = 0 && me d = size - 1) || (dir = 1 && me d = 0)
            .out (s.torusLink d dir) (if wrap then vc / 2 * 2 + 1 else vc)

/-! ## Sending (R385, R386) -/

/-- The receive buffers of a link's virtual channels in flits, which are the initial credits of its partner (Table 11-12). -/
def rxBuffers : List Nat := [384, 384, 128, 128]

/-- The four 8-bit counts of CREDIT, each at most 255. -/
def creditWord (l : List Nat) : Nat :=
  min 255 (l.getD 0 0) + 256 * min 255 (l.getD 1 0) + 65536 * min 255 (l.getD 2 0) + 16777216 * min 255 (l.getD 3 0)

/-- The counts left after CREDIT has carried what it can. -/
def creditLeft (l : List Nat) : List Nat := l.map fun n => n - min 255 n

/-- A flit as it goes onto the lanes: ACK, CREDIT and CRC are fresh. -/
def LinkState.emit (k : LinkState) (f : Flit) : LinkState :=
  let f := sealFlit { f with ack := BitVec.ofNat 12 (k.expect + 4095), credit := BitVec.ofNat 32 (creditWord k.giveBack) }
  { k with sent := k.sent ++ [f], giveBack := creditLeft k.giveBack }

/-- Send a DATA flit for which a credit is held. -/
def LinkState.sendData (k : LinkState) (f : Flit) : LinkState :=
  let f := { f with seq := BitVec.ofNat 12 k.nextSeq, ftype := 1 }
  let k := { k with nextSeq := (k.nextSeq + 1) % 4096, replay := k.replay ++ [f],
                    credits := k.credits.modify f.vc.toNat (· - 1) }
  k.emit f

/-- What a link has sent so far of the flits that wait: its state, the virtual channels that must wait, and the receive buffers that
the flits sent have freed. -/
structure Pump where
  link : LinkState
  shut : List (BitVec 2) := []
  freed : List (Nat × Nat) := []
  deriving DecidableEq, Repr

/-- Send what the credits and the replay buffer allow, each virtual channel in order (R386, R390). -/
def LinkState.pump (k : LinkState) : Pump :=
  k.unsent.foldl (fun (a : Pump) x =>
    if a.link.replay.length < 1024 && decide (0 < a.link.credits.getD x.2.vc.toNat 0) && !a.shut.contains x.2.vc
    then { a with link := a.link.sendData x.2, freed := a.freed ++ x.1.toList }
    else { a with link := { a.link with unsent := a.link.unsent ++ [x] }, shut := x.2.vc :: a.shut }) { link := { k with unsent := [] } }

/-- A receive buffer of a link and virtual channel is free again: its credit is returned (R386). -/
def State.freeBuffer (s : State) (x : Nat × Nat) : State :=
  s.modLink x.1 fun k => { k with giveBack := k.giveBack.modify x.2 (· + 1) }

/-- Send what can be sent on a link that is ACTIVE; a flit that goes on frees the buffer that it has held. -/
def State.pumpLink (s : State) (l : Nat) : State :=
  if s.linkPhase l = 5 then
    let r := (s.link l).pump
    r.freed.foldl State.freeBuffer (s.setLink l r.link)
  else s

/-- An IDLE flit on a link: ACK, CREDIT and perhaps NAK, with the next unused SEQ (R382). -/
def State.sendIdle (s : State) (l : Nat) (nak : Bool) : State :=
  s.modLink l fun k => k.emit { seq := BitVec.ofNat 12 k.nextSeq, ftype := 0, nak := nak }

/-- A response to a request: it goes back to the source on VC2 (R390, Table 11-11). -/
def State.answer (s : State) (f : Flit) (op len : Nat) (payload : List Byte) : Flit :=
  { vc := 2, op := BitVec.ofNat 4 op, dstId := f.srcId, srcId := BitVec.ofNat 13 s.ownId, dstPart := f.srcPart,
    srcPart := f.dstPart, tag := f.tag, len := BitVec.ofNat 9 len, payload := payload }

/-- An ERR with a status in payload byte 8 (Table 11-11). -/
def State.errFlit (s : State) (f : Flit) (st : Status) : Flit :=
  s.answer f opErr 9 (List.replicate 8 0 ++ [BitVec.ofNat 8 (statusCode st)])

/-- Whether a flit is a request. -/
def isRequest (f : Flit) : Bool := decide (f.op.toNat < 4)

/-- A drop at the router: counted, logged and signalled (R390). -/
def State.logDrop (s : State) (from_ : Option Nat) (f : Flit) (reason : Nat) : State :=
  let s := s.countReg (routerBase + Off.volDropCount) 1
  let s := s.setReg (routerBase + Off.volDropLast) (reason * 2 ^ 16 + f.dstId.toNat)
  let s := s.logError { errOf .linkDrop 15 3 (from_.getD 0xFFF) with detail := reason, cycles := s.landing.fclk.toNat }
  s.signal 4

/-- Put a flit where its route leads; where it is dropped, the reason. A flit for this device waits at link `here`; one that arrived on
a link holds its buffer until it is sent or performed (R386). -/
def State.forward (s : State) (from_ : Option Nat) (here : Nat) (f : Flit) : State × Option Nat :=
  match s.route from_ f with
  | .here => (s.modLink here fun k => { k with inbox := k.inbox ++ [(from_.isSome, f)] }, none)
  | .drop r => (s, some r)
  | .out l vc =>
    if from_.isSome && decide (f.ttl.toNat ≤ 1) then (s, some 2)
    else if s.linkPhase l = 0 then (s, some 3)
    else
      let arrived := f.vc.toNat
      let f := { f with vc := BitVec.ofNat 2 vc, ttl := if from_.isSome then f.ttl - 1 else f.ttl }
      ((s.modLink l fun k => { k with unsent := k.unsent ++ [(from_.map (·, arrived), f)] }).pumpLink l, none)

/-- Route a flit; one that is dropped frees its buffer and is logged, and a request's source gets ERR LINK_DOWN (R390; DEDUCED, log
174). -/
def State.sendFlit (s : State) (from_ : Option Nat) (here : Nat) (f : Flit) : State :=
  match s.forward from_ here f with
  | (s, none) => s
  | (s, some r) =>
    let s := ((from_.map (·, f.vc.toNat)).toList.foldl State.freeBuffer s).logDrop from_ f r
    if isRequest f then
      match s.forward none here (s.errFlit f .linkDown) with
      | (s, none) => s
      | (s, some r2) => s.logDrop none (s.errFlit f .linkDown) r2
    else s

/-! ## Sources in this device -/

/-- The TAG that DMA channel `c` of engine `e` gives its requests; cores take TAGs below 0x800 (DESIGN CHOICE, log 33). -/
def dmaTag (e c : Nat) : Nat := 0x800 + 16 * e + c

/-- The lowest TAG that no core's request holds. -/
def State.freeTag (s : State) : Nat :=
  ((List.range 0x800).find? fun t => !s.tags.any fun e => decide (e.1 = t)).getD 0

/-- The remote partition and address fields of an access to the remote region (R381). -/
def State.remoteFlit (s : State) (p off : Nat) : Flit :=
  { dstId := BitVec.ofNat 13 (off >>> 32), srcId := BitVec.ofNat 13 s.ownId,
    dstPart := BitVec.ofNat 4 (s.regField (partBase p + Off.pvolCtl) 0 4), srcPart := BitVec.ofNat 4 p,
    addr := BitVec.ofNat 32 off }

/-- Whether a partition may reach the remote region (R381). -/
def State.outEn (s : State) (p : Nat) : Bool := s.regBit (partBase p + Off.pvolCtl) 4

/-- A core's request goes out with a TAG of its own (R390). -/
def State.sendCore (s : State) (c tag : Nat) (f : Flit) : State :=
  let f := { f with tag := BitVec.ofNat 12 tag }
  ({ s with tags := mset 0xFFFF s.tags tag c } : State).sendFlit none (2 * s.spireOf c) f

/-! ## Requests at their destination (R383, R384) -/

/-- The partition address that a request reaches. -/
def State.inboundAddr (s : State) (f : Flit) : Nat :=
  let p := f.dstPart.toNat
  s.pregPair p Off.pvolInBaseLo Off.pvolInBaseHi + f.addr.toNat

/-- Whether the destination partition refuses a request before any access (R384). -/
def State.refuses (s : State) (f : Flit) : Bool :=
  let p := f.dstPart.toNat
  let ids := s.preg p Off.pvolInIds
  decide (p ≥ s.units) || decide ((s.part p).state ≠ .enabled) || !s.regBit (partBase p + Off.pvolCtl) 5 ||
  decide (f.srcId.toNat < field ids 0 13) || decide (field ids 16 13 < f.srcId.toNat) ||
  decide (f.srcPart.toNat ≠ s.regField (partBase p + Off.pvolCtl) 0 4) ||
  decide (f.addr.toNat + f.len.toNat > 2 ^ 32)

/-- Refuse a request: ERR with BOUNDS to its source, LINK_REFUSED here (R384). -/
def State.refuse (s : State) (l : Nat) (f : Flit) : State :=
  let s := s.logError { errOf .linkRefused f.dstPart.toNat 3 l with
    addr := f.addr.toNat, status := .bounds, detail := f.srcId.toNat + 2 ^ 16 * f.srcPart.toNat,
    cycles := s.landing.fclk.toNat }
  s.sendFlit none l (s.errFlit f .bounds)

/-- Whether LEN and ADDR of a request obey Table 11-11. -/
def lenOk (f : Flit) : Bool :=
  let n := f.len.toNat
  match f.op.toNat with
  | 0 => (decide (n % 32 = 0) && decide (f.addr.toNat % 32 = 0) && decide (0 < n) && decide (n ≤ 224)) ||
         ((decide (n = 4) || decide (n = 8)) && decide (f.addr.toNat % n = 0))
  | 2 | 3 => (decide (n = 4) || decide (n = 8)) && decide (f.addr.toNat % n = 0)
  | _ => decide (n ≤ 224)

/-- Words that POISON names. -/
def flitPoison (f : Flit) : List Nat := (List.range 7).filter fun i => f.poison.getLsbD i

/-- Perform a WRITE (R383). -/
def State.performWrite (s : State) (l : Nat) (f : Flit) : State :=
  let p := f.dstPart.toNat
  let a := s.inboundAddr f
  if s.refuses f || !lenOk f then s.refuse l f
  else
    let (s, ok) := s.writeRun (.link l) p a (f.payload.take f.len.toNat) (flitPoison f) false
    if !ok then s.refuse l f
    else
      let s := if f.cntEn then s.addCounter p f.counter.toNat f.len.toNat else s
      if f.ackReq then s.sendFlit none l (s.answer f opWack 0 []) else s

/-- A RESP with a value and a status. -/
def State.respFlit (s : State) (f : Flit) (v : Nat) (st : Status) : Flit :=
  s.answer f opResp 9 (leBytes 8 v ++ [BitVec.ofNat 8 (statusCode st)])

/-- Perform a READ (Table 11-11). -/
def State.performRead (s : State) (l : Nat) (f : Flit) : State :=
  let p := f.dstPart.toNat
  if s.refuses f || !lenOk f then s.refuse l f
  else
    let (s, r) := s.readRun (.link l) p (s.inboundAddr f) f.len.toNat
    if r.refused then s.refuse l f
    else if r.found then s.sendFlit none l (s.respFlit f 0 .uncorrected)
    else if r.poison ≠ [] then s.sendFlit none l (s.respFlit f 0 .poison)
    else s.sendFlit none l (s.respFlit f (r.data.num 0 f.len.toNat) .ok)

/-- Perform an ATOMIC: its operands are in payload bytes 0 to 15 as R138 orders them. With ACK_REQ set, WACK goes before the RESP
(Table 11-10). -/
def State.performAtomic (s : State) (l : Nat) (f : Flit) : State :=
  let p := f.dstPart.toNat
  let n := f.len.toNat
  if s.refuses f || !lenOk f || decide (f.aop.toNat > 4) then s.refuse l f
  else
    let x : AtomArgs := {
      size := n, aop := f.aop.toNat, value := leNum (f.payload.take n), new := leNum ((f.payload.drop n).take n) }
    match s.atomicAt (.link l) p (s.inboundAddr f) x with
    | (s, .ok v) =>
      let s := if f.ackReq then s.sendFlit none l (s.answer f opWack 0 []) else s
      s.sendFlit none l (s.respFlit f v .ok)
    | (s, .error .bounds) => s.refuse l f
    | (s, .error st) => s.sendFlit none l (s.respFlit f 0 st)

/-- Whether a coded block in progress is the one that a CBLOCK flit belongs to. -/
def sameBlock (f : Flit) (b : CBlock) : Bool :=
  decide (b.srcId = f.srcId.toNat) && decide (b.srcPart = f.srcPart.toNat) && decide (b.tag = f.tag.toNat) &&
  decide (b.part = f.dstPart.toNat) && decide (b.bytes.length < b.total)

/-- The tower DMA engine that expands a partition's coded arrivals: PLINKX, or the lowest group where it names a group
outside the partition (Table 10-15). -/
def State.linkx (s : State) (p : Nat) : Nat :=
  let g := s.regField (partBase p + Off.plinkx) 0 4
  if (s.towersOf p).contains g then g else (s.towersOf p).headD 0

/-- Take a CBLOCK flit to the link expander of the partition's PLINKX engine (R362, R383). -/
def State.performCblock (s : State) (l : Nat) (f : Flit) : State :=
  let p := f.dstPart.toNat
  let bs := f.payload.take f.len.toNat
  let e := s.linkx p
  if s.refuses f || !lenOk f then s.refuse l f
  else if f.first then
    let ulen := field (leNum ((bs.drop 12).take 4)) 0 13
    let word := leNum ((bs.drop 4).take 4)
    if bs.length < 16 || f.addr.toNat + ulen > 2 ^ 32 || !s.reachable p (s.inboundAddr f) (max ulen 1) true then
      s.refuse l f
    else s.modEngine e fun d => { d with cblocks := d.cblocks ++ [{
      part := p, addr := f.addr.toNat, ulen := ulen, srcId := f.srcId.toNat, srcPart := f.srcPart.toNat, link := l,
      tag := f.tag.toNat, ackReq := f.ackReq, counter := if f.cntEn then some f.counter.toNat else none,
      total := 16 + field word 0 13, bytes := bs, poison := decide (f.poison ≠ 0) }] }
  else s.modEngine e fun d =>
    match d.cblocks.findIdx? (sameBlock f) with
    | none => d
    | some i => { d with cblocks := d.cblocks.modify i fun b =>
        { b with bytes := b.bytes ++ bs, poison := b.poison || decide (f.poison ≠ 0) } }

/-! ## Answers at their source (R384) -/

/-- What an answer brings: its operation, the value and the status that it carries. -/
structure Answer where
  op : Nat
  value : Nat
  status : Status
  deriving DecidableEq, Repr

/-- The answer that a flit is: a WACK is OK. -/
def flitAnswer (f : Flit) : Answer :=
  { op := f.op.toNat, value := leNum (f.payload.take 8),
    status := if f.op.toNat = opWack then .ok else statusOf ((f.payload.getD 8 0).toNat) }

/-- Give the core that holds a TAG its answer: the phase of the operation of that TAG. A WACK says that an ATOM is performed; its old
value follows. -/
def answerCore (tag : Nat) (a : Answer) (l : List InFlight) : List InFlight :=
  l.map fun x => match x.op with
    | .fst _ _ _ _ (some t) => if t = tag then { x with phase := .finished } else x
    | .fld _ _ _ (some t) | .atom _ _ _ _ (some t) =>
      if t ≠ tag then x
      else if a.op = opWack then { x with phase := .finished }
      else { x with phase := if a.status = .ok then .value a.value else .failed a.status }
    | _ => x

/-- The address of the FST that holds a TAG. -/
def fstAddr (tag : Nat) (l : List InFlight) : Option Nat :=
  (l.filterMap fun x => match x.op with
    | .fst _ a _ _ (some t) => if t = tag then some a else none
    | _ => none).head?

/-- The record of an FST that was refused or dropped at the far end (R384; DESIGN CHOICE, log 34). -/
def State.logFarStore (s : State) (l : Nat) (f : Flit) (a : Nat) : State :=
  s.logError { errOf .linkRefused f.dstPart.toNat 3 l with
    addr := a % 2 ^ 32, status := (flitAnswer f).status, detail := s.ownId + 2 ^ 16 * f.dstPart.toNat, cycles := s.landing.fclk.toNat }

/-- A failing answer halts the channel that its TAG names, if the channel is still running (R384). -/
def State.haltByTag (s : State) (tag : Nat) (st : Status) : State :=
  let e := (tag - 0x800) / 16
  let c := (tag - 0x800) % 16
  if tag < 0x800 || e ≥ 14 then s
  else match (s.chan e c).state with
    | .idle | .halted => s
    | _ => (s.dmaRecord e c st false).chainEnd e c st (recordFlags false (s.chan e c).degraded (s.chan e c).fp) true

/-- An answer reaches its source at link `l` (R384): a failing one halts the channel, fails the FLD or ATOM, or for an FST is only
logged. The TAG is free again, but for an ATOM whose RESP follows its WACK. -/
def State.takeAnswer (s : State) (l : Nat) (f : Flit) : State :=
  let tag := f.tag.toNat
  let a := flitAnswer f
  if tag ≥ 0x800 then (if a.status = .ok then s else s.haltByTag tag a.status)
  else match s.tags.find? fun e => decide (e.1 = tag) with
    | none => s
    | some e =>
      let flying := (s.core e.2).inflight
      let s : State := match fstAddr tag flying with
        | some x => if a.status = Status.ok then s else s.logFarStore l f x
        | none => s
      let s := if a.op = opWack && (fstAddr tag flying).isNone then s else { s with tags := mset 0xFFFF s.tags tag 0xFFFF }
      s.modCore e.2 fun c => { c with inflight := answerCore tag a c.inflight }

end Sys2Proof.Machine
end

