-- ==== Sys2Proof/Machine/Dma.lean ====
section
/-! DEFINITION. DMA transfers (10_dma_and_compression.md): descriptors and their checks (R337 to R345), and one unit of a
transfer in each mode (R341 to R345, R351, R352, R358 to R363). -/

namespace Sys2Proof.Machine

/-! ## Descriptors (Table 10-2) -/

/-- The fields of a 64-byte descriptor, as a number. -/
def parseDma (n : Nat) : DmaDesc :=
  { next := field n 0 48, src := field n 64 48, srcWrap := field n 112 6, dst := field n 128 48, dstWrap := field n 176 6,
    len := field n 192 40, mode := field n 256 2, code := field n 258 3, slot := field n 261 2, elem := field n 263 4,
    swap := field n 267 3, cntEn := nbit n 270, counter := field n 271 12, irq := nbit n 283, cls := field n 284 4,
    tag := field n 288 32, record := field n 320 48, aux0 := field n 384 64, aux1 := field n 448 64 }

/-- Whether the reserved bits of Table 10-2 are zero. -/
def dmaReservedOk (n : Nat) : Bool :=
  decide (field n 48 16 = 0) && decide (field n 118 10 = 0) && decide (field n 182 10 = 0) && decide (field n 232 24 = 0) &&
  decide (field n 368 16 = 0)

/-- The rows of Table 10-3. -/
inductive DmaKind where
  | copy | compress | expand | link | kn4 | tableLoad | tensor | toQueue | toQueueExpand | toQueueKn4 | fromQueue
  deriving DecidableEq, Repr

/-- The row of a MODE and CODE; none for a pair that Table 10-3 does not list. -/
def DmaDesc.kind (d : DmaDesc) : Option DmaKind :=
  match d.mode, d.code with
  | 0, 0 => some .copy | 0, 1 => some .compress | 0, 2 => some .expand | 0, 3 => some .link | 0, 4 => some .kn4
  | 0, 5 => some .tableLoad | 1, 0 => some .tensor | 2, 0 => some .toQueue | 2, 2 => some .toQueueExpand
  | 2, 4 => some .toQueueKn4 | 3, 0 => some .fromQueue | _, _ => none

/-- Whether the AUX bits that a row does not use, and the fields that it has as zero, are zero (R338). -/
def DmaDesc.auxOk (d : DmaDesc) (k : DmaKind) : Bool :=
  match k with
  | .copy | .link | .kn4 => decide (d.aux0 = 0) && decide (d.aux1 = 0)
  | .compress => decide (d.aux0 < 2 ^ 48) && decide (d.aux1 = 0)
  | .expand => decide (d.aux0 < 2 ^ 48) && decide (d.aux1 < 2 ^ 32)
  | .tableLoad => decide (d.aux0 = 0) && decide (d.aux1 = 0) && decide (d.dst = 0)
  | .tensor => decide (d.aux0 < 2 ^ 56) && decide (d.aux1 < 2 ^ 48)
  | .toQueue => decide (d.aux0 < 2 ^ 56) && decide (d.aux1 < 2 ^ 48) && decide (d.dst = 0)
  | .toQueueExpand | .toQueueKn4 => decide (d.aux1 = 0) && decide (d.dst = 0)
  | .fromQueue => decide (d.aux0 = 0) && decide (d.aux1 = 0) && decide (d.src = 0)

/-- Window fields of AUX0 and AUX1. -/
def DmaDesc.winAxes (d : DmaDesc) : Nat := field d.aux0 54 2
def DmaDesc.axisA (d : DmaDesc) : Nat := field d.aux0 48 3
def DmaDesc.axisB (d : DmaDesc) : Nat := field d.aux0 51 3
def DmaDesc.win0 (d : DmaDesc) : Nat := field d.aux0 0 48
def DmaDesc.win1 (d : DmaDesc) : Nat := field d.aux1 0 48

/-- Whether the window parameters are within Table 02-9 (R339, step 2). -/
def DmaDesc.winParamsOk (d : DmaDesc) (k : DmaKind) : Bool :=
  match k with
  | .tensor | .toQueue =>
    (decide (d.winAxes = 0) || (winReservedOk d.win0 && winRange (winOf d.win0))) &&
    (decide (d.winAxes ≠ 2) || (winReservedOk d.win1 && winRange (winOf d.win1))) && decide (d.winAxes ≠ 3)
  | _ => true

/-- The unit of a SWAP mode in bytes (Table 10-5); none for the reserved modes. -/
def swapUnit : Nat → Option Nat
  | 0 => some 1 | 1 => some 2 | 2 | 3 => some 4 | 4 => some 8 | _ => none

/-- One unit reordered (Table 10-5). -/
def swapOne {α : Type} (mode : Nat) (l : List α) : List α :=
  if mode = 3 then l.drop 2 ++ l.take 2 else if mode = 0 then l else l.reverse

/-- Data reordered by units (R343). -/
def swapData {α : Type} (mode : Nat) (l : List α) : List α :=
  let u := (swapUnit mode).getD 1
  (chunks u (l.length / u + 1) l).flatMap (swapOne mode)

/-- A WRAP value that Table 10-2 allows. -/
def wrapOk (w : Nat) : Bool := decide (w = 0) || (decide (12 ≤ w) && decide (w ≤ 30))

/-- Steps 1 and 2 of R339. -/
def dmaFieldsOk (n : Nat) (d : DmaDesc) : Bool :=
  match d.kind, swapUnit d.swap, splitOf d.elem with
  | some k, some u, some x =>
    dmaReservedOk n && d.auxOk k && d.winParamsOk k &&
    decide (d.next % 64 = 0) && decide (d.record % 32 = 0) && wrapOk d.srcWrap && wrapOk d.dstWrap &&
    (decide (d.mode = 0) || (decide (d.srcWrap = 0) && decide (d.dstWrap = 0))) &&
    decide (d.len ≠ 0) && decide (d.len % u = 0) &&
    (match k with
     | .compress | .link => decide (d.len % x.size = 0)
     | .tableLoad => decide (d.len = 144)
     | _ => true)
  | _, _, _ => false

/-! ## Placement (R340) -/

/-- Whether an address lies in a tile store. -/
def inTileStore (a : Nat) : Bool := decide (0x300000000000 ≤ a) && decide (a < 0x400000000000)

/-- Whether an address may be a source: tower memory, scratch of the partition, or the host window. -/
def State.localPlace (s : State) (p a : Nat) : Bool :=
  match s.region p a with
  | .hashed | .banked _ _ | .scratch _ _ | .hostWindow _ => true
  | .remote _ | .none => false

/-- Whether an address lies in the host window. -/
def State.inHost (s : State) (p a : Nat) : Bool :=
  match s.region p a with
  | .hostWindow _ => true
  | _ => false

/-- Whether an address lies in the remote region. -/
def State.inRemote (s : State) (p a : Nat) : Bool :=
  match s.region p a with
  | .remote _ => true
  | _ => false

/-- Where RECORD may lie. -/
def State.recordPlace (s : State) (p a : Nat) : Bool := decide (a = 0) || (!s.inRemote p a && !inTileStore a)

/-! ## Reading and writing -/

/-- The status of a refused access: REFUSED for the host window, BOUNDS elsewhere (R340, R353). -/
def State.refusal (s : State) (p a : Nat) : Status := if s.inHost p a then .refused else .bounds

/-- The segments of bytes `off` to `off` + `n` - 1 of an end of a transfer (R342). -/
def segments (a wrap off n : Nat) : List (Nat × Nat) :=
  if wrap = 0 then [(a + off, n)]
  else
    let w := 2 ^ wrap
    let pos := (a + off) % w
    let k := min n (w - pos)
    (a - a % w + pos, k) :: (if k < n then [(a - a % w, n - k)] else [])

/-- The bytes of a run, each with whether it was delivered poisoned. -/
def Run.marked (r : Run) (a n : Nat) : List (Byte × Bool) :=
  (List.range n).map fun i => (r.data.get i, r.poison.contains ((a % 32 + i) / 32))

/-- Read segments: the bytes, or the status of a refusal, or UNCORRECTED where the host failed to answer (R352). -/
def State.readSegs (s : State) (e p : Nat) : List (Nat × Nat) → State × Except Status (List (Byte × Bool))
  | [] => (s, .ok [])
  | (a, n) :: r =>
    let (s, x) := s.readRun (.dma e) p a n
    if x.refused then (s, .error (s.refusal p a))
    else if x.failed then (s, .error .uncorrected)
    else match s.readSegs e p r with
      | (s, .ok l) => (s, .ok (x.marked a n ++ l))
      | (s, .error st) => (s, .error st)

/-- Whether any byte is poisoned. -/
def anyPoison (l : List (Byte × Bool)) : Bool := l.any fun x => x.2

/-- Write bytes word by word from `a`, a word with a poisoned byte whole and poisoned, until a word is refused: the bytes
written. -/
def State.putMarked (s : State) (e p : Nat) : Nat → Nat → List (Byte × Bool) → State × Nat × Bool
  | 0, _, _ => (s, 0, true)
  | k + 1, a, l =>
    match l with
    | [] => (s, 0, true)
    | _ =>
      let n := min l.length (32 - a % 32)
      let now := l.take n
      let (s, ok) := if anyPoison now then s.writeWord (.dma e) p (a - a % 32) (List.replicate 32 0) true false
                     else s.writeWord (.dma e) p a (now.map (·.1)) false false
      if !ok then (s, 0, false)
      else
        let (s, m, ok) := s.putMarked e p k (a + n) (l.drop n)
        (s, n + m, ok)

/-- Write bytes to the segments of an end: the bytes written, and whether all were. -/
def State.writeSegs (s : State) (e p : Nat) : List (Nat × Nat) → List (Byte × Bool) → State × Nat × Bool
  | [], _ => (s, 0, true)
  | (a, n) :: r, l =>
    let (s, m, ok) := s.putMarked e p (n / 32 + 2) a (l.take n)
    if !ok then (s, m, false)
    else
      let (s, k, ok) := s.writeSegs e p r (l.drop n)
      (s, m + k, ok)

/-- The link receive engine beside which a DMA engine's remote accesses leave (R381). -/
def State.dmaQuay (s : State) (e : Nat) : Nat := if e < 12 then 2 * Config.spireOfGroup s.variant e else 0

/-- A flit sent by a DMA channel; a transfer whose first link runs at reduced width is DEGRADED (R348). -/
def State.sendDma (s : State) (e c : Nat) (f : Flit) : State :=
  let s := match s.route none f with
    | .out l _ => if s.regBit (linkBase l + Off.volLstat) 25 then s.modChan e c fun x => { x with degraded := true } else s
    | _ => s
  s.sendFlit none (s.dmaQuay e) f

/-- The payload of the next WRITE flit at an address with `n` bytes left (Table 11-11). -/
def flitCut (a n : Nat) : Nat :=
  if a % 32 = 0 && decide (32 ≤ n) then 32 * min 7 (n / 32)
  else if a % 8 = 0 && decide (8 ≤ n) then 8 else min 4 n

/-- Send bytes to a remote offset as WRITE flits, each raising the counter by its bytes (R383). -/
def State.sendWrites (s : State) (e c p : Nat) (d : DmaDesc) : Nat → Nat → List (Byte × Bool) → State
  | 0, _, _ => s
  | k + 1, x, l =>
    match l with
    | [] => s
    | _ =>
      let n := flitCut (x % 32) l.length
      let now := l.take n
      let words := (chunks 32 8 now).zipIdx.map fun w => b2n (anyPoison w.1) * 2 ^ w.2
      let f := { s.remoteFlit p x with
        op := BitVec.ofNat 4 opWrite, len := BitVec.ofNat 9 n, payload := now.map (·.1), tag := BitVec.ofNat 12 (dmaTag e c),
        poison := BitVec.ofNat 7 words.sum, cntEn := d.cntEn, counter := BitVec.ofNat 12 d.counter }
      (s.sendDma e c f).sendWrites e c p d k (x + n) (l.drop n)

/-- Send a coded block as CBLOCK flits (R362, R383): all name the block's place, FIRST is on the first. -/
def State.sendBlock (s : State) (e c p : Nat) (d : DmaDesc) (x : Nat) (first : Bool) : Nat → List Byte → State
  | 0, _ => s
  | k + 1, l =>
    match l with
    | [] => s
    | _ =>
      let now := l.take 224
      let f := { s.remoteFlit p x with
        op := BitVec.ofNat 4 opCblock, len := BitVec.ofNat 9 now.length, payload := now,
        tag := BitVec.ofNat 12 (dmaTag e c), first := first, cntEn := d.cntEn && first,
        counter := BitVec.ofNat 12 (if first then d.counter else 0) }
      (s.sendDma e c f).sendBlock e c p d x false k (l.drop 224)

/-! ## The check of a descriptor (R339, steps 3 and 4) -/

/-- A tensor descriptor that a DMA descriptor names, if `want` (R339, step 3). -/
def State.dmaTensor (s : State) (e p a : Nat) (want : Bool) : State × Except Status (Option TensorDesc) :=
  if want then
    match s.createDesc (.dma e) p a with
    | (s, .ok d) => (s, .ok (some d))
    | (s, .error st) => (s, .error st)
  else (s, .ok none)

/-- The extents of what the engine reads: the source's, or those of its window expansion (R344). -/
def DmaDesc.sourceExtents (d : DmaDesc) (x : TensorDesc) : List Nat :=
  winExtents x d.winAxes d.axisA d.axisB d.win0 d.win1

/-- Bytes of a number of elements of a format. -/
def packedBytes (f : Format) (n : Nat) : Nat := ceilDiv (n * elemBits f) 8

/-- Elements of a tensor. -/
def TensorDesc.count (d : TensorDesc) : Nat := (d.ext.take d.ndim).prod

/-- The rules of R344 for a TENSOR descriptor. -/
def DmaDesc.tensorOk (d : DmaDesc) (x y : TensorDesc) : Bool :=
  winOk x d.winAxes d.axisA d.axisB d.win0 d.win1 && decide (d.sourceExtents x = y.ext.take y.ndim) &&
  (decide (x.fmt = y.fmt) || decide (y.fmt ≠ .e8m0)) && decide (d.len = packedBytes y.fmt y.count)

/-- Whether a channel's queue takes or gives a format (R345). -/
def State.queueOk (s : State) (e c : Nat) (inward : Bool) (ok : Format → Bool) : Bool :=
  match s.channelQueue e c inward with
  | some (k, q) => ok ((s.core k).queue q).fmt
  | none => false

/-- The formats that a stream's element split holds; bytes may hold any format but an MX one (DEDUCED, log 41). -/
def splitHolds (elem : Nat) (f : Format) : Bool :=
  match elem with
  | 0 => !isMx f
  | 1 => decide (f = .bf16) | 2 => decide (f = .fp16) | 3 => decide (f = .fp32) | 4 => decide (f = .e4m3)
  | 5 => decide (f = .e5m2) | _ => false

/-- The rules of R340, R342, R343 and R345 (R339, step 4). The header of a stream that goes to a queue is read here. -/
def State.placementOk (s : State) (e c p : Nat) (d : DmaDesc) (k : DmaKind) (x y : Option TensorDesc) :
    State × Except Status Bool :=
  let u := (swapUnit d.swap).getD 1
  let src := match x with
    | some t => t.base
    | none => d.src
  let dst := match y with
    | some t => t.base
    | none => d.dst
  let remote := s.inRemote p dst
  let common :=
    s.recordPlace p d.record && (decide (k = .fromQueue) || s.localPlace p src) &&
    (decide (d.mode = 0) || decide (d.swap = 0)) &&
    (match k with
     | .tableLoad | .toQueue | .toQueueExpand | .toQueueKn4 => true
     | .link => remote
     | .copy => remote || s.localPlace p dst
     | _ => s.localPlace p dst) &&
    !(d.cntEn && (decide (d.mode ≠ 2) && decide (k ≠ .tableLoad)) && s.inHost p dst) &&
    (decide (d.mode ≠ 0) || (decide (d.src % u = 0) && decide (d.dst % u = 0))) &&
    (match k with
     | .compress => decide (d.dstWrap = 0)
     | .expand | .kn4 => decide (d.srcWrap = 0)
     | .copy => !remote || (decide (d.dst % 4 = 0) && decide (d.len % 4 = 0))
     | _ => true)
  match k with
  | .tensor => (s, .ok (common && (match x, y with
      | some t, some v => d.tensorOk t v
      | _, _ => false)))
  | .toQueue => (s, .ok (common && (match x with
      | some t => winOk t d.winAxes d.axisA d.axisB d.win0 d.win1 && s.queueOk e c true fun f => decide (f = t.fmt)
      | none => false)))
  | .fromQueue => (s, .ok (common && (match y with
      | some t => s.queueOk e c false fun f => decide (f = t.fmt)
      | none => false)))
  | .toQueueExpand | .toQueueKn4 =>
    let n := if k = .toQueueKn4 then 8 else 16
    if !common || field d.aux0 0 32 = 0 || field d.aux0 32 32 = 0 then (s, .ok false)
    else match s.readSegs e p [(d.src, n)] with
      | (s, .error st) => (s, .error st)
      | (s, .ok l) =>
        if anyPoison l then (s, .error .uncorrected)
        else
          let bs := l.map (·.1)
          let elem := if k = .toQueueKn4 then (if (kn4Head bs).fp16 then 2 else 1) else (blockHead bs).elem
          (s, .ok (s.queueOk e c true (splitHolds elem)))
  | _ => (s, .ok common)

/-- The check of a descriptor (R339): its tensors, or the status it is refused with. -/
def State.checkDma (s : State) (e c p n : Nat) (d : DmaDesc) :
    State × Except Status (Option TensorDesc × Option TensorDesc) :=
  match d.kind with
  | none => (s, .error .descInvalid)
  | some k =>
    if !dmaFieldsOk n d then (s, .error .descInvalid)
    else match s.dmaTensor e p d.src (decide (k = .tensor) || decide (k = .toQueue)) with
      | (s, .error st) => (s, .error st)
      | (s, .ok x) => match s.dmaTensor e p d.dst (decide (k = .tensor) || decide (k = .fromQueue)) with
        | (s, .error st) => (s, .error st)
        | (s, .ok y) => match s.placementOk e c p d k x y with
          | (s, .error st) => (s, .error st)
          | (s, .ok false) => (s, .error .descInvalid)
          | (s, .ok true) => (s, .ok (x, y))

/-! ## Progress -/

/-- What a unit of a transfer ends in: it moved on, it waits, or it halts the channel. -/
inductive UnitEnd where
  | moved
  | waits (r : ParkReason)
  | halts (st : Status)
  deriving DecidableEq, Repr

/-- Bytes done: PROGRESS, and the counter of a destination in this device (R351). -/
def State.advance (s : State) (e c n : Nat) (count : Bool) : State :=
  let ch := s.chan e c
  let s := match ch.desc with
    | some d => if d.cntEn && count then s.addCounter ch.part d.counter n else s
    | none => s
  s.modChan e c fun x => { x with prog := x.prog + n }

/-- One more tile done; `final` with the last. -/
def State.tileDone (s : State) (e c : Nat) (final : Bool) : State :=
  s.modChan e c fun x => { x with tiles := x.tiles + 1, final := final }

/-- One more block or line done; `final` with the last. -/
def State.itemDone (s : State) (e c : Nat) (final : Bool) : State :=
  s.modChan e c fun x => { x with items := x.items + 1, final := final }

/-- Bytes moved in a burst (R336). -/
def State.passed (s : State) (e c n : Nat) : State := s.modChan e c fun x => { x with moved := x.moved + n }

/-- A tile moves in bursts of 2 KiB, and what it does it does with the last of them (DESIGN CHOICE, log 168): the state after an
earlier burst, none at the last. -/
def State.midTile (s : State) (e c size : Nat) : Option State :=
  if (s.chan e c).step + 2048 < size then
    some (s.modChan e c fun x => { x with step := x.step + 2048, moved := x.moved + 2048 })
  else none

/-- The last burst of a tile. -/
def State.tileEnd (s : State) (e c size : Nat) : State :=
  s.modChan e c fun x => { x with moved := x.moved + (size - x.step), step := 0 }

/-- Data reordered and written to a LINEAR destination in this device, as PROGRESS and the counter have it. -/
def State.deliverBytes (s : State) (e c : Nat) (d : DmaDesc) (l : List (Byte × Bool)) : State × UnitEnd :=
  let ch := s.chan e c
  let (s, n, ok) := s.writeSegs e ch.part (segments d.dst d.dstWrap ch.prog l.length) (swapData d.swap l)
  let s := s.advance e c n true
  (s, if ok then .moved else .halts (s.refusal ch.part d.dst))

/-- The first `n` bytes of the buffer leave it, and with a block's last byte its reference to a slot (R361). -/
def State.drain (s : State) (e c n : Nat) : State :=
  s.modChan e c fun x => { x with
    buf := x.buf.drop n, refs := (x.refs.filter fun r => decide (n < r.2)).map fun r => (r.1, r.2 - n) }

/-- A burst of expanded data to a LINEAR destination: whole units, cut at LENGTH (R343, R360). A stream whose position is lost halts
the channel once what stands for its last block is written (R359). -/
def State.deliverExpanded (s : State) (e c : Nat) (d : DmaDesc) : State × UnitEnd :=
  let ch := s.chan e c
  let u := (swapUnit d.swap).getD 1
  let n := min (min 2048 ch.buf.length) (d.len - ch.prog) / u * u
  match ((s.drain e c n).passed e c n).deliverBytes e c d (ch.buf.take n) with
  | (s, .moved) =>
    let final := decide ((s.chan e c).prog ≥ d.len)
    let s := s.modChan e c fun x => { x with final := final }
    (s, if ch.lost && (final || decide ((s.chan e c).buf.length < u)) then .halts .checkFail else .moved)
  | x => x

/-- Note poison written (R352) or a failed block (R359). -/
def State.notePoison (s : State) (e c : Nat) (poison check : Bool) : State :=
  s.modChan e c fun x => { x with poisonOut := x.poisonOut || poison, checkFail := x.checkFail || check }

/-! ## LINEAR (R341, R342, R352) -/

/-- A burst of a plain copy. -/
def State.copyUnit (s : State) (e c : Nat) (d : DmaDesc) : State × UnitEnd :=
  let ch := s.chan e c
  let p := ch.part
  let n := min 2048 (d.len - ch.prog)
  match (s.passed e c n).readSegs e p (segments d.src d.srcWrap ch.prog n) with
  | (s, .error st) => (s, .halts st)
  | (s, .ok l) =>
    match s.region p d.dst with
    | .remote x =>
      if !s.outEn p then (s, .halts .bounds)
      else
        let data := swapData d.swap l
        let s := (segments x d.dstWrap ch.prog n).foldl (fun a g =>
          let (s, l) := a
          (s.sendWrites e c p d 2048 g.1 (l.take g.2), l.drop g.2)) (s, data) |>.1
        let s := (s.advance e c n false).notePoison e c (anyPoison l) false
        (s.itemDone e c (decide (ch.prog + n ≥ d.len)), .moved)
    | .hostWindow _ =>
      if anyPoison l then (s, .halts .uncorrected)
      else match s.deliverBytes e c d l with
        | (s, .moved) => (s.itemDone e c (decide (ch.prog + n ≥ d.len)), .moved)
        | x => x
    | _ => match (s.notePoison e c (anyPoison l) false).deliverBytes e c d l with
      | (s, .moved) => (s.itemDone e c (decide (ch.prog + n ≥ d.len)), .moved)
      | x => x

/-- A burst of a block of `size` bytes to be coded: the block, reordered, once it has been read whole; refused where it is poisoned
(R343, R352). -/
def State.gather (s : State) (e c : Nat) (d : DmaDesc) (size : Nat) : State × Except Status (Option (List Byte)) :=
  let ch := s.chan e c
  let n := min 2048 (size - ch.buf.length)
  match (s.passed e c n).readSegs e ch.part (segments d.src d.srcWrap (ch.prog + ch.buf.length) n) with
  | (s, .error st) => (s, .error st)
  | (s, .ok l) =>
    if anyPoison l then (s, .error .uncorrected)
    else if ch.buf.length + n < size then (s.modChan e c fun x => { x with buf := x.buf ++ l }, .ok none)
    else (s.modChan e c fun x => { x with buf := [] }, .ok (some (swapData d.swap ((ch.buf ++ l).map (·.1)))))

/-- Write an entry of the index table (R360). -/
def State.writeIndex (s : State) (e p : Nat) (d : DmaDesc) (k v : Nat) : State × Bool :=
  if d.aux0 = 0 then (s, true) else s.writeRun (.dma e) p (d.aux0 + 4 * k) (leBytes 4 v) [] false

/-- COMPRESS: a burst, and with a block's last one the stream block and its entry of the index table (R358, R360). A block that is
refused midway counts none of its uncompressed bytes (DESIGN CHOICE, log 167). -/
def State.compressUnit (s : State) (e c : Nat) (d : DmaDesc) : State × UnitEnd :=
  let ch := s.chan e c
  let p := ch.part
  match s.gather e c d (min 4096 (d.len - ch.prog)) with
  | (s, .error st) => (s, .halts st)
  | (s, .ok none) => (s, .moved)
  | (s, .ok (some data)) =>
    let b := codeBlock (s.engine e).slots d.elem data
    let size := roundTo b.length 32
    let block := b ++ List.replicate (size - b.length) 0
    let (s, n, ok) := s.putMarked e p (size / 32 + 2) (d.dst + ch.coded) (block.map fun x => (x, false))
    if !ok then (s.modChan e c fun x => { x with coded := x.coded + n }, .halts (s.refusal p d.dst))
    else
      let s := s.modChan e c fun x => { x with coded := x.coded + size }
      let s := s.advance e c data.length true
      let last := decide (ch.prog + data.length ≥ d.len)
      let (s, ok) := s.writeIndex e p d ch.items (ch.coded / 32)
      let (s, ok) := if ok && last then s.writeIndex e p d (ch.items + 1) ((ch.coded + size) / 32) else (s, ok)
      if ok then (s.itemDone e c last, .moved) else (s, .halts (s.refusal p d.aux0))

/-- LINK: a burst, and with a block's last one the block is coded at the Quay and sent (R362). Blocks are cut at the end of a
circular destination, so that each is written where R342 puts its bytes (DESIGN CHOICE, log 105). -/
def State.linkUnit (s : State) (e c : Nat) (d : DmaDesc) : State × UnitEnd :=
  let ch := s.chan e c
  match s.region ch.part d.dst, (segments d.dst d.dstWrap ch.prog (min 4096 (d.len - ch.prog))).head? with
  | .remote _, some (a, size) =>
    if !s.outEn ch.part then (s, .halts .bounds)
    else match s.gather e c d size with
      | (s, .error st) => (s, .halts st)
      | (s, .ok none) => (s, .moved)
      | (s, .ok (some data)) =>
        let b := codeBlock (s.engine e).slots d.elem data
        let s := s.sendBlock e c ch.part d (a - 0x500000000000) true (b.length / 224 + 1) b
        ((s.advance e c data.length false).itemDone e c (decide (ch.prog + data.length ≥ d.len)), .moved)
  | _, _ => (s, .halts .descInvalid)

/-- The place of the next stream block: along the stream, or by the index table (R360). -/
def State.blockPlace (s : State) (e c : Nat) (d : DmaDesc) : State × Except Status Nat :=
  let ch := s.chan e c
  if d.mode ≠ 0 || d.aux0 = 0 then (s, .ok (d.src + ch.coded))
  else match s.readSegs e ch.part [(d.aux0 + 4 * (field d.aux1 0 32 + ch.items), 4)] with
    | (s, .error st) => (s, .error st)
    | (s, .ok l) => if anyPoison l then (s, .error .uncorrected) else (s, .ok (d.src + 32 * leNum (l.map (·.1))))

/-- What the expander makes of the next block of a stream: it waits for a slot, it stops, or the block is in the channel's buffer;
`fail` where it failed its checks. -/
inductive Expanded where
  | waits (slot : Nat)
  | halts (st : Status)
  | took (fail : Bool)
  deriving DecidableEq, Repr

/-- Poisoned bytes in place of a block. -/
def deadBytes (n : Nat) : List (Byte × Bool) := List.replicate n (0, true)

/-- A block taken: its output goes to the buffer, holding the slot that it names, and the stream goes on behind it. -/
def State.takeBlock (s : State) (e c size : Nat) (slot : Option Nat) (l : List (Byte × Bool)) (lost : Bool) : State :=
  s.modChan e c fun x => { x with
    coded := x.coded + size, items := x.items + 1, lost := x.lost || lost, buf := x.buf ++ l,
    refs := match slot with
      | some n => x.refs ++ [(n, x.buf.length + l.length)]
      | none => x.refs }

/-- Take the next stream block through the expander (R359). A coded stream that is poisoned stops it (R352). -/
def State.expandNext (s : State) (e c : Nat) (d : DmaDesc) : State × Expanded :=
  let p := (s.chan e c).part
  match s.blockPlace e c d with
  | (s, .error st) => (s, .halts st)
  | (s, .ok a) => match s.readSegs e p [(a, 16)] with
    | (s, .error st) => (s, .halts st)
    | (s, .ok hb) =>
      let h := blockHead (hb.map (·.1))
      if anyPoison hb then (s, .halts .uncorrected)
      else match h.needs.filter fun n => (mget {} (s.engine e).slots n).loading with
        | some n => (s, .waits n)
        | none => match s.readSegs e p [(a + 16, h.codedLen)] with
          | (s, .error st) => (s, .halts st)
          | (s, .ok pb) =>
            if anyPoison pb then (s, .halts .uncorrected)
            else match expandBlock (s.engine e).slots h (pb.map (·.1)) with
              | some b => (s.takeBlock e c h.size h.needs (b.map fun x => (x, false)) false, .took false)
              | none =>
                if h.ulenOk then (s.takeBlock e c h.size h.needs (deadBytes h.ulen) false, .took true)
                else (s.takeBlock e c h.size h.needs (deadBytes 4096) (decide (d.mode ≠ 0) || decide (d.aux0 = 0)), .took true)

/-- Take the next KN4 block through the expander (R363). A block whose CODED_LEN is out of range loses the stream. -/
def State.kn4Next (s : State) (e c : Nat) (d : DmaDesc) : State × Expanded :=
  let ch := s.chan e c
  let a := d.src + ch.coded
  match s.readSegs e ch.part [(a, 8)] with
  | (s, .error st) => (s, .halts st)
  | (s, .ok hb) =>
    let h := kn4Head (hb.map (·.1))
    if anyPoison hb then (s, .halts .uncorrected)
    else if h.codedLen = 0 || h.codedLen > 4096 then (s.takeBlock e c 0 none (deadBytes 2048) true, .took true)
    else match s.readSegs e ch.part [(a + 8, h.codedLen)] with
      | (s, .error st) => (s, .halts st)
      | (s, .ok pb) =>
        if anyPoison pb then (s, .halts .uncorrected)
        else match expandKn4 h (pb.map (·.1)) with
          | some b => (s.takeBlock e c h.size none (b.map fun x => (x, false)) false, .took false)
          | none => (s.takeBlock e c h.size none (deadBytes 2048) false, .took true)

/-- The next block of a channel's stream taken, coded under either scheme. -/
def State.takeNext (s : State) (e c : Nat) (d : DmaDesc) (kn4 : Bool) : State × UnitEnd :=
  if (s.chan e c).lost then (s, .halts .checkFail)
  else match if kn4 then s.kn4Next e c d else s.expandNext e c d with
    | (s, .waits n) => (s, .waits (.slot n))
    | (s, .halts st) => (s, .halts st)
    | (s, .took fail) =>
      if fail && decide (d.mode = 0) && s.inHost (s.chan e c).part d.dst then (s, .halts .checkFail)
      else (s.notePoison e c false fail, .moved)

/-- EXPAND and KN4 into memory: a burst, for which a block is taken where the last is used up (R359, R363). -/
def State.expandUnit (s : State) (e c : Nat) (d : DmaDesc) (kn4 : Bool) : State × UnitEnd :=
  if (s.chan e c).buf.length < (swapUnit d.swap).getD 1 then
    match s.takeNext e c d kn4 with
    | (s, .moved) => s.deliverExpanded e c d
    | x => x
  else s.deliverExpanded e c d

/-- Blocks in flight through a slot (R361): those that the link expander holds, and those whose output a channel holds. -/
def Engine.slotRefs (g : Engine) (n : Nat) : Nat :=
  (g.cblocks.filter fun b => decide (b.bytes.length ≥ b.total) && (blockHead b.bytes).needs == some n).length +
  (g.channels.map fun x => (x.2.refs.filter fun r => decide (r.1 = n)).length).sum

/-- The read and the end of a TABLE_LOAD (R361). -/
def State.tableUnit (s : State) (e c : Nat) (d : DmaDesc) : State × UnitEnd :=
  let ch := s.chan e c
  match s.readSegs e ch.part (segments d.src d.srcWrap 0 144) with
  | (s, .error st) => (s, .halts st)
  | (s, .ok l) =>
    if anyPoison l then (s, .halts .uncorrected)
    else match parseTable (swapData d.swap (l.map (·.1))) with
      | none =>
        (s.modEngine e fun g => { g with slots := mset {} g.slots d.slot {} }, .halts .descInvalid)
      | some (gen, lengths) =>
        let s := s.modEngine e fun g =>
          { g with slots := mset {} g.slots d.slot { loaded := true, gen := gen, lengths := lengths } }
        ((s.modChan e c fun x => { x with prog := 144, moved := 144 }).itemDone e c true, .moved)

/-! ## TENSOR (R344) -/

/-- The element that the engine reads at an index of the expanded source. -/
def DmaDesc.sourceAt (d : DmaDesc) (x : TensorDesc) (i : List Nat) : Resolved :=
  clampRead x (winSource x d.winAxes d.axisA d.axisB d.win0 d.win1 (i.map Int.ofNat))

/-- The status of a transfer whose read of elements stopped (R344, R352, R353). -/
def State.stopStatus (s : State) (p a : Nat) : ReadStop → Status
  | .outside _ => .bounds
  | .refused _ => s.refusal p a
  | .failed => .uncorrected

/-- The codes, scales and poison of elements read without conversion; element positions outside read as zero with scale 1. -/
def State.readCodes (s : State) (e p : Nat) (x : TensorDesc) (l : List Resolved) :
    State × Except ReadStop (List (Nat × Nat × Bool)) :=
  let (s, r) := s.readCells (.dma e) p x l
  (s, r.map fun im => l.map fun c =>
    let v := cellCode im x c
    (v.1, v.2, match c with
      | .inside i => (imageVal im x.fmt (elemPos x i)).2
      | _ => false))

/-- A line of elements of one MX format brought together through a window, as blocks of its own (R45, DESIGN CHOICE, log 110); a
block quantised again is poisoned whole where an element is. -/
def packLine (f : Format) (l : List (Nat × Nat × Bool)) : List (Nat × Nat × Bool) × FpFlags :=
  let bs : List (List (Nat × Nat × Bool) × FpFlags) := (chunks 32 (l.length / 32 + 1) l).map fun b =>
    let cells := b.map fun x => (x.1, x.2.1)
    let (sc, codes, fl) := packBlock f cells
    let bad := (sharedScale f cells).isNone && b.any fun x => x.2.2
    ((codes.zip b).map fun x => (x.1, sc, x.2.2.2 || bad), fl)
  (bs.flatMap fun x => x.1, bs.foldl (fun a x => orFlags a x.2) {})

/-- A line of the destination: codes, scales and poison, and the flags of its conversion. -/
def State.tensorLine (s : State) (e p : Nat) (d : DmaDesc) (x y : TensorDesc) (l : List Resolved) :
    State × Except ReadStop (List (Nat × Nat × Bool) × FpFlags) :=
  if x.fmt = y.fmt then
    let (s, r) := s.readCodes e p x l
    (s, r.map fun r => if isMx x.fmt && decide (d.winAxes ≠ 0) then packLine x.fmt r else (r, {}))
  else
    let (s, r) := s.readElems (.dma e) p x 0 l
    (s, r.map fun r => encodeLine y.fmt .rne false s.rounds (r.map (convertVal x y)))

/-- Elements of a burst of 2 KiB of a format, whole blocks of 32. -/
def burstElems (f : Format) : Nat := 16384 / elemBits f / 32 * 32

/-- The elements `lo` to `hi - 1` of line `n` of a destination whose writes came before the word at `w`. -/
def lineWritten (y : TensorDesc) (n lo hi w : Nat) : Nat :=
  let outer := lineIndex ((y.ext.take y.ndim).drop 1) n
  ((List.range (hi - lo)).filter fun k =>
    let q := elemPos y ((lo + k) :: outer)
    decide ((codeSpan y.fmt q.base q.u).2 < w)).length

/-- A burst of a line along dimension 0 of the destination. -/
def State.tensorUnit (s : State) (e c : Nat) (d : DmaDesc) (x y : TensorDesc) : State × UnitEnd :=
  let ch := s.chan e c
  let p := ch.part
  let e0 := y.ext.getD 0 1
  let lo := ch.step
  let hi := min e0 (lo + burstElems y.fmt)
  match s.tensorLine e p d x y ((List.range (hi - lo)).map fun k => d.sourceAt x (y.at (lo + k) ch.items)) with
  | (s, .error r) => (s, .halts (s.stopStatus p x.base r))
  | (s, .ok (codes, fl)) =>
    let bad := codes.any fun v => v.2.2
    if bad && s.inHost p y.base then (s, .halts .uncorrected)
    else
      let (s, stop) := s.writeLine (.dma e) p y ch.items lo codes 0
      let done := match stop with
        | some w => lo + lineWritten y ch.items lo hi w
        | none => hi
      let s := (s.advance e c (packedBytes y.fmt (ch.items * e0 + done) - ch.prog) true).notePoison e c bad false
      let s := s.modChan e c fun z => { z with fp := orFlags z.fp fl, moved := max z.moved z.prog, step := if hi < e0 then hi else 0 }
      if stop.isSome then (s, .halts (s.refusal p y.base))
      else if hi < e0 then (s, .moved)
      else (s.itemDone e c (decide (ch.items + 1 ≥ y.count / max 1 (y.ext.getD 0 1))), .moved)

/-! ## Queues (R345) -/

/-- The tiles of a tensor's extents: across, down, and over dimensions 2 to 4. -/
def tileGrid (ext : List Nat) : Nat × Nat × List Nat :=
  (ceilDiv (ext.getD 0 1) 64, ceilDiv (ext.getD 1 1) 64, ext.drop 2)

/-- Tiles of a tensor. -/
def tileCount (ext : List Nat) : Nat := let (a, b, r) := tileGrid ext; a * b * r.prod

/-- Tile `n`: its first row and column, its shape, and the indices of dimensions 2 to 4. -/
def tileAt (ext : List Nat) (n : Nat) : Nat × Nat × Nat × Nat × List Nat :=
  let (a, b, r) := tileGrid ext
  let c0 := 64 * (n % a)
  let r0 := 64 * (n / a % b)
  (r0, c0, min 64 (ext.getD 1 1 - r0), min 64 (ext.getD 0 1 - c0), lineIndex r (n / a / b))

/-- The tile at a place of a source tensor. -/
def State.sourceTile (s : State) (e p : Nat) (d : DmaDesc) (x : TensorDesc) (ext : List Nat)
    (t : Nat × Nat × Nat × Nat × List Nat) (last : Bool) : State × Except ReadStop (Tile × FpFlags) :=
  let (r0, c0, rows, cols, outer) := t
  let (s, t) := s.readTile (.dma e) p x rows cols fun r k => d.sourceAt x (((c0 + k) :: (r0 + r) :: outer).take ext.length)
  (s, t.map fun t => t.pack last)

/-- Push a tile to the channel's queue. -/
def State.pushTile (s : State) (e c : Nat) (kq : Nat × Nat) (t : Tile) (last : Bool) (check : Bool) : State :=
  let s := s.modCore kq.1 fun x => x.push kq.2 t.data t.tag
  let s := (s.advance e c (tileBytes t.fmt) true).notePoison e c (tagPoison t.tag && !check) check
  s.tileDone e c last

/-- A queue that is not there: its job may be pre-empted; else the binding is lost. -/
def State.noQueue (s : State) (e c : Nat) (inward : Bool) : UnitEnd :=
  if s.savedQueue e c (s.chan e c).part inward then .waits .queue else .halts .bounds

/-- One tile of a tensor to the queue. -/
def State.toQueueUnit (s : State) (e c : Nat) (d : DmaDesc) (x : TensorDesc) : State × UnitEnd :=
  let ch := s.chan e c
  match s.channelQueue e c true with
  | none => (s, s.noQueue e c true)
  | some kq =>
    if (s.core kq.1).halted || !((s.core kq.1).queue kq.2).room then (s, .waits .queue)
    else
      let ext := d.sourceExtents x
      let last := decide (ch.tiles + 1 ≥ tileCount ext)
      match s.midTile e c (tileBytes x.fmt) with
      | some s => (s, .moved)
      | none => match (s.tileEnd e c (tileBytes x.fmt)).sourceTile e ch.part d x ext (tileAt ext ch.tiles) last with
      | (s, .error r) => (s, .halts (s.stopStatus ch.part x.base r))
      | (s, .ok (tile, fl)) =>
        let s := s.modChan e c fun z => { z with fp := orFlags z.fp fl }
        (s.pushTile e c kq tile last false, .moved)

/-- The tile of a dense row-major stretch of bytes that begins at its first row. -/
def denseTile (f : Format) (l : List (Byte × Bool)) (e0 c0 rows cols : Nat) (last : Bool) : Tile :=
  let mem := Memory.setBytes [] 0 (l.map (·.1))
  let code (r k : Nat) : Nat × Nat := (codeAt mem.get f (rowBytes f e0 * r) (c0 + k), 127)
  let bad := (List.range rows).any fun r => (List.range cols).any fun k =>
    let (a, b) := codeSpan f (rowBytes f e0 * r) (c0 + k)
    (l.getD a (0, false)).2 || (l.getD b (0, false)).2
  (({ fmt := f, rows := rows, cols := cols, poison := bad,
       cells := (List.range rows).map fun r => (List.range cols).map (code r) } : SrcTile).pack last).1

/-- One block or one tile of an expanded stream to the queue (R345, R363): the stream is expanded one tile row at a time. -/
def State.toQueueCoded (s : State) (e c : Nat) (d : DmaDesc) (kn4 : Bool) : State × UnitEnd :=
  let ext := [field d.aux0 0 32, field d.aux0 32 32]
  match s.channelQueue e c true with
  | none => (s, s.noQueue e c true)
  | some kq =>
    let q := (s.core kq.1).queue kq.2
    if (s.core kq.1).halted || !q.room then (s, .waits .queue)
    else
      let ch := s.chan e c
      let (r0, c0, rows, cols, _) := tileAt ext ch.tiles
      let need := rowBytes q.fmt (ext.getD 0 1) * min 64 (ext.getD 1 1 - r0)
      if ch.buf.length < need then s.takeNext e c d kn4
      else match s.midTile e c (tileBytes q.fmt) with
        | some s => (s, .moved)
        | none =>
          let last := decide (ch.tiles + 1 ≥ tileCount ext)
          let t := denseTile q.fmt (ch.buf.take need) (ext.getD 0 1) c0 rows cols last
          let s := s.tileEnd e c (tileBytes q.fmt)
          let s := if c0 + cols ≥ ext.getD 0 1 then s.drain e c need else s
          let s := s.pushTile e c kq t last (tagPoison t.tag)
          (s, if last && ch.lost then .halts .checkFail else .moved)

/-- Bytes of the elements of a tile that a write to a tensor carries: all within the tile's shape and the extents, or those whose
writes came before the word at which it stopped. -/
def tileCarried (y : TensorDesc) (r0 c0 : Nat) (outer : List Nat) (t : Tile) (stop : Option Nat) : Nat :=
  let rows := min (tagRows t.tag) (y.ext1 - r0)
  let cols := min (tagCols t.tag) (y.ext.getD 0 1 - c0)
  match stop with
  | none => shapeBytes t.fmt rows cols
  | some w => packedBytes t.fmt ((List.range rows).map fun r => ((List.range cols).filter fun k =>
      let q := elemPos y ((c0 + k) :: (r0 + r) :: outer)
      decide ((codeSpan y.fmt q.base q.u).2 < w)).length).sum

/-- One tile of the queue to a tensor. Elements that lie outside the extents follow CLAMP (R65). -/
def State.fromQueueUnit (s : State) (e c : Nat) (y : TensorDesc) : State × UnitEnd :=
  let ch := s.chan e c
  let p := ch.part
  match s.channelQueue e c false with
  | none => (s, s.noQueue e c false)
  | some kq =>
    if (s.core kq.1).halted || ((s.core kq.1).queue kq.2).count = 0 then (s, .waits .queue)
    else
      let t := (s.core kq.1).headTile kq.2
      let size := tileBytes t.fmt
      match s.midTile e c size with
      | some s => (s, .moved)
      | none =>
      let s := (s.tileEnd e c size).modCore kq.1 fun x => x.pop kq.2
      let ext := y.ext.take y.ndim
      let (r0, c0, _, _, outer) := tileAt ext ch.tiles
      let out := decide (r0 + tagRows t.tag > ext.getD 1 1) || decide (c0 + tagCols t.tag > ext.getD 0 1)
      if tagPoison t.tag && s.inHost p y.base then (s, .halts .uncorrected)
      else if out && y.clamp = 2 then (s, .halts .bounds)
      else
        let (s, stop) := s.writeTile (.dma e) p y r0 c0 outer t 0
        let s := (s.advance e c (tileCarried y r0 c0 outer t stop) true).notePoison e c (tagPoison t.tag) false
        let s := s.modChan e c fun z => { z with fp := { z.fp with clamped := z.fp.clamped || out } }
        if stop.isSome then (s, .halts (s.refusal p y.base))
        else (s.tileDone e c (decide (ch.tiles + 1 ≥ tileCount ext)), .moved)

/-- One unit of the transfer that a channel's descriptor describes. -/
def State.moveUnit (s : State) (e c : Nat) (d : DmaDesc) : State × UnitEnd :=
  let ch := s.chan e c
  match d.kind, ch.srcDesc, ch.dstDesc with
  | some .copy, _, _ => s.copyUnit e c d
  | some .compress, _, _ => s.compressUnit e c d
  | some .expand, _, _ => s.expandUnit e c d false
  | some .kn4, _, _ => s.expandUnit e c d true
  | some .link, _, _ => s.linkUnit e c d
  | some .tableLoad, _, _ => s.tableUnit e c d
  | some .tensor, some x, some y => s.tensorUnit e c d x y
  | some .toQueue, some x, _ => s.toQueueUnit e c d x
  | some .toQueueExpand, _, _ => s.toQueueCoded e c d false
  | some .toQueueKn4, _, _ => s.toQueueCoded e c d true
  | some .fromQueue, _, some y => s.fromQueueUnit e c y
  | _, _, _ => (s, .halts .descInvalid)

end Sys2Proof.Machine
end

