-- ==== Sys2Proof/Machine/DmaOps.lean ====
section
/-! DEFINITION. The DMA commands (10_dma_and_compression.md): kicks, aborts and register reads; the engine's choice of a
channel, its descriptors, its bursts and transfer ends; the transfers of each mode as a whole; and the link expander. -/

namespace Sys2Proof.Machine

/-! ## Registers (R364, R365) -/

/-- The address of a channel's register. -/
def chanReg (e c off : Nat) : Nat := dmaBase e + off + 0x40 * c

/-- The lowest-numbered job that holds a tower DMA channel (CH_OWNER.JOB): an enabled job with the channel in PJOB_DMA and a
core of the engine's group (R300). -/
def State.channelJob (s : State) (e c : Nat) : Option Nat :=
  if e < 12 && c < 15 && decide (s.owner e < 12) then
    jobList.find? fun j => decide ((s.job (s.owner e) j).state ≠ .disabled) &&
      nbit (s.reg (jobBase (s.owner e) j + Off.pjobDma)) c && s.jobInGroup (s.owner e) j e
  else none

/-- Whether a channel can start a chain: IDLE or HALTED. -/
def Channel.free (c : Channel) : Bool :=
  match c.state with
  | .idle | .halted => true
  | _ => false

/-- Whether a channel exists. -/
def State.channelExists (s : State) (e c : Nat) : Bool := Config.engineExists s.variant e && decide (c < 16)

/-- A write of CH_KICK: a chain starts, or is ignored with KICK_ERR. -/
def State.kick (s : State) (e c chain : Nat) : State :=
  let p := s.chanPart e c
  if (s.chan e c).free && (s.channelJob e c).isNone && decide (p < s.units) &&
      (decide ((s.part p).state = .enabled) || decide ((s.part p).state = .disabled))
  then s.startChain e c p chain .pf
  else s.setRegBit (chanReg e c Off.chStat) 27 true

/-- CH_KICK (Table 10-14). -/
def execChKick (fn : Fn) (engine channel : Nat) (chain : BitVec 48) (s : State) : Result :=
  if !s.channelExists engine channel then done s
  else done (s.onWrite fn (chanReg engine channel Off.chKick) fun s => s.kick engine channel chain.toNat)

/-- A write of PHDMA_KICK: ignored with KICK_ERR under R365, else without trace while the partition is not ENABLED (R374). -/
def State.kickHost (s : State) (p engine c chain : Nat) : State :=
  let e := 12 + engine % 2
  if !(decide (c < 15) && decide (s.chanPart e c = p) && (s.chan e c).free) then s.setRegBit (partBase p + Off.phdmaStat) 0 true
  else if decide ((s.part p).state ≠ .enabled) then s
  else s.startChain e c p chain .phdma

/-- PHDMA_KICK (R365). -/
def execPhdmaKick (fn : Fn) (part engine channel : Nat) (chain : BitVec 48) (s : State) : Result :=
  done (s.onWrite fn (partBase part + Off.phdmaKick) fun s => s.kickHost part engine channel chain.toNat)

/-- CH_CTL.ABORT (R354). -/
def execAbort (fn : Fn) (engine channel : Nat) (s : State) : Result :=
  if !s.channelExists engine channel then done s
  else done (s.onWrite fn (chanReg engine channel Off.chCtl) fun s => s.abortChannel engine channel .aborted)

/-- A read of CH_DESC_LO latches CH_DESC_HI (Table 10-14). -/
def execChDescLoRead (fn : Fn) (engine channel : Nat) (s : State) : Result :=
  if !s.channelExists engine channel then done s
  else done (s.onWrite fn (chanReg engine channel Off.chKick) fun s =>
    s.modChan engine channel fun c => { c with descHi := c.descAddr / 2 ^ 32 })

/-- A read of CH_PROG_LO latches CH_PROG_HI (Table 10-14). -/
def execChProgLoRead (fn : Fn) (engine channel : Nat) (s : State) : Result :=
  if !s.channelExists engine channel then done s
  else done (s.onWrite fn (chanReg engine channel Off.chKick) fun s =>
    s.modChan engine channel fun c => { c with progHi := c.prog / 2 ^ 32 })

/-! ## The engine and its channels (R335, R336) -/

/-- Whether an engine runs: it exists, the clocks run, and a tower engine's tower is not dark. -/
def State.engineRuns (s : State) (e : Nat) : Bool :=
  Config.engineExists s.variant e && !s.stopped && (decide (e ≥ 12) || !s.dark e)

/-- The group that pays for a channel's transfers (R322): the tower's, or the lowest of the partition. -/
def State.payer (s : State) (e p : Nat) : Option Nat := if e < 12 then some e else (s.towersOf p).head?

/-- The next charge of 256 KiB paid, if the tolls paid do not cover `n` more bytes; none where the purse does not cover it
(R322). -/
def State.payDma (s : State) (e c n : Nat) (cls : Nat) : Option State :=
  let ch := s.chan e c
  if n ≤ ch.covered then some s
  else match s.payer e ch.part with
    | none => some (s.setChan e c { ch with covered := ch.covered + 262144 })
    | some g =>
      if s.covers g (dmaPrice cls) then
        some ((s.charge g (dmaPrice cls)).setChan e c { ch with covered := ch.covered + 262144 })
      else none

/-- Bytes that the next unit of a transfer moves at most. -/
def Channel.nextBytes (c : Channel) : Nat :=
  match c.desc with
  | none => 0
  | some d => match d.kind with
    | some .tableLoad => 144
    | some .toQueue | some .toQueueExpand | some .toQueueKn4 | some .fromQueue => 2048
    | _ => min 2048 (d.len - c.moved)

/-- Whether the queue of a parked channel can go on: it has room or a tile, or it is gone. -/
def State.queueReady (s : State) (e c : Nat) (d : DmaDesc) : Bool :=
  let inward := decide (d.mode = 2)
  match s.channelQueue e c inward with
  | none => !s.savedQueue e c (s.chan e c).part inward
  | some kq =>
    let q := (s.core kq.1).queue kq.2
    !(s.core kq.1).halted && (if inward then q.room else decide (q.count ≠ 0))

/-- Whether a channel has work and is not parked (R335). -/
def State.eligible (s : State) (e c : Nat) : Bool :=
  let ch := s.chan e c
  !s.chanPaused e c && match ch.state, ch.park, ch.desc with
  | .running, _, _ | .paused, _, _ => true
  | .parked, some .tolls, some d => (s.payDma e c ch.nextBytes d.cls).isSome
  | .parked, some .brake, _ => s.gov.brakes = []
  | .parked, some .queue, some d => s.queueReady e c d
  | .parked, some (.slot n), _ => !(mget {} (s.engine e).slots n).loading
  | _, _, _ => false

/-- The next channel in ascending order after the one chosen last (R335). -/
def State.nextChannel (s : State) (e : Nat) : Option Nat :=
  ((List.range 16).map fun i => ((s.engine e).last + 1 + i) % 16).find? fun c => s.eligible e c

/-- DMA_CHANNEL_SELECT (R335). -/
def execDmaChannelSelect (engine : Nat) (s : State) : Result :=
  if s.engineRuns engine && (s.engine engine).busy.isNone then
    match s.nextChannel engine with
    | none => done s
    | some c =>
      done ((s.modEngine engine fun g => { g with busy := some c, last := c }).modChan engine c fun x =>
        { x with state := .running, park := none })
  else done s

/-- A channel gives up the engine and keeps its place (R335). -/
def State.parkChannel (s : State) (e c : Nat) (st : ChState) (r : ParkReason) : State :=
  (s.modEngine e fun g => { g with busy := none }).modChan e c fun x => { x with state := st, park := some r }

/-- The descriptor in progress halts the chain: its record, then the end of the chain (R353). -/
def State.haltChannel (s : State) (e c : Nat) (st : Status) : State :=
  let ch := s.chan e c
  let ok := match ch.desc with
    | some d => decide (d.record % 32 = 0) && s.recordPlace ch.part d.record
    | none => false
  let s := if ok then s.dmaRecord e c st false else s
  s.chainEnd e c st (recordFlags false ch.degraded ch.fp) true

/-- A descriptor taken up: the channel's progress starts afresh. -/
def State.takeDesc (s : State) (e c addr : Nat) (d : DmaDesc) : State :=
  s.modChan e c fun x =>
    { x with chain := d.next, descAddr := addr, given := none, desc := some d, srcDesc := none, dstDesc := none, prog := 0,
             coded := 0, items := 0, tiles := 0, buf := [], refs := [], lost := false, moved := 0, step := 0, final := false, fp := {}, poisonOut := false, checkFail := false,
             degraded := false }

/-- A descriptor read, or why it cannot be (R339). -/
def State.readDma (s : State) (e p a : Nat) : State × Except Status Nat :=
  if a % 64 ≠ 0 then (s, .error .descInvalid)
  else
    let (s, r) := s.readRun (.dma e) p a 64
    if r.refused then (s, .error (s.refusal p a))
    else if r.poison ≠ [] then (s, .error .uncorrected)
    else (s, .ok (r.data.num 0 64))

/-- A TABLE_LOAD begins: TABLE_BUSY while blocks refer to the slot, else the slot is marked as loading (R361). -/
def State.markLoad (s : State) (e c : Nat) : State :=
  match (s.chan e c).loadsSlot with
  | none => s
  | some n =>
    if (s.engine e).slotRefs n ≠ 0 then s.haltChannel e c .tableBusy
    else s.modEngine e fun g => { g with slots := mset {} g.slots n { mget {} g.slots n with loading := true } }

/-- A descriptor checked: it runs, or it halts the channel (R339). -/
def State.startDesc (s : State) (e c p n : Nat) (d : DmaDesc) : State :=
  match s.checkDma e c p n d with
  | (s, .error st) => s.haltChannel e c st
  | (s, .ok (x, y)) => (s.modChan e c fun z => { z with srcDesc := x, dstDesc := y, lastIrq := d.irq }).markLoad e c

/-- DMA_DESCRIPTOR_FETCH (R337, R339). -/
def execDmaDescriptorFetch (engine : Nat) (s : State) : Result :=
  match (s.engine engine).busy with
  | none => done s
  | some c =>
    let ch := s.chan engine c
    if !s.engineRuns engine || ch.desc.isSome then done s
    else match ch.abort with
      | some st => done (s.acceptAbort engine c st)
      | none => match ch.given with
        | some d => done ((s.takeDesc engine c 0 d).modChan engine c fun x => { x with lastIrq := d.irq })
        | none => match s.readDma engine ch.part ch.chain with
          | (s, .error st) => done (s.chainEnd engine c st 0 true)
          | (s, .ok n) => done ((s.takeDesc engine c ch.chain (parseDma n)).startDesc engine c ch.part n (parseDma n))

/-- RATE of a channel (R336). -/
def State.chanRate (s : State) (e c : Nat) : Nat := max 1 (min 64 (s.regField (chanReg e c Off.chCtl) 0 7))

/-- After a unit: the bytes moved come off those that the tolls cover, and where they end a burst of 2 KiB a rate-limited channel
parks, with its last burst too (R322, R336). -/
def State.afterUnit (s : State) (e c before : Nat) : State :=
  let ch := s.chan e c
  let s := s.setChan e c { ch with covered := ch.covered - (ch.moved - before) }
  if decide (ch.moved / 2048 = before / 2048) || decide (s.chanRate e c = 64) then s else s.parkChannel e c .parked .gap

/-- One unit of the transfer in progress, with the cases in which the channel stops or parks before it (R335, R354). -/
def State.burst (s : State) (e : Nat) : State :=
  match (s.engine e).busy with
  | none => s
  | some c =>
    let ch := s.chan e c
    match ch.desc with
    | none => s
    | some d =>
      if !s.engineRuns e || ch.final then s
      else match ch.abort with
        | some st => s.acceptAbort e c st
        | none =>
          if s.chanPaused e c then s.parkChannel e c .paused .preempted
          else if s.gov.brakes ≠ [] then s.parkChannel e c .parked .brake
          else match s.payDma e c ch.nextBytes d.cls with
            | none => s.parkChannel e c .parked .tolls
            | some s => match s.moveUnit e c d with
              | (s, .moved) => s.afterUnit e c ch.moved
              | (s, .waits r) => s.parkChannel e c .parked r
              | (s, .halts st) => s.haltChannel e c st

/-- DMA_BURST (R335). -/
def execDmaBurst (engine : Nat) (s : State) : Result := done (s.burst engine)

/-- RATE_GAP_END (R336). -/
def execRateGapEnd (engine channel : Nat) (s : State) : Result :=
  if !s.runs then done s else
  let ch := s.chan engine channel
  if ch.state = .parked && ch.park = some .gap then
    done (s.setChan engine channel { ch with state := .running, park := none })
  else done s

/-- The status of a transfer that ends without halting (R353). -/
def Channel.ownStatus (c : Channel) : Status := if c.checkFail then .checkFail else if c.poisonOut then .poison else .ok

/-- DMA_TRANSFER_END (R350). -/
def execDmaTransferEnd (engine : Nat) (s : State) : Result :=
  match (s.engine engine).busy with
  | none => done s
  | some c =>
    let ch := s.chan engine c
    match ch.desc with
    | none => done s
    | some _ =>
      if !s.engineRuns engine || !ch.final then done s
      else match ch.abort with
        | some st => done (s.acceptAbort engine c st)
        | none =>
          let s := s.dmaRecord engine c ch.ownStatus false
          if ch.chain = 0 then
            done (s.chainEnd engine c ch.ownStatus (recordFlags false ch.degraded ch.fp) false)
          else done (s.modChan engine c fun x => { x with desc := none })

/-! ## Transfers of each mode (Table 10-3)

Each command runs the rest of the transfer in progress on the engine, if it is of its mode, unit by unit until it is done,
halts, or the channel parks. -/

/-- The kind of the transfer in progress on an engine, with its moved units still to come. -/
def State.runningKind (s : State) (e : Nat) : Option DmaKind :=
  match (s.engine e).busy with
  | none => none
  | some c => match (s.chan e c).desc with
    | some d => if (s.chan e c).final then none else d.kind
    | none => none

/-- Run units while the transfer is of one of the kinds, at most as many as a LENGTH can need. -/
def State.runUnits (s : State) (e : Nat) (ks : List DmaKind) : Nat → State
  | 0 => s
  | n + 1 => match s.runningKind e with
    | some k => if ks.contains k && s.engineRuns e then (s.burst e).runUnits e ks n else s
    | none => s

/-- The most units that a transfer can have. -/
def unitLimit : Nat := 2 ^ 64

/-- DMA_COPY (R338, R341 to R343). -/
def execDmaCopy (engine : Nat) (s : State) : Result := done (s.runUnits engine [.copy] unitLimit)

/-- COMPRESS (R358, R360). -/
def execCompress (engine : Nat) (s : State) : Result := done (s.runUnits engine [.compress] unitLimit)

/-- EXPAND (R359, R360). -/
def execExpand (engine : Nat) (s : State) : Result := done (s.runUnits engine [.expand, .toQueueExpand] unitLimit)

/-- LINK (R362). -/
def execLink (engine : Nat) (s : State) : Result := done (s.runUnits engine [.link] unitLimit)

/-- KN4 (R363). -/
def execKn4 (engine : Nat) (s : State) : Result := done (s.runUnits engine [.kn4, .toQueueKn4] unitLimit)

/-- TABLE_LOAD (R361). -/
def execTableLoad (engine : Nat) (s : State) : Result := done (s.runUnits engine [.tableLoad] unitLimit)

/-- TENSOR (R344). -/
def execTensor (engine : Nat) (s : State) : Result := done (s.runUnits engine [.tensor] unitLimit)

/-- TO_QUEUE (R345). -/
def execToQueue (engine : Nat) (s : State) : Result :=
  done (s.runUnits engine [.toQueue, .toQueueExpand, .toQueueKn4] unitLimit)

/-- FROM_QUEUE (R345). -/
def execFromQueue (engine : Nat) (s : State) : Result := done (s.runUnits engine [.fromQueue] unitLimit)

/-! ## The link expander (R362) -/

/-- The request that a coded block came in, for its answer. -/
def CBlock.flit (b : CBlock) : Flit :=
  { op := BitVec.ofNat 4 opCblock, srcId := BitVec.ofNat 13 b.srcId, srcPart := BitVec.ofNat 4 b.srcPart,
    dstPart := BitVec.ofNat 4 b.part, tag := BitVec.ofNat 12 b.tag, addr := BitVec.ofNat 32 b.addr }

/-- Expand a complete block, write it, raise its counter and answer; a block that fails is written poisoned and logged. -/
def State.expandArrival (s : State) (e : Nat) (b : CBlock) : State :=
  let h := blockHead b.bytes
  let out := if b.poison then none else expandBlock (s.engine e).slots h ((b.bytes.drop 16).take h.codedLen)
  let data : List (Byte × Bool) := match out with
    | some l => l.map fun x => (x, false)
    | none => deadBytes (if h.ulenOk then h.ulen else 4096)
  let s := if out.isSome then s else s.logError { errOf .linkCheckFail b.part 3 b.link with
    addr := b.addr, status := .checkFail, detail := b.srcId, cycles := s.landing.fclk.toNat }
  let a := s.pregPair b.part Off.pvolInBaseLo Off.pvolInBaseHi + b.addr
  let (s, _, ok) := s.putMarked e b.part 130 a data
  if !ok then s.refuse b.link b.flit
  else
    let s := match b.counter with
      | some k => s.addCounter b.part k data.length
      | none => s
    if b.ackReq then s.sendFlit none b.link (s.answer b.flit opWack 0 []) else s

/-- CBLOCK_EXPAND (R362): the oldest complete block at the engine's link expander, unless it names a slot that is being
loaded (R361). -/
def execCblockExpand (engine : Nat) (s : State) : Result :=
  let bs := (s.engine engine).cblocks
  match bs.findIdx? fun b => decide (b.bytes.length ≥ b.total) with
  | none => done s
  | some i => match bs[i]? with
    | none => done s
    | some b =>
      if !s.engineRuns engine || ((blockHead b.bytes).needs.any fun n => (mget {} (s.engine engine).slots n).loading) then
        done s
      else done ((s.modEngine engine fun g => { g with cblocks := bs.eraseIdx i }).expandArrival engine b)

end Sys2Proof.Machine
end

