-- ==== Sys2Proof/Machine/Crypto.lean ====
section
/-! DEFINITION. The cryptography of Aldeah's images (R399, R411): SHA-256, MGF1, and the RSASSA-PSS check with a 3,072-bit
modulus. -/

namespace Sys2Proof.Machine

/-- The greatest number of `n` bits whose `k`-th power is at most `x`. -/
def intRoot (k x : Nat) : Nat → Nat → Nat
  | 0, r => r
  | n + 1, r => intRoot k x n (if (r + 2 ^ n) ^ k ≤ x then r + 2 ^ n else r)

/-- The primes below a bound, in their order. -/
def primesBelow (n : Nat) : List Nat :=
  (List.range n).filter fun p => decide (2 ≤ p) && (List.range p).all fun d => decide (d < 2) || decide (p % d ≠ 0)

/-- The first 32 bits of the fraction of a prime's `k`-th root, the form of every constant of SHA-256. -/
def rootFraction (k p : Nat) : Word := BitVec.ofNat 32 (intRoot k (p * 2 ^ (32 * k)) 40 0)

/-- The 64 round constants: of the cube roots. -/
def roundConstants : List Word := (primesBelow 312).map (rootFraction 3)

/-- The running hash: the chain of the first four working variables and that of the last four, the newest of each in front. -/
structure HashState where
  upper : List Word
  lower : List Word
  deriving DecidableEq, Repr

/-- The hash before any block: of the square roots of the first eight primes. -/
def hashStart : HashState :=
  let l := (primesBelow 20).map (rootFraction 2)
  ⟨l.take 4, l.drop 4⟩

/-- A word mixed with itself: two rotations, and a third value that is a rotation or a shift of it. -/
def mixed (x : Word) (i j : Nat) (last : Word) : Word := x.rotateRight i ^^^ (x.rotateRight j ^^^ last)

/-- A round takes a word and its constant: each chain gains one word in front and loses its oldest. -/
def HashState.round (x : HashState) (input : Word) : HashState :=
  let item (l : List Word) (i : Nat) : Word := l.getD i 0
  let a := item x.upper 0
  let e := item x.lower 0
  let chosen := item x.lower 2 ^^^ (e &&& (item x.lower 1 ^^^ item x.lower 2))
  let common := (a &&& (item x.upper 1 ||| item x.upper 2)) ||| (item x.upper 1 &&& item x.upper 2)
  let fed := input + chosen + mixed e 6 11 (e.rotateRight 25) + item x.lower 3
  ⟨(fed + common + mixed a 2 13 (a.rotateRight 22)) :: x.upper.take 3, (fed + item x.upper 3) :: x.lower.take 3⟩

/-- The words of a block's schedule, the newest in front; `n` more are formed from the sixteen newest. -/
def schedule : Nat → List Word → List Word
  | 0, l => l
  | n + 1, l =>
    let early := l.getD 14 0
    let late := l.getD 1 0
    schedule n ((mixed late 17 19 (late >>> 10) + l.getD 6 0 + mixed early 7 18 (early >>> 3) + l.getD 15 0) :: l)

/-- The 16 words of a block. -/
def blockWords (bs : List Byte) : List Word :=
  (List.range 16).map fun i => BitVec.ofNat 32 (beNum ((bs.drop (4 * i)).take 4))

/-- The hash after one more block. -/
def HashState.absorb (x : HashState) (block : List Byte) : HashState :=
  let inputs := List.zipWith (· + ·) (schedule 48 (blockWords block).reverse).reverse roundConstants
  let y := inputs.foldl HashState.round x
  ⟨List.zipWith (· + ·) x.upper y.upper, List.zipWith (· + ·) x.lower y.lower⟩

/-- The hash after `n` blocks more. -/
def HashState.absorbAll : Nat → HashState → List Byte → HashState
  | 0, x, _ => x
  | n + 1, x, bs => HashState.absorbAll n (x.absorb (bs.take 64)) (bs.drop 64)

/-- A message padded to whole blocks. -/
def shaPad (bs : List Byte) : List Byte :=
  bs ++ [0x80] ++ List.replicate ((119 - bs.length % 64) % 64) 0 ++ beBytes 8 (8 * bs.length)

/-- SHA-256. -/
def sha256 (bs : List Byte) : List Byte :=
  let padded := shaPad bs
  let x := HashState.absorbAll (padded.length / 64) hashStart padded
  (x.upper ++ x.lower).flatMap fun w => beBytes 4 w.toNat

/-- MGF1 with SHA-256, `n` bytes. -/
def mgf1 (seed : List Byte) (n : Nat) : List Byte :=
  ((List.range (ceilDiv n 32)).flatMap fun i => sha256 (seed ++ beBytes 4 i)).take n

/-- `b ^ e mod m` over the `k` low bits of `e`, the highest first. -/
def powMod (b e m : Nat) : Nat → Nat
  | 0 => 1 % m
  | k + 1 =>
    let r := powMod b (e / 2) m k
    let q := r * r % m
    if e % 2 = 1 then q * b % m else q

/-- Bytes exclusive-ored. -/
def xorBytes (a b : List Byte) : List Byte := (a.zip b).map fun p => p.1 ^^^ p.2

/-- Bytes of a modulus (R411). -/
def modulusBytes : Nat := 384

/-- Bytes of the data block of an encoded message. -/
def dataBytes : Nat := 351

/-- The top bit of the first byte cleared. -/
def clearTop : List Byte → List Byte
  | [] => []
  | x :: r => (x &&& 0x7F) :: r

/-- The hash in an encoded message. -/
def pssHash (em : List Byte) : List Byte := (em.drop dataBytes).take 32

/-- The data block of an encoded message: padding, a one byte, the salt. -/
def pssData (em : List Byte) : List Byte := clearTop (xorBytes (em.take dataBytes) (mgf1 (pssHash em) dataBytes))

/-- Whether a data block begins with its padding. -/
def pssPadded (db : List Byte) : Bool := ((db.take 318).all fun x => decide (x = 0)) && decide ((db.drop 318).headD 0 = 1)

/-- Whether an encoded message is that of a message (EMSA-PSS). -/
def pssMatches (em message : List Byte) : Bool :=
  decide (em.drop 383 = [0xBC]) && decide ((em.headD 0) &&& 0x80 = 0) && pssPadded (pssData em) &&
  decide (pssHash em = sha256 (List.replicate 8 0 ++ sha256 message ++ (pssData em).drop 319))

/-- RSASSA-PSS with SHA-256, MGF1-SHA-256 and a 32-byte salt, for a modulus of 3,072 bits (R411). -/
def pssVerify (modulus : List Byte) (exponent : Nat) (signature message : List Byte) : Bool :=
  decide (modulus.length = modulusBytes) && nbit (beNum modulus) 3071 && decide (beNum signature < beNum modulus) &&
  pssMatches (beBytes modulusBytes (powMod (beNum signature) exponent (beNum modulus) 32)) message

end Sys2Proof.Machine
end

