-- ==== Sys2Proof/Machine/Aldeah.lean ====
section
/-! DEFINITION. Aldeah's own structures (R399 to R418): OTP, flash, settings, images, the event log, and the requests that
it handles. -/

namespace Sys2Proof.Machine

/-- Aldeah's state changed. -/
def State.modAldeah (s : State) (f : Aldeah → Aldeah) : State := { s with aldeah := f s.aldeah }

/-! ## OTP (R399, R400) -/

/-- Record `k` of field setting `f`. -/
def State.otpRecord (s : State) (f k : Nat) : Nat := s.otp.num (0x400 + 40 * f + 8 * k) 8

/-- Whether a record is good: its MARK, and the CHECK of its VALUE. -/
def otpGood (n : Nat) : Bool := decide (field n 56 8 = 0xA5) && decide (field n 32 8 = crc8 (leBytes 4 (field n 0 32)))

/-- The default of a field setting (Table 12-4). -/
def settingDefault (f : Nat) : Nat := if f = 3 then 1 else 0

/-- The value of a field setting: the VALUE of the highest good record. -/
def State.setting (s : State) (f : Nat) : Nat :=
  (List.range 5).foldl (fun v k => if otpGood (s.otpRecord f k) then field (s.otpRecord f k) 0 32 else v) (settingDefault f)

/-- The lowest unused record of a field setting. -/
def State.unusedRecord (s : State) (f : Nat) : Option Nat := (List.range 5).find? fun k => decide (s.otpRecord f k = 0)

/-- A record of a value. -/
def otpRecordOf (v : Nat) : Nat := 0xA5 * 2 ^ 56 + crc8 (leBytes 4 v) * 2 ^ 32 + v % 2 ^ 32

/-- Whether signing key `k` is revoked (Table 12-3). -/
def State.revoked (s : State) (k : Nat) : Bool := decide (s.otp.get (0xC0 + k) = 0xFF)

/-- The module's serial number. -/
def State.serial (s : State) : List Byte := s.otp.bytes 0 16

/-! ## Images (R411) -/

/-- Whether bytes of an image are zero. -/
def zeroBytes (m : Memory) (a n : Nat) : Bool := (m.bytes a n).all fun b => decide (b = 0)

/-- Whether an image's header verifies, for an IMAGE_TYPE. -/
def State.verifies (s : State) (m : Memory) (typ : Nat) : Bool :=
  let key := m.num 0xC 4
  decide (m.num 0 4 = 0x48444C41) && decide (m.num 4 4 = 1) && decide (m.num 8 4 = typ) && zeroBytes m 0x1C 4 &&
  zeroBytes m 0x1C4 60 && zeroBytes m 0x380 128 && decide (key < 4) && !s.revoked key &&
  decide (sha256 (m.bytes 0x40 384) = s.otp.bytes (0x40 + 32 * key) 32) &&
  pssVerify (m.bytes 0x40 384) (m.num 0x1C0 4) (m.bytes 0x200 384) (m.bytes 0 0x200) &&
  decide (sha256 (m.bytes 0x400 (m.num 0x18 4)) = m.bytes 0x20 32) &&
  (decide (typ ≥ 2) || decide (s.setting typ ≤ m.num 0x10 4))

/-- The image in a slot of Aldeah or, with `ucode`, of the microcode; `b` is true for slot B. -/
def State.slotImage (s : State) (ucode b : Bool) : SlotImage :=
  if ucode then (if b then s.flash.ucodeB else s.flash.ucodeA) else (if b then s.flash.aldeahB else s.flash.aldeahA)

/-- An image put into a slot. -/
def State.setSlot (s : State) (ucode b : Bool) (x : SlotImage) : State :=
  let f := s.flash
  { s with flash :=
      if ucode then (if b then { f with ucodeB := x } else { f with ucodeA := x })
      else (if b then { f with aldeahB := x } else { f with aldeahA := x }) }

/-- Whether the image of a slot verifies; the factory's does unless its SVN has been left behind (DESIGN CHOICE, log 38). -/
def State.slotVerifies (s : State) (ucode b : Bool) : Bool :=
  match s.slotImage ucode b with
  | .empty => false
  | .factory => decide (s.setting (b2n ucode) ≤ Config.factorySvn ucode)
  | .staged m => s.verifies m (b2n ucode)

/-- VERSION of a slot's image. -/
def State.slotVersion (s : State) (ucode b : Bool) : Nat :=
  match s.slotImage ucode b with
  | .empty => 0
  | .factory => Config.factoryVersion ucode % 2 ^ 32
  | .staged m => m.num 0x14 4

/-- SVN of a slot's image. -/
def State.slotSvn (s : State) (ucode b : Bool) : Nat :=
  match s.slotImage ucode b with
  | .empty => 0
  | .factory => Config.factorySvn ucode % 2 ^ 32
  | .staged m => m.num 0x10 4

/-- DIGEST of a slot's image. -/
def State.slotDigest (s : State) (ucode b : Bool) : List Byte :=
  match s.slotImage ucode b with
  | .empty => List.replicate 32 0
  | .factory => Config.factoryDigest ucode
  | .staged m => m.bytes 0x20 32

/-- Bytes of a slot (Table 12-5). -/
def slotSize (ucode : Bool) : Nat := if ucode then 0x200000 else 0x100000

/-- Bytes of an image written to a slot. -/
def State.stageImage (s : State) (ucode b : Bool) (off : Nat) (bs : List Byte) : State :=
  let m := match s.slotImage ucode b with
    | .staged m => m
    | _ => []
  s.setSlot ucode b (.staged (m.setBytes off bs))

/-! ## The slot directory (R403) -/

/-- The directory copy in use: the one with the higher SEQ. -/
def State.directory (s : State) : Directory :=
  match s.flash.dir1 with
  | some d => if d.seq > s.flash.dir0.seq then d else s.flash.dir0
  | none => s.flash.dir0

/-- A new directory written to the copy not in use, with the next SEQ. -/
def State.writeDirectory (s : State) (d : Directory) : State :=
  let cur := s.directory
  let new := { d with seq := (cur.seq + 1) % 2 ^ 32 }
  if cur = s.flash.dir0 then { s with flash := { s.flash with dir1 := some new } }
  else { s with flash := { s.flash with dir0 := new } }

/-! ## The settings block (R404) -/

/-- A 32-bit word of a settings block. -/
def setWord (bs : List Byte) (off : Nat) : Nat := leNum ((bs.drop off).take 4)

/-- Whether a settings block is valid. -/
def settingsValid (bs : List Byte) : Bool :=
  decide (bs.length = 256) && decide (setWord bs 0 = crc32c (bs.drop 4)) && decide (setWord bs 4 = 1) &&
  decide (setWord bs 0xC < 2 ^ 13) && decide (setWord bs 0x10 < 2 ^ 12) && decide (setWord bs 0x14 < 2 ^ 16) &&
  decide (2500 ≤ setWord bs 0x18) && decide (setWord bs 0x18 ≤ 11200) &&
  decide (80 ≤ setWord bs 0x1C) && decide (setWord bs 0x1C ≤ 100) && decide (setWord bs 0x20 < 2 ^ 16) &&
  decide (0x08 ≤ setWord bs 0x24) && decide (setWord bs 0x24 ≤ 0x77) &&
  decide (0x08 ≤ setWord bs 0x28) && decide (setWord bs 0x28 ≤ 0x7D) &&
  [8, 16, 32, 64].contains (setWord bs 0x2C) && (bs.drop 0x30).all fun b => decide (b = 0)

/-- Whether copy 1 is the settings copy in use; none where neither is valid. -/
def State.settingsCopy (s : State) : Option Bool :=
  let a := settingsValid s.flash.settings0
  let b := settingsValid s.flash.settings1
  if a && b then some (decide (setWord s.flash.settings1 8 > setWord s.flash.settings0 8))
  else if a then some false else if b then some true else none

/-- The settings in use at start-up. -/
def State.chosenSettings (s : State) : Option (List Byte) :=
  s.settingsCopy.map fun c => if c then s.flash.settings1 else s.flash.settings0

/-- A word of the settings in use since power-up, or its default. -/
def State.useSetting (s : State) (off dflt : Nat) : Nat :=
  match s.aldeah.settings with
  | some bs => setWord bs off
  | none => dflt

/-- A block written to the copy not in use, with the next SEQ and its CHECK. -/
def State.writeSettings (s : State) (bs : List Byte) : State :=
  let seq := match s.chosenSettings with
    | some cur => setWord cur 8
    | none => 0
  let tail := leBytes 4 1 ++ leBytes 4 (seq + 1) ++ bs.drop 12
  let new := leBytes 4 (crc32c tail) ++ tail
  match s.settingsCopy with
  | some false => { s with flash := { s.flash with settings1 := new } }
  | _ => { s with flash := { s.flash with settings0 := new } }

/-! ## The event log (R409) -/

/-- The entries of the log that a flash area does not hold yet. -/
def pendingLog (log area : List LogEntry) : List LogEntry :=
  match area.getLast? with
  | some l => log.filter fun e => decide (e.seq > l.seq)
  | none => log

/-- The last `n` entries of a list. -/
def lastOf (n : Nat) (l : List LogEntry) : List LogEntry := l.drop (l.length - n)

/-- What a flash area of 65,536 entries holds of a log: the oldest sectors of 1,024 entries are erased as the writes reach them. -/
def flashArea (l : List LogEntry) : List LogEntry := l.drop (1024 * ceilDiv (l.length - 65536) 1024)

/-- Every pending entry is copied to both flash areas. -/
def State.copyLog (s : State) : State :=
  s.modAldeah fun a => { a with area0 := flashArea (a.area0 ++ pendingLog a.log a.area0),
                                area1 := flashArea (a.area1 ++ pendingLog a.log a.area1) }

/-- A body of 32 bytes from 32-bit numbers. -/
def logBody (l : List Nat) : List Byte := ((l.flatMap fun v => leBytes 4 v) ++ List.replicate 32 0).take 32

/-- An entry of the event log; an urgent one goes to flash at once. -/
def State.logEntry (s : State) (typ : Nat) (body : List Byte) (urgent : Bool) : State :=
  let e : LogEntry := { seq := s.aldeah.nextSeq, cycles := s.landing.mclk.toNat, boot := s.boots, typ := typ, body := body }
  let s := s.modAldeah fun a => { a with log := lastOf 4096 (a.log ++ [e]), nextSeq := a.nextSeq + 1 }
  if urgent then s.copyLog else s

/-- The 64 bytes of a log entry (Table 12-8). -/
def entryBytes (e : LogEntry) : List Byte :=
  leBytes 8 e.seq ++ leBytes 8 e.cycles ++ leBytes 4 e.boot ++ leBytes 4 e.typ ++ leBytes 8 0 ++ e.body

/-- The 32 bytes of an error record (Table 13-2). -/
def errBytes (r : ErrRec) : List Byte :=
  leBytes 4 (errCodeNum r.code * 65536 + r.part % 16 * 4096 + errClassNum r.cls * 1024 + r.extent % 4 * 256 + statusCode r.status) ++
  leBytes 4 (r.kind % 16 * 2 ^ 28 + r.index % 4096 * 65536 + r.physHi % 256 * 256 + r.physLo % 256) ++
  leBytes 8 r.addr ++ leBytes 4 r.count ++ leBytes 4 r.detail ++ leBytes 8 r.cycles

/-- Aldeah logs an error record; for some records it asserts SMB_ALERT# (R425, R458). -/
def State.aldeahTakes (s : State) (r : ErrRec) : State :=
  let heavy := decide (r.cls = .contained) || decide (r.cls = .fatal)
  let s := s.logEntry 1 (errBytes r) heavy
  if heavy || r.code = .brake then { s with mod := { s.mod with smbAlert := true } } else s

/-! ## Requests (R410) -/

/-- GSTAT.ALDEAH_DOWN and MBX_STAT.ALDEAH_DOWN. -/
def State.setDown (s : State) (b : Bool) : State := (s.setRegBit Off.gstat 24 b).setRegBit (mboxBase + Off.mbxStat) 28 b

/-- A response to a request: its header and a payload. -/
def responseBytes (req : List Byte) (st : Status) (payload : List Byte) : List Byte :=
  leBytes 4 (statusCode st + 65536 * (16 + payload.length)) ++ (req.drop 4).take 4 ++ leBytes 8 0 ++ payload

/-- The response of the request in progress is ready. -/
def State.respond (s : State) (st : Status) (payload : List Byte) : State :=
  s.modAldeah fun a => { a with rsp := a.req.map fun q => responseBytes q.bytes st payload }

/-- COMMAND of a request. -/
def requestCode (q : MgmtRequest) : Nat := leNum (q.bytes.take 2)

/-- Handle the request in progress if it is the command given: its payload is what follows the header. Commands from 0x0010
on end with REFUSED before READY; a request with a reserved word that is not zero ends with DESC_INVALID. -/
def State.handle (s : State) (code : Nat) (f : List Byte → State) : State :=
  match s.aldeah.req with
  | none => s
  | some q =>
    if !s.aldeah.up || s.aldeah.rsp.isSome || requestCode q ≠ code then s
    else if 0x10 ≤ code && !s.ready then s.respond .refused []
    else if leNum ((q.bytes.drop 8).take 8) ≠ 0 then s.respond .descInvalid []
    else f (q.bytes.drop 16)

/-- The commands of Table 12-11. -/
def mailboxCodes : List Nat := [0x1, 0x2, 0x3, 0x10, 0x11, 0x20, 0x21, 0x31, 0x40, 0x50, 0x51]

/-- Word `i` of a payload. -/
def argWord (bs : List Byte) (i : Nat) : Nat := leNum ((bs.drop (4 * i)).take 4)

/-! ## Microcode (R414) -/

/-- The microcode slot that a partition runs: that of its lowest tower. -/
def State.partUcode (s : State) (p : Nat) : Bool :=
  match s.towersOf p with
  | t :: _ => (s.tower t).ucodeB
  | [] => s.directory.ucode

/-- Whether a microcode slot is in use: it is the default, or an enabled partition's. -/
def State.ucodeUsed (s : State) (b : Bool) : Bool :=
  decide (s.directory.ucode = b) ||
  (List.range s.units).any fun p => s.active p && (s.towersOf p).any fun t => decide ((s.tower t).ucodeB = b)

/-- The microcode slot that can be staged. -/
def State.ucodeFree (s : State) : Option Bool := [false, true].find? fun b => !s.ucodeUsed b

/-- A partition's Keeps and cores hold the microcode of a slot. -/
def State.loadUcode (s : State) (p : Nat) (b : Bool) : State :=
  (s.towersOf p).foldl (fun s t =>
    (List.range 24).foldl (fun s i => s.modCore (24 * t + i) fun k => { k with ucodeB := b })
      (s.modTower t fun tw => { tw with ucodeB := b })) s

/-- UCODE_APPLY ends: its holds are lifted, its UCODE entry is logged and its response is given. `old` is the microcode slot
that the partition ran before. -/
def State.endUcode (s : State) (old : Bool) (st : Status) : State :=
  match s.aldeah.ucode with
  | none => s
  | some u =>
    let s := (s.modPart u.part fun d => { d with ucodeHold := false }).modAldeah fun a => { a with ucode := none }
    (s.logEntry 4 (logBody [u.part, s.slotVersion true old, s.slotVersion true (s.partUcode u.part), statusCode st]) false).respond
      st []

/-- A disable, reset or FLR of a partition ends its UCODE_APPLY with ABORTED. -/
def State.abortUcode (s : State) (p : Nat) : State :=
  match s.aldeah.ucode with
  | some u => if u.part = p then s.endUcode (s.partUcode p) .aborted else s
  | none => s

end Sys2Proof.Machine
end

