-- ==== Sys2Proof/Machine/Dispatcher.lean ====
section
/-! DEFINITION. The dispatcher (R299 to R318): job configuration, command rings, placement, context save and restore,
kills, donation and model residency. -/

namespace Sys2Proof.Machine

/-! ## Configuration (R300, R307) -/

/-- The region of Table 05-3 that holds an address, as a number; none outside the table. -/
def State.regionKey (s : State) (p a : Nat) : Option Nat :=
  match s.region p a with
  | .hashed => some 0
  | .banked t _ => some (1 + t)
  | .scratch k _ => some (100 + k)
  | .hostWindow _ => some 200
  | .remote _ => some 201
  | .none => none

/-- SIZE_LOG2 of a job's ring. -/
def State.ringLog2 (s : State) (p j : Nat) : Nat := s.regField (jobBase p j + Off.pringBaseLo) 0 5

/-- The base of a job's ring. -/
def State.ringBase (s : State) (p j : Nat) : Nat :=
  64 * s.regField (jobBase p j + Off.pringBaseLo) 6 26 + 2 ^ 32 * s.regField (jobBase p j + Off.pringBaseHi) 0 16

/-- Bytes of a context slot (R310). -/
def slotBytes : Nat := 0x240000

/-- Whether the context area passes R300. -/
def State.ctxOk (s : State) (p j : Nat) : Bool :=
  let a := s.ctxBase p j
  let n := slotBytes * (s.coreSet p j).length
  decide (a = 0) || (decide (a % 0x200000 = 0) && (s.regionKey p a).isSome && decide (s.regionKey p a = s.regionKey p (a + n - 1)))

/-- Whether another enabled job holds one of the job's channels on an engine that both use (R300). -/
def State.channelsFree (s : State) (p j : Nat) : Bool :=
  jobList.all fun k => decide (k = j) || decide ((s.job p k).state = .disabled) ||
    decide (field (s.reg (jobBase p j + Off.pjobDma)) 0 15 &&& field (s.reg (jobBase p k + Off.pjobDma)) 0 15 = 0) ||
    !(List.range 12).any fun g => s.jobInGroup p j g && s.jobInGroup p k g

/-- The checks of R300. -/
def State.jobCfgOk (s : State) (p j : Nat) : Bool :=
  let cores := (List.range 288).filter fun c => s.inCoreSet p j c
  decide ((s.part p).state = .enabled) && decide (cores ≠ []) &&
  (cores.all fun c => s.coreExists c && nbit (s.groupMask p) (Config.groupOfCore c)) &&
  decide (4 ≤ s.ringLog2 p j) && decide (s.ringLog2 p j ≤ 16) &&
  (match s.region p (s.ringBase p j) with
   | .hashed | .banked _ _ | .scratch _ _ | .hostWindow _ => true
   | _ => false) &&
  s.channelsFree p j && s.ctxOk p j &&
  !(s.serves p && decide (s.ctxBase p j = 0) && s.rivals p j (s.genRing p))

/-- ENABLE written to a job (R300). -/
def State.enableJob (s : State) (p j : Nat) : State :=
  if (s.job p j).state ≠ .disabled then s
  else if s.jobCfgOk p j then s.settleJob p j
  else s.setRegBit (jobBase p j + Off.pjobStat) 28 true

/-- ENABLE cleared (R300): an IDLE job becomes DISABLED; in any other state the write is ignored. -/
def State.disableJob (s : State) (p j : Nat) : State :=
  if (s.job p j).state = .idle then s.modJob p j fun b => { b with state := .disabled } else s

/-! ## Channels of a job -/

/-- Channels that no pre-emption holds any more go on (R113, R141). -/
def State.resumeChannels (s : State) : State :=
  (List.range s.units).foldl (fun s e => (List.range 16).foldl (fun s c =>
    let ch := s.chan e c
    if ch.state = .paused && !s.chanPaused e c then s.setChan e c { ch with state := .running, park := none } else s) s) s

/-- Whether a channel of the job, or one bound to a queue of a core, holds its engine. -/
def State.channelsBusy (s : State) (p j : Nat) : Bool :=
  (List.range s.units).any fun e => match (s.engine e).busy with
    | some c =>
      (match (s.chan e c).kicker with
       | .dmak _ _ k => decide ((s.chan e c).part = p) && decide (k = j)
       | _ => false) ||
      (match s.channelQueue e c true, s.channelQueue e c false with
       | some x, _ => s.holdsTask p j x.1
       | _, some x => s.holdsTask p j x.1
       | _, _ => false)
    | none => false

/-! ## Commands (R301 to R304) -/

/-- A command is over: with nothing pending the job gives up its cores, and what it had overrun with them (R308, R309); a donation
ends with it (R314). A job that cannot be pre-empted gives way to a waiting rival of better standing (R310). -/
def State.afterCommand (s : State) (p j : Nat) : State :=
  let s := s.endDonation p j none
  if s.pendingEntries p j = 0 then
    s.modJob p j fun b => { b with state := if b.state = .faulted then .faulted else .idle, preempting := false, overrun := 0 }
  else if (s.job p j).state = .loading then s.becomeReady p j
  else s.yieldCores p j

/-- The fields of a ring entry (Table 09-1). -/
structure RingEntry where
  op : Nat
  run : RunCmd
  ok : Bool
  deriving DecidableEq, Repr

/-- A ring entry from its 64 bytes, as a number. -/
def parseEntry (n : Nat) : RingEntry :=
  { op := field n 24 8
    run := { cls := field n 20 4, irq := nbit n 19, modelEn := nbit n 18, hot := nbit n 17, ntasks := field n 0 16 + 1,
             argLen := 256 * (field n 40 2 + 1), model := field n 32 8, codeBase := field n 64 48, entry := field n 128 32,
             tag := field n 160 32, args := field n 192 48, record := field n 256 48 }
    ok := !nbit n 16 && decide (field n 42 22 = 0) && decide (field n 112 16 = 0) && decide (field n 240 16 = 0) &&
      decide (n / 2 ^ 304 = 0) && decide (field n 24 8 ≤ 1) && decide (field n 64 7 = 0) && decide (field n 192 6 = 0) &&
      decide (field n 256 5 = 0) }

/-- An entry completed at once (R302): its record, unless RECORD is misaligned, and its vector. -/
def State.endEntry (s : State) (p j : Nat) (r : RunCmd) (st : Status) : State :=
  let s := if r.record % 32 = 0 then s.jobRecord p r.record r.tag st 0 false 0 else s
  if r.irq then s.signalPart p (s.regField (jobBase p j + Off.pjobCtl) 24 6) else s

/-- Read the argument block: its bytes, or the status of R302. -/
def State.readArgs (s : State) (p : Nat) (r : RunCmd) : State × Except Status Memory :=
  let (s, x) := s.readRun (.dispatcher p) p r.args r.argLen
  if x.refused then (s, .error .bounds)
  else if x.poison ≠ [] then (s, .error .uncorrected)
  else (s, .ok x.data)

/-- The next ring entry as it stands in the ring. -/
def State.readEntry (s : State) (p j : Nat) : State × Except Status Nat :=
  let i := s.reg (jobBase p j + Off.pringHead) % 2 ^ s.ringLog2 p j
  let (s, x) := s.fetchRun (.dispatcher p) p (s.ringBase p j + 64 * i) 64
  if x.refused then (s, .error .bounds)
  else if x.poison ≠ [] then (s, .error .uncorrected)
  else (s, .ok (x.data.num 0 64))

/-- PRING_HEAD advanced by one. -/
def State.advanceHead (s : State) (p j : Nat) : State :=
  let a := jobBase p j + Off.pringHead
  s.setReg a ((s.reg a + 1) % 2 ^ 32)

/-! ## Model residency (R315 to R317) -/

/-- A model residency entry (Table 09-4). -/
structure ModelEntry where
  state : Nat
  refs : Nat
  compressed : Bool
  pinHot : Bool
  hostSrc : Nat
  warm : Nat
  hot : Nat
  bytes : Nat
  coded : Nat
  lastUse : Nat
  ok : Bool
  deriving DecidableEq, Repr

/-- An entry from its 64 bytes, as a number. -/
def parseModel (n : Nat) : ModelEntry :=
  { state := field n 0 8, pinHot := nbit n 8, compressed := nbit n 9, refs := field n 16 16, hostSrc := field n 64 48,
    warm := field n 128 48, hot := field n 192 48, bytes := field n 256 48, coded := field n 320 48, lastUse := field n 384 64,
    ok := decide (field n 0 8 ≤ 4) && decide (field n 12 4 = 0) && decide (field n 32 32 = 0) &&
      [112, 176, 240, 304, 368, 496].all fun k => decide (field n k 16 = 0) }

/-- Read model entry `m`. -/
def State.readModel (s : State) (p m : Nat) : State × Except Status ModelEntry :=
  let (s, x) := s.readRun (.dispatcher p) p (s.modelEntry p m) 64
  if x.refused then (s, .error .bounds)
  else if x.poison ≠ [] then (s, .error .uncorrected)
  else (s, .ok (parseModel (x.data.num 0 64)))

/-- Write bytes of a model entry. -/
def State.writeModel (s : State) (p m off n v : Nat) : State :=
  (s.writeRun (.dispatcher p) p (s.modelEntry p m + off) (leBytes n v) [] false).1

/-- STATE of a model entry written. -/
def State.setModelState (s : State) (p m st : Nat) : State := s.writeModel p m 0 1 st

/-- Pieces of 2 MiB that a number of bytes takes. -/
def piecesOf (n : Nat) : Nat := ceilDiv n 0x200000

/-- The hot range: its address and its pieces. -/
def State.hotRange (s : State) (p : Nat) : Nat × Nat :=
  (s.pregPair p Off.pmodelHotBaseLo Off.pmodelHotBaseHi, s.preg p Off.pmodelHotLen)

/-- The models of a partition that are HOT, with their entries. -/
def State.hotModels (s : State) (p : Nat) : Nat → State × List (Nat × ModelEntry)
  | 0 => (s, [])
  | k + 1 =>
    let (s, e) := s.readModel p (255 - k)
    let (s, l) := s.hotModels p k
    match e with
    | .ok e => if e.state = 3 && e.ok then (s, (255 - k, e) :: l) else (s, l)
    | .error _ => (s, l)

/-- The places in the hot range, as pieces, where `n` pieces fit among copies. -/
def freePlaces (base len n : Nat) (held : List (Nat × ModelEntry)) : List Nat :=
  (List.range (len + 1 - n)).filter fun i => held.all fun x =>
    let lo := (x.2.hot - base) / 0x200000
    decide (i + n ≤ lo) || decide (lo + piecesOf x.2.bytes ≤ i)

/-- The HOT model that goes first: REFS 0, not pinned, of least LAST_USE (R317). -/
def victim (l : List (Nat × ModelEntry)) : Option (Nat × ModelEntry) :=
  (l.filter fun x => decide (x.2.refs = 0) && !x.2.pinHot).foldl (fun m x => match m with
    | some y => if x.2.lastUse < y.2.lastUse then some x else some y
    | none => some x) none

/-- Make room in the hot range: the place for `n` pieces, one of those that fit (R316, R317). -/
def State.hotPlace (s : State) (p n : Nat) (held : List (Nat × ModelEntry)) : Nat → State × Option Nat
  | 0 => (s, none)
  | k + 1 =>
    let (base, len) := s.hotRange p
    match freePlaces base len n held with
    | [] => match victim held with
      | none => (s, none)
      | some v => (s.setModelState p v.1 2).hotPlace p n (held.filter fun x => decide (x.1 ≠ v.1)) k
    | i :: r => (s.tick, some (base + 0x200000 * (i :: r).getD (s.draw 13 0 % (r.length + 1)) 0))

/-- The tower DMA engine that loads a partition's models: that of its lowest group (R316). -/
def State.modelEngine (s : State) (p : Nat) : Nat := (s.towersOf p).headD 0

/-- The descriptor of a load; the expander's class is 6, a plain copy's 4 (DEDUCED, log 42). -/
def loadDesc (src dst len : Nat) (expand : Bool) : DmaDesc :=
  { next := 0, srcWrap := 0, src := src, dstWrap := 0, dst := dst, len := len, cls := if expand then 6 else 4, irq := false,
    counter := 0, cntEn := false, swap := 0, elem := 0, slot := 0, code := if expand then 2 else 0, mode := 0, tag := 0,
    record := 0, aux0 := 0, aux1 := 0 }

/-- Start a load of the job's model on channel 15 (R316). -/
def State.startLoad (s : State) (p j m which place : Nat) (d : DmaDesc) : State :=
  let e := s.modelEngine p
  let s := s.setModelState p m 4
  let s := (s.startChain e 15 p 0 (.model j)).modChan e 15 fun c => { c with given := some d }
  s.modJob p j fun b => { b with state := .loading, cmd := b.cmd.map fun c => { c with load := which, loadAt := place } }

/-- The command completes at once with a status and runs no task. -/
def State.failCommand (s : State) (p j : Nat) (st : Status) : State := (s.endCommand p j st false).afterCommand p j

/-- What the model of the command in progress needs next: a load, a wait, or nothing, and then the command starts with REFS
and LAST_USE written (R315, R316). -/
def State.modelStep (s : State) (p j : Nat) (r : RunCmd) : State :=
  match s.readModel p r.model with
  | (s, .error st) => s.failCommand p j st
  | (s, .ok e) =>
    let waits := s.modJob p j fun b => { b with state := .loading, cmd := b.cmd.map fun c => { c with load := 0 } }
    if !e.ok then s.failCommand p j .descInvalid
    else if e.state = 0 then s.failCommand p j .refused
    else if e.state = 4 then waits
    else if e.state = 3 || (e.state = 2 && !r.hot) then
      let s := (s.writeModel p r.model 2 2 (e.refs + 1)).writeModel p r.model 0x30 8 (s.part p).runs
      let s := s.modJob p j fun b => { b with cmd := b.cmd.map fun c => { c with modelUp := true, load := 0 } }
      if (s.job p j).state = .loading then s.becomeReady p j else s
    else if !(s.chan (s.modelEngine p) 15).free then waits
    else if e.state = 1 then
      s.startLoad p j r.model 1 0 (loadDesc e.hostSrc e.warm (if e.compressed then e.bytes else e.coded) e.compressed)
    else if piecesOf e.bytes > (s.hotRange p).2 then s.failCommand p j .refused
    else
      let (s, held) := s.hotModels p 256
      match s.hotPlace p (piecesOf e.bytes) held 257 with
      | (s, none) => s.failCommand p j .refused
      | (s, some a) => s.startLoad p j r.model 2 a (loadDesc e.warm a e.bytes false)

/-- A RUN command starts (R303, R316). -/
def State.startRun (s : State) (p j : Nat) (r : RunCmd) : State :=
  let s := (s.modPart p fun d => { d with runs := d.runs + 1 }).modJob p j fun b => { b with cmd := some r }
  if r.modelEn then s.modelStep p j r else s

/-- An entry copied from the ring: completed at once, or started (R301, R302). -/
def State.takeEntry (s : State) (p j n : Nat) : State :=
  let e := parseEntry n
  if !e.ok then (s.endEntry p j e.run .descInvalid).afterCommand p j
  else if e.op = 0 then (s.endEntry p j e.run .ok).afterCommand p j
  else match s.readArgs p e.run with
    | (s, .error st) => (s.endEntry p j e.run st).afterCommand p j
    | (s, .ok _) => s.startRun p j e.run

/-! ## Placement (R74, R303) -/

/-- The state of a core when a task starts on it (R74). -/
def Core.begin (k : Core) (t : Task) (args : Memory) (n entry cores : Nat) : Core :=
  let kept : Core := { phys := k.phys, retired := k.retired, testing := k.testing, drained := k.drained, ucodeB := k.ucodeB,
                       cycles := k.cycles, icache := if k.lastJob = some (t.part, t.job) then k.icache else [] }
  let same := match k.lastJob with
    | some (p, _) => decide (p = t.part)
    | none => true
  let mems : Core := if same then { kept with dmem := k.dmem, tiles := k.tiles, acc := k.acc } else kept
  { mems with dmem := mems.dmem.paste 0 n args, pc := BitVec.ofNat 32 entry, task := some t, lastJob := some (t.part, t.job),
              paidClass := some t.cls, sregs := mset 0 (mset 0 [] 1 (BitVec.ofNat 32 t.index)) 2 (BitVec.ofNat 32 cores) }

/-- Place the next task of a command on a core (R303); with every placement paid the job's age starts again (R324). -/
def State.placeTask (s : State) (p j c : Nat) (r : RunCmd) : State :=
  match s.readArgs p r with
  | (s, .error st) => ((s.stopJob p j .aborted).endCommand p j st false).afterCommand p j
  | (s, .ok args) =>
    let g := Config.groupOfCore c
    let s := (s.wake g).charge g (coreCharge (s.group g).ratio r.cls)
    let t : Task := { part := p, job := j, index := r.placed, cls := r.cls, codeBase := r.codeBase }
    let s := s.modCore c fun k => k.begin t args r.argLen r.entry (s.coreSet p j).length
    let s := s.modJob p j fun b => { b with cmd := b.cmd.map fun x => { x with placed := x.placed + 1 } }
    if s.passedOver p j then s else s.modJob p j fun b => { b with age := 0 }

/-! ## Context save and restore (R310, R311) -/

/-- The address of a core's context slot. -/
def State.slotAddr (s : State) (p j c : Nat) : Nat :=
  s.ctxBase p j + slotBytes * ((s.coreSet p j).findIdx fun k => decide (k = c))

/-- The ranges of the tile store that a save writes: live ranges and occupied queue slots. -/
def Core.savedRanges (k : Core) : List (Nat × Nat) :=
  k.live ++ (k.queues.filter fun e => e.2.bound).flatMap fun e =>
    (List.range e.2.count).map fun i => (e.2.slotAt i, tileBytes e.2.fmt)

/-- The 64 KiB of the accumulator banks. -/
def Core.accBytes (k : Core) : Memory :=
  k.acc.foldl (fun m b => b.2.cells.foldl (fun m c => m.setNum (16384 * b.1 + 4 * c.1) 4 c.2.toNat) m) []

/-- Accumulator cells from their 64 KiB. -/
def accFrom (m : Memory) (b : Nat) (a : AccBank) : AccBank :=
  let all := (List.range 4096).map fun i => (i, BitVec.ofNat 32 (m.num (16384 * b + 4 * i) 4))
  { a with cells := all.filter fun e => decide (e.2 ≠ 0) }

/-- The pieces of a context in the order of saving: offset in the slot, length, bytes. The first 8 KiB belong to the
implementation: their bytes are free (R311). -/
def State.contextPieces (s : State) (c : Nat) : List (Nat × Nat × Memory) :=
  let k := s.core c
  let own := (List.range 0x2000).map fun i => BitVec.ofNat 8 (s.draw 12 (8192 * c + i))
  (k.savedRanges.map fun r => (0x22000 + r.1, r.2, k.tiles.slice r.1 r.2)) ++
  [(0x12000, 0x10000, k.accBytes), (0x2000, 0x10000, k.dmem), (0, 0x2000, Memory.setBytes [] 0 own)]

/-- Write the pieces of a context; false where a write is refused. -/
def State.savePieces (s : State) (p base : Nat) : List (Nat × Nat × Memory) → State × Bool
  | [] => (s, true)
  | (o, n, m) :: r =>
    let (s, ok) := s.writeRun (.dispatcher p) p (base + o) (m.bytes 0 n) [] false
    if !ok then (s, false) else s.savePieces p base r

/-- Save the contexts of cores: the first core whose save is refused, if any. -/
def State.saveCores (s : State) (p j : Nat) : List Nat → State × Option Nat
  | [] => (s, none)
  | c :: r =>
    let l := s.contextPieces c
    let (s, ok) := s.tick.savePieces p (s.slotAddr p j c) l
    if !ok then (s, some c) else s.saveCores p j r

/-- A piece of a context read back. -/
def State.loadPiece (s : State) (p a n : Nat) : State × Except Status Memory :=
  let (s, x) := s.readRun (.dispatcher p) p a n
  if x.refused then (s, .error .bounds)
  else if x.found then (s, .error .uncorrected)
  else if x.poison ≠ [] then (s, .error .poison)
  else (s, .ok x.data)

/-- The tile store with its saved ranges read back. -/
def State.loadTiles (s : State) (p base : Nat) : List (Nat × Nat) → Memory → State × Except Status Memory
  | [], m => (s, .ok m)
  | (o, n) :: r, m => match s.loadPiece p (base + 0x22000 + o) n with
    | (s, .error st) => (s, .error st)
    | (s, .ok x) => s.loadTiles p base r (m.paste o n x)

/-- A tile store before its saved ranges are read back: what it holds is undefined (R133, DESIGN CHOICE, log 143). -/
def State.staleTiles (s : State) (c : Nat) : Memory :=
  (Config.staleTiles s.free c).foldl (fun m e => if e.1 < 0x200000 then mset 0 m e.1 e.2 else m) []

/-- A core's context restored: what the slot holds, and from the saved context what the implementation lays out in the
slot's first 8 KiB. The rest of the tile store is undefined (R133). -/
def State.loadCore (s : State) (p j : Nat) (x : SavedCore) : State × Except Status Core :=
  let base := s.slotAddr p j x.core
  match s.tick.loadTiles p base x.ctx.savedRanges (s.staleTiles x.core) with
  | (s, .error st) => (s, .error st)
  | (s, .ok tiles) => match s.loadPiece p (base + 0x12000) 0x10000 with
    | (s, .error st) => (s, .error st)
    | (s, .ok acc) => match s.loadPiece p (base + 0x2000) 0x10000 with
      | (s, .error st) => (s, .error st)
      | (s, .ok dmem) => match s.loadPiece p base 0x2000 with
        | (s, .error st) => (s, .error st)
        | (s, .ok _) =>
          let k := s.core x.core
          (s, .ok { x.ctx with
            tiles := tiles, dmem := dmem, acc := mmapv {} (fun b a => accFrom acc b a) x.ctx.acc, halted := false,
            phys := k.phys, retired := k.retired, testing := k.testing, drained := k.drained, ucodeB := k.ucodeB,
            cycles := k.cycles, lastJob := some (p, j), icache := if k.lastJob = some (p, j) then k.icache else [] })

/-- SEMACQs of a restored context enter their orders again at the back (R281). -/
def State.rejoinWaits (s : State) (p c : Nat) (k : Core) : State :=
  let waits := k.inflight.filterMap fun x => match x.op, x.phase with
    | .semacq n _, .started => some (n, c)
    | _, _ => none
  s.modPart p fun d => { d with semWait := d.semWait ++ waits }

/-- Restore contexts; the first core whose restore fails, with the status. -/
def State.loadCores (s : State) (p j : Nat) : List SavedCore → State × Option (Nat × Status)
  | [] => (s, none)
  | x :: r => match s.loadCore p j x with
    | (s, .error st) => (s, some (x.core, st))
    | (s, .ok k) => ((s.setCore x.core k).rejoinWaits p x.core k).loadCores p j r

/-- Whether an operation is drained before a save (R122). -/
def DOp.drains : DOp → Bool
  | .fld .. | .fst .. | .atom .. | .semrel .. | .tflush .. | .tinval .. | .lcfg .. => true
  | _ => false

/-- Whether a core that is being pre-empted can be saved (R113, R122, R201): its drained operations are over, its tower commands
have done their work in the Keep, and the tiles for which its queues have room have been pushed. -/
def State.savable (s : State) (c : Nat) : Bool :=
  let t := Config.groupOfCore c
  let tw := s.tower t
  ((s.core c).inflight.all fun x => !x.op.drains) && !(tw.queue.any fun q => decide (q.core = c)) &&
  tw.running.all fun r => decide (r.cmd.core ≠ c) || r.dropTiles || (!r.working && r.cmd.retEn && !s.pushDue t r)

/-! ## Kills (R313) -/

/-- Complete every pending entry with ABORTED and progress 0. -/
def State.abortEntries (s : State) (p j : Nat) : Nat → State
  | 0 => s
  | n + 1 => match s.readEntry p j with
    | (s, .ok x) => ((s.endEntry p j (parseEntry x).run .aborted).advanceHead p j).abortEntries p j n
    | (s, .error _) => (s.advanceHead p j).abortEntries p j n

/-- Cores that a pre-emption had stopped run on. -/
def State.unhalt (s : State) (p j : Nat) : State :=
  let s := (s.taskCores p j).foldl (fun s c => s.modCore c (fun k => { k with halted := false })) s
  (s.modJob p j fun b => { b with preempting := false }).resumeChannels

/-- KILL, with the drain window in FCLK cycles and the status of what it cuts off (R313, R374). -/
def State.killJob (s : State) (p j window : Nat) (st : Status) : State :=
  match (s.job p j).state with
  | .disabled | .killing => s
  | _ =>
    let s := s.abortEntries p j (s.pendingEntries p j)
    let s := if (s.job p j).preempting then s.unhalt p j else s
    let late := match (s.job p j).cmd with
      | some c => decide (c.ended = c.ntasks)
      | none => false
    s.modJob p j fun b => { b with state := .killing, killStatus := st, killLate := late,
                                   drainStart := s.landing.fclk.toNat, drainLen := window, donated := false, donor := none }

/-- A load that a kill cuts off: the chain is aborted and the entry returns to its former state (R316). -/
def State.dropLoad (s : State) (p j : Nat) (st : Status) : State :=
  match (s.job p j).cmd with
  | some c => if c.load ≠ 0 then (s.abortChannel (s.modelEngine p) 15 st).setModelState p c.model c.load else s
  | none => s

/-- Whether no task of a killed job is placed any more. -/
def State.tasksOver (s : State) (p j : Nat) : Bool := decide (s.taskCores p j = []) && decide ((s.job p j).saved = [])

/-- The end of a kill (R313, steps 3 and 4). -/
def State.finishKill (s : State) (p j : Nat) : State :=
  let b := s.job p j
  let whole := match b.cmd with
    | some c => decide (c.ended = c.ntasks)
    | none => true
  if whole then (s.endCommand p j .ok b.killLate).clearJob p j .disabled
  else (((s.dropLoad p j b.killStatus).stopJob p j b.killStatus).endCommand p j b.killStatus false).clearJob p j .disabled

/-! ## Donation (R314) -/

/-- The LOCK semaphores that a job's contexts wait for, on its cores or saved. -/
def State.lockWaits (s : State) (p j : Nat) : List Nat :=
  let waits (l : List InFlight) : List Nat := l.filterMap fun x => match x.op with
    | .semacq n _ => if semLock (s.sem p n) then some n else none
    | _ => none
  (s.taskCores p j).flatMap (fun c => waits (s.core c).inflight) ++ (s.job p j).saved.flatMap fun x => waits x.ctx.inflight

/-- Whether a job can be given another's standing: pre-empted, or ready but not resident. -/
def State.canReceive (s : State) (p h : Nat) : Bool :=
  match (s.job p h).state with
  | .preempted | .ready => true
  | _ => false

/-- Pre-empt every resident rival of a job that stands below it and can be pre-empted; with its slice a donation to it ends. -/
def State.preemptRivals (s : State) (p h : Nat) : State :=
  jobList.foldl (fun s k =>
    if s.rivals p h k && s.preemptible p k && s.before p h k then
      (s.modJob p k fun b => { b with donated := false, donor := none }).beginPreempt p k
    else s.yieldCores p k) s

/-- Job `w` gives its standing to the holder of a semaphore, and on along the chains of holders, at most four jobs. -/
def State.donate (s : State) (p w sem : Nat) : Nat → State
  | 0 => s
  | n + 1 =>
    let h := semHolder (s.sem p sem)
    if h < 64 && h ≠ w && semLock (s.sem p sem) && s.canReceive p h && (s.job p h).donor.isNone then
      let s := s.modJob p h fun b => { b with donated := true, donor := some (w, sem) }
      let s := if s.rivals p h w && s.preemptible p w then s.beginPreempt p w else s
      let s := s.preemptRivals p h
      (s.lockWaits p h).foldl (fun s k => s.donate p h k n) s
    else s

end Sys2Proof.Machine
end

