-- ==== Sys2Proof/Machine/JobOps.lean ====
section
/-! DEFINITION. The dispatcher's commands (R299 to R318): writes of job registers, ring entries, placement, residency,
slices, kills, donation and model loads. -/

namespace Sys2Proof.Machine

/-! ## Register writes (Tables 09-11, 09-12) -/

/-- The drain window of a KILL in Landing FCLK cycles (PKILL_DRAIN). -/
def State.killWindow (s : State) (p : Nat) : Nat := 1350 * s.regField (partBase p + Off.pkillDrain) 0 24

/-- CLEAR written to a FAULTED job (R312). -/
def State.clearFault (s : State) (p j : Nat) : State := if (s.job p j).state = .faulted then s.settleJob p j else s

/-- A write of PJOB_CTL: KILL and CLEAR, then VECTOR, URGENT and SHARES, then ENABLE (R300, R312, R313). -/
def State.writePjobCtl (s : State) (p j v : Nat) : State :=
  let a := jobBase p j + Off.pjobCtl
  let s := if nbit v 31 then s.killJob p j (s.killWindow p) .aborted else s
  let s := if nbit v 30 then s.clearFault p j else s
  let s := (s.setRegField a 24 6 (field v 24 6)).setRegField a 0 17 (field v 0 17)
  let st := (s.job p j).state
  if nbit v 17 then
    if st = .disabled then (s.setRegBit a 17 true).enableJob p j else s
  else if st = .idle then (s.setRegBit a 17 false).disableJob p j
  else if st = .disabled then s.setRegBit a 17 false else s

/-- JOB_ENABLE (R300): PJOB_CTL written with ENABLE = 1. -/
def execJobEnable (fn : Fn) (part job : Nat) (value : Word) (s : State) : Result :=
  if value.getLsbD 17 then
    done (s.onWrite fn (jobBase part job + Off.pjobCtl) fun s => s.writePjobCtl part job value.toNat)
  else done s

/-- JOB_DISABLE (R300): PJOB_CTL written with ENABLE = 0. -/
def execJobDisable (fn : Fn) (part job : Nat) (value : Word) (s : State) : Result :=
  if value.getLsbD 17 then done s
  else done (s.onWrite fn (jobBase part job + Off.pjobCtl) fun s => s.writePjobCtl part job value.toNat)

/-- CLEAR (R312). -/
def execClear (fn : Fn) (part job : Nat) (s : State) : Result :=
  done (s.onWrite fn (jobBase part job + Off.pjobCtl) fun s => s.clearFault part job)

/-- KILL (R313). -/
def execKill (fn : Fn) (part job : Nat) (s : State) : Result :=
  done (s.onWrite fn (jobBase part job + Off.pjobCtl) fun s => s.killJob part job (s.killWindow part) .aborted)

/-- A write of PRING_TAIL (R301): ignored while the partition is not ENABLED or the job is being killed; a count that moves
backwards or leaves too many entries pending sets RING_ERR. -/
def State.writeTail (s : State) (p j : Nat) (tail : Word) : State :=
  let a := jobBase p j + Off.pringTail
  let pend := (tail.toNat + 2 ^ 32 - s.reg (jobBase p j + Off.pringHead)) % 2 ^ 32
  if (s.part p).state ≠ .enabled || (s.job p j).state = .killing then s
  else if pend < s.pendingEntries p j || pend > 2 ^ s.ringLog2 p j then s.setRegBit (jobBase p j + Off.pjobStat) 27 true
  else
    let s := s.setReg a tail.toNat
    if (s.job p j).state = .idle && pend ≠ 0 then s.becomeReady p j else s

/-- PRING_TAIL (R301). -/
def execPringTail (fn : Fn) (part job : Nat) (tail : Word) (s : State) : Result :=
  done (s.onWrite fn (jobBase part job + Off.pringTail) fun s => s.writeTail part job tail)

/-- A read of PJOB_ACCT_LO latches PJOB_ACCT_HI (Table 09-12). -/
def execPjobAcctLoRead (fn : Fn) (part job : Nat) (s : State) : Result :=
  done (s.onWrite fn (jobBase part job + Off.pjobCtl) fun s =>
    s.modJob part job fun b => { b with acctHi := BitVec.ofNat 32 (b.account.toNat / 2 ^ 32) })

/-! ## Commands -/

/-- RING_ENTRY_FETCH (R301, R302): an entry that cannot be read completes with BOUNDS or UNCORRECTED and leaves no record. A job
that cannot be pre-empted first gives way to a waiting rival of better standing (R310). -/
def execRingEntryFetch (part job : Nat) (s : State) : Result :=
  let s := s.yieldCores part job
  let b := s.job part job
  let may := match b.state with
    | .ready | .resident => true
    | _ => false
  if may && b.cmd.isNone && decide (s.pendingEntries part job ≠ 0) && !(s.part part).ucodeHold && s.working part then
    match s.readEntry part job with
    | (s, .error _) => done ((s.advanceHead part job).afterCommand part job)
    | (s, .ok n) => done ((s.advanceHead part job).takeEntry part job n)
  else done s

/-- TASK_PLACE (R303): the lowest free core of the core set, if its group pays and no job of better standing can be paid there
(R322 to R324). -/
def execTaskPlace (part job : Nat) (s : State) : Result :=
  let b := s.job part job
  match b.cmd with
  | none => done s
  | some r =>
    if b.state = .resident && !b.preempting && !b.held && r.placed < r.ntasks && (!r.modelEn || r.modelUp) &&
        s.gov.brakes = [] && !s.stopped then
      match (s.coreSet part job).find? fun c => s.coreFree c with
      | none => done s
      | some c =>
        if s.canPlace part job c && s.placeTurn part job (Config.groupOfCore c) then done (s.placeTask part job c r)
        else done s
    else done s

/-- COMMAND_COMPLETE (R304): the last task of the command in progress has ended. -/
def execCommandComplete (part job : Nat) (s : State) : Result :=
  let b := s.job part job
  match b.cmd with
  | none => done s
  | some r =>
    if r.ended = r.ntasks && b.state ≠ .killing && !s.stopped then
      done (((s.endCommand part job .ok false).releaseLocks part job).afterCommand part job)
    else done s

/-! ## Residency (R308 to R311) -/

/-- Whether a waiting job may become resident: no rival holds cores, no waiting rival stands before it, no core that it returns to
is under test, and the groups of its cores can run. -/
def State.mayReside (s : State) (p j : Nat) : Bool :=
  (match (s.job p j).state with
   | .ready | .preempted => true
   | _ => false) &&
  s.working p && s.gov.brakes = [] &&
  (jobList.all fun k => !s.rivals p j k ||
    (!s.holdsCores p k && !(s.isReady p k && s.before p k j))) &&
  ((s.job p j).saved.all fun x => (s.core x.core).testing.isNone && !(s.core x.core).retired) &&
  (s.coreSet p j).all fun c =>
    let g := s.group (Config.groupOfCore c)
    decide (g.pstate ≠ .g4) && !g.outOfService && !g.testing && !g.dispatchHeld

/-- The groups of a job's cores awake (Table 09-8). -/
def State.wakeJob (s : State) (p j : Nat) : State :=
  (List.range s.units).foldl (fun s g => if s.jobInGroup p j g then s.wake g else s) s

/-- JOB_RESIDENT (R308): the job takes its core set, and its contexts are restored if it was pre-empted (R311). -/
def execJobResident (part job : Nat) (s : State) : Result :=
  if s.mayReside part job then
    let s := s.wakeJob part job
    let saved := (s.job part job).saved
    match s.loadCores part job saved with
    | (s, some (c, st)) => done (s.faultJob part job c st 0)
    | (s, none) =>
      let s := s.modJob part job fun b =>
        { b with state := .resident, saved := [], preempting := false, sliceStart := s.sliceCycles part job }
      done (s.resumeChannels)
  else done s

/-- Whether a core that a job holds waits for its test (R432). -/
def State.coreWanted (s : State) (p j : Nat) : Bool := (s.taskCores p j).any fun c => (s.core c).testing.isSome

/-- The end of a slice (R309): pre-emption if a ready rival of better standing waits or a core of the job is to be tested
(R432), else a new slice. A donation ends with the slice of the job that received it (R314). -/
def State.endSlice (s : State) (p j : Nat) : State :=
  let s := s.modJob p j fun b => { b with donated := false, donor := none }
  if s.preemptible p j && (s.betterWaits p j || s.coreWanted p j) then s.beginPreempt p j
  else (s.modJob p j fun b => { b with sliceStart := s.sliceCycles p j, overrun := 0 }).yieldCores p j

/-- SLICE_EXPIRY (R309). -/
def execSliceExpiry (part job : Nat) (s : State) : Result :=
  if !s.runs then done s else
  let b := s.job part job
  if b.state = .resident && !b.preempting && decide (s.sliceCycles part job - b.sliceStart ≥ s.sliceLen part job) then
    done (s.endSlice part job)
  else done s

/-- Whether a job counts as URGENT, by itself or by donation (R306, R314). -/
def State.urgent (s : State) (p j : Nat) : Bool := s.ownUrgent p (s.standsFor p 4 j)

/-- URGENT_PREEMPT (R308): an URGENT rival is ready, so the slice of a job that is not URGENT ends at once. -/
def execUrgentPreempt (part job : Nat) (s : State) : Result :=
  if !s.runs then done s else
  let b := s.job part job
  if b.state = .resident && !b.preempting && !s.urgent part job &&
      jobList.any (fun k => s.rivals part job k && s.isReady part k && decide ((s.job part k).state ≠ .resident) &&
        s.urgent part k) then
    done (s.endSlice part job)
  else done s

/-- CONTEXT_SAVE_DONE (R309 to R311): every core of the job is saved and given up. -/
def execContextSaveDone (part job : Nat) (s : State) : Result :=
  if !s.runs then done s else
  let b := s.job part job
  let cores := s.taskCores part job
  if b.preempting && cores.all (fun c => s.savable c) && !s.channelsBusy part job then
    match s.saveCores part job cores with
    | (s, some c) => done (s.faultJob part job c .bounds 0)
    | (s, none) =>
      let saved : List SavedCore := cores.map fun c => ⟨c, s.core c⟩
      let late := s.sliceCycles part job - b.sliceEnd
      let s := cores.foldl (fun s c => (s.dropWaits part c).modCore c fun k => { k.idle with paidClass := k.paidClass }) s
      done (s.modJob part job fun b =>
        { b with state := .preempted, preempting := false, saved := saved, overrun := late })
  else done s

/-! ## Kills (R313) -/

/-- KILL_DRAIN_END: the tasks of a killed job have all ended, or its drain window has. -/
def execKillDrainEnd (part job : Nat) (s : State) : Result :=
  if !s.runs then done s else
  let b := s.job part job
  if b.state = .killing && (s.tasksOver part job || decide (s.landing.fclk.toNat ≥ b.drainStart + b.drainLen)) then
    done (s.finishKill part job)
  else done s

/-! ## Donation (R314) -/

/-- DONATION: a resident job waits for a LOCK semaphore whose holder is pre-empted, or ready and not resident. -/
def execDonation (part job sem : Nat) (s : State) : Result :=
  if !s.runs then done s else
  if (s.job part job).state = .resident && !(s.job part job).preempting &&
      (s.part part).semWait.any (fun w => decide (w.1 = sem) && s.holdsTask part job w.2) then
    done (s.donate part job sem 4)
  else done s

/-! ## Model loads (R316) -/

/-- MODEL_LOAD_DONE: the load of a job's model has ended, or the load of another job that it waited for. -/
def execModelLoadDone (part job : Nat) (s : State) : Result :=
  if !s.runs then done s else
  let b := s.job part job
  let e := s.modelEngine part
  let ch := s.chan e 15
  match b.state, b.cmd with
  | .loading, some r =>
    if !ch.free then done s
    else if r.load = 0 then done (s.modelStep part job r)
    else if ch.status = .ok then
      let s := s.setModelState part r.model (r.load + 1)
      let s := if r.load = 2 then s.writeModel part r.model 0x18 6 r.loadAt else s
      done (s.modelStep part job r)
    else done ((s.setModelState part r.model r.load).failCommand part job ch.status)
  | _, _ => done s

end Sys2Proof.Machine
end

