-- ==== Sys2Proof/Machine/Staging.lean ====
section
/-! DEFINITION. Sequence tables, KV pages, the page pool and the staging buffer (R235 to R245, R468), and the staging
commands. -/

namespace Sys2Proof.Machine

/-! ## Sequence tables (R236) -/

/-- A sequence table's header (Table 07-2). -/
structure SeqTable where
  addr : Nat
  fmt : Format
  pageLog : Nat
  hd : Nat
  kvh : Nat
  cap : Nat
  committed : Nat
  flushed : Nat
  candMask : Nat
  candPos : Nat
  basePos : Nat
  candTree : Nat
  deriving DecidableEq, Repr

/-- Tokens of a page. -/
def SeqTable.p (q : SeqTable) : Nat := 16 * 2 ^ q.pageLog

/-- Elements of a token's keys. -/
def SeqTable.n (q : SeqTable) : Nat := q.kvh * q.hd

/-- Rows of a K block (R235). -/
def SeqTable.b (q : SeqTable) : Nat := ceilDiv (q.p * q.n) (rowElems q.fmt)

/-- The header's 64 bytes as a number, read as a table; none where R236 refuses it. -/
def parseSeq (a n : Nat) : Option SeqTable :=
  match formatOf (field n 0 8) with
  | none => none
  | some f =>
    let q : SeqTable := {
      addr := a, fmt := f, pageLog := field n 8 2, hd := if nbit n 10 then 128 else 64, kvh := field n 11 6 + 1,
      cap := field n 32 16, committed := field n 64 32, flushed := field n 96 32, candMask := field n 128 16,
      candPos := field n 160 32, basePos := field n 192 32, candTree := field n 256 64 }
    if (f = .mxE4m3 || f = .mxE5m2 || f = .mxE2m1) && decide (0 < q.cap) && decide (q.cap ≤ 4096) &&
        decide (field n 17 15 = 0) && decide (field n 48 16 = 0) && decide (field n 144 16 = 0) &&
        decide (field n 224 32 = 0) && decide (n >>> 320 = 0) then some q
    else none

/-- Read a sequence table for a command of tower `t` (R193, R236). -/
def State.readSeq (s : State) (t p a : Nat) : State × Except Status SeqTable :=
  if a % 64 ≠ 0 || !s.inTower p t a 64 then (s, .error .descInvalid)
  else
    let (s, r) := s.readRun (.tower t) p a 64
    if r.refused then (s, .error .bounds)
    else if r.poison ≠ [] then (s, .error .uncorrected)
    else match parseSeq a (r.data.num 0 64) with
      | some q => (s, if s.inTower p t a (64 + 8 * q.cap) then .ok q else .error .descInvalid)
      | none => (s, .error .descInvalid)

/-- Write the fields that the Keep keeps; false where it is refused. -/
def State.saveSeq (s : State) (t p : Nat) (q : SeqTable) : State × Bool :=
  let (s, a) := s.writeRun (.tower t) p (q.addr + 8)
    (leBytes 4 q.committed ++ leBytes 4 q.flushed ++ leBytes 4 q.candMask ++ leBytes 4 q.candPos) [] false
  let (s, b) := s.writeRun (.tower t) p (q.addr + 0x20) (leBytes 8 q.candTree) [] false
  (s, a && b)

/-! ## Trees of candidates (R231) -/

/-- The parent of candidate `c`. -/
def treeParent (tree c : Nat) : Nat := field tree (4 * c) 4

/-- The depth of candidate `c`, within `n` steps. -/
def treeDepth (tree : Nat) : Nat → Nat → Nat
  | 0, _ => 0
  | n + 1, c => if c = 0 then 0 else 1 + treeDepth tree n (treeParent tree c)

/-- Whether candidate `x` is `c` or an ancestor of it, within `n` steps. -/
def treeAncestor (tree : Nat) : Nat → Nat → Nat → Bool
  | 0, c, x => decide (c = x)
  | n + 1, c, x => decide (c = x) || (decide (c ≠ 0) && treeAncestor tree n (treeParent tree c) x)

/-- The candidates of a mask in ascending order. -/
def maskList (m : Nat) : List Nat := (List.range 16).filter fun c => nbit m c

/-! ## Page entries (Table 07-3) -/

def pageTag (e : Nat) : Nat := field e 44 20 * 4096 + field e 32 12
def pageValid (e : Nat) : Bool := nbit e 31
def pageRo (e : Nat) : Bool := nbit e 30
def pageBank (e : Nat) : Nat := field e 22 4 * 64 + field e 16 6

/-- Whether an entry's reserved bits are zero and `rows` rows from its first lie in the bank (R237). -/
def pageFits (e rows : Nat) : Bool := decide (field e 26 4 = 0) && decide (field e 0 16 + rows ≤ 65536)

/-- The address of row `r` of a page, in the banked view of tower `t`. -/
def pageRow (t e r : Nat) : Nat :=
  0x100000000000 + t * 0x2000000000 + pageBank e * 2 ^ 27 + (field e 0 16 + r) * 2048

/-- Read a number of 8 bytes of a structure that cannot carry poison (R216). -/
def State.readKeep (s : State) (t p a : Nat) : State × Except Status Nat :=
  let (s, r) := s.readRun (.tower t) p a 8
  if r.refused then (s, .error .bounds) else if r.poison ≠ [] then (s, .error .uncorrected) else (s, .ok (r.data.num 0 8))

/-- Page entry `k` of a table. -/
def State.pageEntry (s : State) (t p : Nat) (q : SeqTable) (k : Nat) : State × Except Status Nat :=
  s.readKeep t p (q.addr + 0x40 + 8 * k)

/-! ## The page pool (R238) -/

/-- The pool record as a number, and its address. -/
def State.poolRecord (s : State) (t p : Nat) : State × Except Status (Nat × Nat) :=
  let a := 0x100000000000 + t * 0x2000000000 + s.pregPair p Off.srvPoolBaseLo Off.srvPoolBaseHi
  if !s.inTower p t a 64 then (s, .error .bounds)
  else
    let (s, r) := s.readRun (.tower t) p a 64
    if r.refused then (s, .error .bounds)
    else if r.poison ≠ [] then (s, .error .uncorrected)
    else (s, .ok (a, r.data.num 0 64))

/-- Whether a pool record lets a page be taken or released. -/
def poolOk (n : Nat) : Bool :=
  decide (field n 48 16 = 0) && decide (field n 112 16 = 0) && decide (field n 176 16 = 0) && decide (field n 197 3 = 0) &&
  decide (field n 205 19 = 0) && decide (field n 232 24 = 0) && decide (n >>> 384 = 0) &&
  decide (10 ≤ field n 192 5) && decide (field n 192 5 ≤ 20) && decide (10 ≤ field n 200 5) && decide (field n 200 5 ≤ 20)

def poolPageRows (n : Nat) : Nat := field n 224 8
def poolFreeHead (n : Nat) : Nat := field n 256 32
def poolFreeCount (n : Nat) : Nat := (field n 288 32 + 2 ^ 32 - field n 256 32) % 2 ^ 32
def poolRelTail (n : Nat) : Nat := field n 352 32
def poolRelCount (n : Nat) : Nat := (field n 352 32 + 2 ^ 32 - field n 320 32) % 2 ^ 32
def poolFreeSlot (n : Nat) : Nat := field n 0 48 + 8 * (field n 256 32 % 2 ^ field n 192 5)
def poolRelSlot (n : Nat) : Nat := field n 64 48 + 8 * (field n 352 32 % 2 ^ field n 200 5)

/-- Take a page from the free ring; a full release ring is treated as an empty free ring (R245). -/
def State.takePage (s : State) (t p rows : Nat) : State × Except Status Nat :=
  match s.poolRecord t p with
  | (s, .error e) => (s, .error e)
  | (s, .ok (a, n)) =>
    if !poolOk n then (s, .error .bounds)
    else if poolFreeCount n = 0 || decide (poolRelCount n ≥ 2 ^ field n 200 5) then (s, .error .noKvSpace)
    else if !s.inTower p t (poolFreeSlot n) 8 then (s, .error .bounds)
    else match s.readKeep t p (poolFreeSlot n) with
      | (s, .error e) => (s, .error e)
      | (s, .ok e) =>
        if !pageValid e || pageRo e || !pageFits e rows then (s, .error .bounds)
        else
          let (s, ok) := s.writeRun (.tower t) p (a + 0x20) (leBytes 4 (poolFreeHead n + 1)) [] false
          (s, if ok then .ok e else .error .bounds)

/-- Push an entry to the release ring. -/
def State.releasePage (s : State) (t p e : Nat) : State × Bool :=
  match s.poolRecord t p with
  | (s, .error _) => (s, false)
  | (s, .ok (a, n)) =>
    if !s.inTower p t (poolRelSlot n) 8 then (s, false)
    else
      let (s, ok) := s.writeRun (.tower t) p (poolRelSlot n) (leBytes 8 (putField (putField e 30 1 0) 31 1 1)) [] false
      let (s, ok2) := s.writeRun (.tower t) p (a + 0x2C) (leBytes 4 (poolRelTail n + 1)) [] false
      (s, ok && ok2)

/-! ## Staged entries (R240) -/

/-- The staged entries of a table. -/
def Tower.staged (tw : Tower) (a : Nat) : List Staged :=
  match tw.staging.find? fun d => decide (d.table = a) with
  | some d => d.entries
  | none => []

/-- The staged entries of a table set; the table leaves the directory with its last entry. -/
def Tower.setStaged (tw : Tower) (a : Nat) (l : List Staged) : Tower :=
  let rest := tw.staging.filter fun d => decide (d.table ≠ a)
  { tw with staging := if l = [] then rest else rest ++ [{ table := a, entries := l }] }

/-- Bytes of one half of an entry: its codes and its scales. -/
def SeqTable.half (q : SeqTable) : Nat := q.n * elemBits q.fmt / 8 + q.n / 32

/-- Cells of one staged entry. -/
def SeqTable.cells (q : SeqTable) : Nat := ceilDiv (2 * q.half) 64

/-- Cells in use in a staging buffer. -/
def Tower.cellsUsed (tw : Tower) : Nat :=
  tw.staging.foldl (fun n d => d.entries.foldl (fun n e => n + ceilDiv e.cells.length 64) n) 0

/-- A staged entry by its state and number. -/
def findStaged (committed : Bool) (key : Nat) (l : List Staged) : Option Staged :=
  l.find? fun e => e.committed == committed && decide (e.key = key)

/-- Code `u` of half `h` (0 for K, 1 for V) of an entry, and its scale. -/
def SeqTable.stagedCode (q : SeqTable) (m : Memory) (h u : Nat) : Nat × Nat :=
  (codeAt m.get q.fmt (h * q.half) u, (m.get (h * q.half + q.n * elemBits q.fmt / 8 + u / 32)).toNat)

/-! ## Writing pages (R245) -/

/-- A row as read: its bytes and its poisoned words; none where a word is refused. -/
def State.readRow (s : State) (t p a : Nat) : State × Option (Memory × List Nat) :=
  let (s, r) := s.readRun (.tower t) p a 2048
  (s, if r.refused then none else some (r.data, r.poison))

/-- Write a row whole; false where a word is refused. -/
def State.writeRow (s : State) (t p a : Nat) (m : Memory) (poison : List Nat) : State × Bool :=
  s.writeRun (.tower t) p a (m.bytes 0 2048) poison false

/-- The header of row `r` of a block that holds `u` elements (R55, R235). -/
def SeqTable.rowHead (q : SeqTable) (e r u : Nat) : Nat :=
  rowHeader q.fmt (ceilDiv (min (rowElems q.fmt) (u - r * rowElems q.fmt)) 128) (pageTag e)

/-- Copy rows of the K block and of the V block that hold `u` elements (R245, step 2): whether a word was written poisoned (R219);
none where a word is refused. -/
def State.copyPage (s : State) (t p : Nat) (q : SeqTable) (src dst u : Nat) : List Nat → State × Option Bool
  | [] => (s, some false)
  | r :: rows => match s.readRow t p (pageRow t src r) with
    | (s, none) => (s, none)
    | (s, some (m, bad)) =>
      match s.writeRow t p (pageRow t dst r) (m.setNum 2040 8 (q.rowHead dst (r % q.b) u)) bad with
      | (s, false) => (s, none)
      | (s, true) =>
        let (s, rest) := s.copyPage t p q src dst u rows
        (s, rest.map fun b => b || decide (bad ≠ []))

/-- The elements `lo` to `hi - 1` of a block that lie in row `r`, as bits of the row and poisoned words. `entry` gives the
staged entry of a token of the page. -/
def SeqTable.rowBits (q : SeqTable) (h r lo hi : Nat) (entry : Nat → Staged) (m : BitWrites) : BitWrites × List Nat :=
  let e := rowElems q.fmt
  let first := max lo (r * e)
  (List.range (min hi (r * e + e) - first)).foldl (fun x i =>
    let u := first + i
    let st := entry (u / q.n)
    let (code, sc) := q.stagedCode (Memory.ofBytes 0 st.cells) h (u % q.n)
    let m := putByte (putCode x.1 q.fmt 0 (u % e) code) (1920 + u % e / 32) sc
    let bad := st.poison.contains (u % q.n / q.hd)
    (m, if bad then elemBits q.fmt * (u % e) / 8 / 32 :: (1920 + u % e / 32) / 32 :: x.2 else x.2)) (m, [])

/-- The bytes of a set of bit writes laid over a row. -/
def overlayBits (m : Memory) (w : BitWrites) : Memory :=
  w.foldl (fun m e => m.set e.1 (BitVec.ofNat 8 (((m.get e.1).toNat &&& (255 - e.2.1)) ||| e.2.2))) m

/-- Write the rows of a page that hold elements `lo` to `hi - 1` of its blocks (R245, steps 3 and 4): whether a word was
written poisoned; none where a word is refused. -/
def State.writeRows (s : State) (t p : Nat) (q : SeqTable) (dst lo hi : Nat) (entry : Nat → Staged) :
    State × Option Bool :=
  let e := rowElems q.fmt
  let rows := (List.range ((hi - 1) / e - lo / e + 1)).map fun i => lo / e + i
  ([0, 1].flatMap fun h => rows.map fun r => (h, r)).foldl (fun x hr =>
    match x.2 with
    | none => x
    | some bad =>
      let a := pageRow t dst (hr.1 * q.b + hr.2)
      let (s, old) := if hr.2 * e < lo then x.1.readRow t p a else (x.1, some ([], []))
      match old with
      | none => (s, none)
      | some (m, pz) =>
        let (w, pw) := q.rowBits hr.1 hr.2 lo hi entry []
        let (s, ok) := s.writeRow t p a ((overlayBits m w).setNum 2040 8 (q.rowHead dst hr.2 hi)) (pw ++ pz).dedup
        (s, if ok then some (bad || decide (pw ++ pz ≠ [])) else none)) (s, some false)

/-- The page to write for page `k`, which holds tokens below `flushed` already when `held` (R245, steps 1 and 2), and whether a
copy-on-write has written a poisoned word. -/
def State.pageFor (s : State) (t p : Nat) (q : SeqTable) (k : Nat) : State × Except Status (Nat × Bool) :=
  let u := (q.flushed - k * q.p) * q.n
  let held : Bool := decide (k * q.p < q.flushed)
  let put (s : State) (e : Nat) : State × Bool := s.writeRun (.tower t) p (q.addr + 0x40 + 8 * k) (leBytes 8 e) [] false
  match s.poolRecord t p with
  | (s, .error e) => (s, .error e)
  | (s, .ok (_, n)) =>
    if 2 * q.b > poolPageRows n then (s, .error .bounds)
    else match s.pageEntry t p q k with
      | (s, .error e) => (s, .error e)
      | (s, .ok e) =>
        if !pageValid e then
          if held then (s, .error .bounds)
          else match s.takePage t p (2 * q.b) with
            | (s, .error st) => (s, .error st)
            | (s, .ok d) =>
              let (s, ok) := put s d
              (s, if ok then .ok (d, false) else .error .bounds)
        else if !pageFits e (2 * q.b) then (s, .error .bounds)
        else if !pageRo e then (s, .ok (e, false))
        else match s.takePage t p (2 * q.b) with
          | (s, .error st) => (s, .error st)
          | (s, .ok d) =>
            let n := if held then ceilDiv u (rowElems q.fmt) else 0
            let rows := (List.range n) ++ (List.range n).map fun r => q.b + r
            match s.copyPage t p q e d u rows with
            | (s, none) => (s, .error .bounds)
            | (s, some bad) =>
              let (s, ok2) := put s d
              let (s, ok3) := s.releasePage t p e
              (s, if ok2 && ok3 then .ok (d, bad) else .error .bounds)

/-- The outcome of writing pages: the table, the tokens written, whether a word was poisoned, and the status that stopped
it. -/
structure Flushed where
  q : SeqTable
  wrote : Nat
  poison : Bool
  stop : Option Status
  deriving DecidableEq, Repr

/-- Write the pages that committed entries fill, and with `part` the last one in part (R242, R244). -/
def State.flushPages (s : State) (t p : Nat) (part : Bool) : Nat → Flushed → State × Flushed
  | 0, x => (s, x)
  | n + 1, x =>
    let q := x.q
    let k := q.flushed / q.p
    let hi := min ((k + 1) * q.p) q.committed
    if hi ≤ q.flushed || (hi < (k + 1) * q.p && !part) then (s, x)
    else
      let l := (s.tower t).staged q.addr
      let toks := (List.range (hi - q.flushed)).map fun i => q.flushed + i
      if toks.any fun i => (findStaged true i l).isNone then (s, { x with stop := some .bounds })
      else match s.pageFor t p q k with
        | (s, .error e) => (s, { x with stop := some e })
        | (s, .ok (d, copied)) =>
          let entry (i : Nat) : Staged := (findStaged true (k * q.p + i) l).getD ⟨true, 0, [], []⟩
          match s.writeRows t p q d ((q.flushed - k * q.p) * q.n) ((hi - k * q.p) * q.n) entry with
          | (s, none) => (s, { x with stop := some .bounds })
          | (s, some bad) =>
            let s := s.modTower t fun tw => tw.setStaged q.addr (l.filter fun e => !(e.committed && decide (e.key < hi)))
            let q' := { q with flushed := hi }
            match s.saveSeq t p q' with
            | (s, false) => (s, { x with stop := some .bounds })
            | (s, true) =>
              s.flushPages t p part n { x with q := q', wrote := x.wrote + (hi - q.flushed), poison := x.poison || copied || bad }

/-- The status of a staging command from what stopped it and whether it met poison (R215). -/
def stageStatus (stop : Option Status) (poison : Bool) : Status :=
  match stop with
  | some e => e
  | none => if poison then .poison else .ok

/-! ## The commands -/

def TowerCmd.seqAddr (c : TowerCmd) : Nat := c.addr 0x28
def TowerCmd.ntok (c : TowerCmd) : Nat := c.bits 0x14 0 6 + 1
def TowerCmd.spec (c : TowerCmd) : Bool := decide (c.bits 0x14 6 1 = 1)
def TowerCmd.treeOf (c : TowerCmd) : Nat := c.bits 0x38 0 64

/-- The greatest depth of the candidates that a TAPPEND stages. -/
def TowerCmd.topDepth (c : TowerCmd) : Nat :=
  if c.spec then ((List.range c.ntok).map fun i => treeDepth c.treeOf 16 i).foldl max 0 else c.ntok - 1

/-- One half of a token converted to the page format (R209): its bytes, the heads poisoned, the flags. -/
def convertToken (q : SeqTable) (src : TensorDesc) (mode : Rounding) (ovf : Bool) (rnd : Nat → Nat)
    (l : List (Val × Nat × Bool)) : List Byte × List Nat × FpFlags :=
  let vals := l.map fun x => ((mulVal (if isMx src.fmt then applyScale x.1 x.2.1 else x.1) (scaleVal1 src)).1, x.2.2)
  let (codes, fl) := encodeLine q.fmt mode ovf rnd vals
  let scales := (codes.zipIdx.filter fun x => decide (x.2 % 32 = 0)).map fun x => BitVec.ofNat 8 x.1.2.1
  let bad := ((codes.zipIdx.filter fun x => x.1.2.2).map fun x => x.2 / q.hd).dedup
  (leBytes (q.n * elemBits q.fmt / 8) (packCodes (elemBits q.fmt) (codes.map (·.1))) ++ scales, bad, fl)

/-- The elements of token `i` of a source. -/
def SeqTable.tokenAt (q : SeqTable) (i : Nat) : List Resolved :=
  (List.range q.kvh).flatMap fun h => (List.range q.hd).map fun d => .inside [d, h, i]

/-- Read and convert the tokens of a TAPPEND from token `i` on, as staged entries from number `key` on. -/
def State.stageTokens (s : State) (t : Nat) (c : TowerCmd) (q : SeqTable) (kd vd : TensorDesc) (key : Nat) :
    Nat → Nat → State × Option (List Staged × FpFlags)
  | 0, _ => (s, some ([], {}))
  | n + 1, i =>
    match s.readElems (.tower t) c.part kd 0 (q.tokenAt i) with
    | (s, .error _) => (s, none)
    | (s, .ok lk) => match s.readElems (.tower t) c.part vd 0 (q.tokenAt i) with
      | (s, .error _) => (s, none)
      | (s, .ok lv) =>
        let (bk, pk, f1) := convertToken q kd c.round c.ovf (fun j => s.rounds (32768 * i + j)) lk
        let (bv, pv, f2) := convertToken q vd c.round c.ovf (fun j => s.rounds (32768 * i + 16384 + j)) lv
        let (s, rest) := s.stageTokens t c q kd vd key n (i + 1)
        (s, rest.map fun r =>
          (⟨!c.spec, key + i, bk ++ bv, (pk ++ pv).dedup⟩ :: r.1, orFlags f1 (orFlags f2 r.2)))

/-- TAPPEND runs (R241). -/
def State.runAppend (s : State) (t : Nat) (c : TowerCmd) (q : SeqTable) (kd vd : TensorDesc) : State × RunOut :=
  let tw := s.tower t
  let room := tw.cellsUsed + c.ntok * q.cells ≤ 131072 &&
    (tw.staging.any (fun d => decide (d.table = q.addr)) || decide (tw.staging.length < 8192))
  if (q.committed + c.topDepth) / q.p ≥ q.cap || !room then (s, { status := .noKvSpace })
  else match s.stageTokens t c q kd vd (if c.spec then 0 else q.committed) c.ntok 0 with
    | (s, none) => (s, { status := .bounds })
    | (s, some (l, fl)) =>
      let s := s.modTower t fun tw => tw.setStaged q.addr (tw.staged q.addr ++ l)
      let q := if c.spec then
          { q with candMask := 2 ^ c.ntok - 1, candPos := c.bits 0x30 0 32, candTree := c.treeOf }
        else { q with committed := q.committed + c.ntok }
      let (s, ok) := s.saveSeq t c.part q
      (s.tick, { status := if !ok then .bounds else if l.any (fun e => decide (e.poison ≠ [])) then .poison else .ok,
                 fp := fl, progress := c.ntok })

/-- The kept candidates become committed tokens from number `key` on. -/
def commitStaged (key : Nat) : List Nat → List Staged → List Staged
  | [], l => l
  | c :: r, l => commitStaged (key + 1) r (l.map fun e =>
      if e.committed then e else if e.key = c then { e with committed := true, key := key } else e)

/-- TCOMMIT runs (R242). -/
def State.runCommit (s : State) (t : Nat) (c : TowerCmd) (q : SeqTable) : State × RunOut :=
  let keep := maskList (c.bits 0x14 0 16)
  let l := (s.tower t).staged q.addr
  if keep.any fun k => (findStaged false k l).isNone then (s, { status := .bounds })
  else
    let s := s.modTower t fun tw => tw.setStaged q.addr (commitStaged q.committed keep l)
    let q := { q with committed := q.committed + keep.length, candMask := q.candMask - (q.candMask &&& c.bits 0x14 0 16) }
    match s.saveSeq t c.part q with
    | (s, false) => (s, { status := .bounds, progress := keep.length })
    | (s, true) =>
      let (s, x) := s.flushPages t c.part false (q.committed / q.p + 1) ⟨q, 0, false, none⟩
      (s, { status := stageStatus x.stop x.poison, progress := keep.length })

/-- TDISCARD runs (R243, R468). -/
def State.runDiscard (s : State) (t : Nat) (c : TowerCmd) (q : SeqTable) : State × RunOut :=
  let drop := c.bits 0x14 0 16
  let l := (s.tower t).staged q.addr
  let goes (e : Staged) : Bool := if drop = 0 then true else !e.committed && nbit drop e.key
  let s := s.modTower t fun tw => tw.setStaged q.addr (l.filter fun e => !goes e)
  let q := if drop = 0 then { q with committed := q.flushed, candMask := 0 }
    else { q with candMask := q.candMask - (q.candMask &&& drop) }
  let (s, ok) := s.saveSeq t c.part q
  (s, { status := if ok then .ok else .bounds, progress := (l.filter goes).length })

/-- TFLUSHKV runs (R244). -/
def State.runFlush (s : State) (t : Nat) (c : TowerCmd) (q : SeqTable) : State × RunOut :=
  let (s, x) := s.flushPages t c.part (decide (c.bits 0x14 0 1 = 1)) (q.committed / q.p + 1) ⟨q, 0, false, none⟩
  (s, { status := stageStatus x.stop x.poison, progress := x.wrote })

/-! ## The checks (R232, R236, R241 to R243) -/

/-- Whether a descriptor has the extents given; two dimensions stand for a third extent of 1. -/
def hasExtents (d : TensorDesc) (a b c : Nat) : Bool :=
  decide (d.ext.take d.ndim = [a, b, c]) || (decide (d.ext.take d.ndim = [a, b]) && decide (c = 1))

/-- The rules of TAPPEND (R209, R241). -/
def State.appendOk (s : State) (c : TowerCmd) (q : SeqTable) (kd vd : TensorDesc) : Bool :=
  let tree := c.treeOf
  s.streamOk c.part kd && s.streamOk c.part vd && hasExtents kd q.hd q.kvh c.ntok && hasExtents vd q.hd q.kvh c.ntok &&
  decide (q.candMask = 0) && decide (c.bits 0x30 0 32 = q.committed) &&
  (if c.spec then
    decide (c.ntok ≤ 16) && decide (treeParent tree 0 = 0) &&
    (List.range 16).all fun i => if i = 0 then true else if i < c.ntok then decide (treeParent tree i < i)
      else decide (treeParent tree i = 0)
  else decide (tree = 0))

/-- The rules of TCOMMIT (R242). -/
def commitOk (keep : Nat) (q : SeqTable) : Bool :=
  let l := maskList keep
  decide (keep ≠ 0) && decide (keep ||| q.candMask = q.candMask) && nbit keep 0 &&
  (l.all fun c => decide (c = 0) || nbit keep (treeParent q.candTree c)) &&
  (l.all fun c => l.all fun d => decide (c = d) || decide (c = 0) || decide (d = 0) ||
    decide (treeParent q.candTree c ≠ treeParent q.candTree d))

/-- The pages that a command will write for `committed` committed tokens: their numbers. -/
def SeqTable.pagesDue (q : SeqTable) (committed : Nat) (part : Bool) : List Nat :=
  let lo := q.flushed / q.p
  let hi := if part then ceilDiv committed q.p else committed / q.p
  if committed ≤ q.flushed then [] else (List.range (hi - lo)).map fun i => lo + i

/-- The entries of pages of a table. -/
def State.pageEntries (s : State) (t p : Nat) (q : SeqTable) : List Nat → State × Except Status (List Nat)
  | [] => (s, .ok [])
  | k :: r =>
    if k ≥ q.cap then (s, .ok [])
    else match s.pageEntry t p q k with
      | (s, .error e) => (s, .error e)
      | (s, .ok e) => match s.pageEntries t p q r with
        | (s, .error x) => (s, .error x)
        | (s, .ok l) => (s, .ok (e :: l))

/-- Scaled rows that writing tokens up to `committed` into page `k` writes, those that a copy-on-write copies among them. -/
def SeqTable.rowsDue (q : SeqTable) (committed k : Nat) (copies : Bool) : Nat :=
  let e := rowElems q.fmt
  let lo := (q.flushed - k * q.p) * q.n
  let hi := (min committed ((k + 1) * q.p) - k * q.p) * q.n
  2 * ((hi - 1) / e - lo / e + 1) + if copies then 2 * ceilDiv lo e else 0

/-- The work of writing pages (Table 06-10): 64 for each scaled row written, nine times as much in a page that may come from the free
ring (R223). -/
def SeqTable.writeWork (q : SeqTable) (committed : Nat) (pages : List (Nat × Nat)) : Nat :=
  (pages.map fun x =>
    let kept := pageValid x.2 && !pageRo x.2
    (if kept then 64 else 9 * 64) * q.rowsDue committed x.1 (pageValid x.2 && pageRo x.2)).sum

/-- The banks of a table. -/
def SeqTable.banks (q : SeqTable) (t : Nat) : List Nat := banksOf t q.addr (64 + 8 * q.cap)

/-- The check of a staging command on its table (R192, R194): bank set and work. -/
def State.checkStaging (s : State) (t : Nat) (c : TowerCmd) (descs : List (Option TensorDesc)) (q : SeqTable) :
    State × Except Status CmdCheck :=
  let pages (s : State) (committed : Nat) (part : Bool) : State × Except Status CmdCheck :=
    match s.pageEntries t c.part q (q.pagesDue committed part) with
    | (s, .error e) => (s, .error e)
    | (s, .ok l) =>
      let held := l.filter pageValid
      (s, .ok ⟨descs, (q.banks t ++ held.map pageBank).dedup, 64 + q.writeWork committed ((q.pagesDue committed part).zip l)⟩)
  match c.cmd, descs with
  | .tappend, [some kd, some vd] =>
    if s.appendOk c q kd vd then
      (s, .ok ⟨descs, q.banks t, ceilDiv (c.ntok * (rowBytes kd.fmt q.n + rowBytes vd.fmt q.n)) 16⟩)
    else (s, .error .descInvalid)
  | .tcommit, _ =>
    let keep := c.bits 0x14 0 16
    if commitOk keep q then pages s (q.committed + (maskList keep).length) false else (s, .error .descInvalid)
  | .tdiscard, _ =>
    let drop := c.bits 0x14 0 16
    if drop ||| q.candMask = q.candMask then (s, .ok ⟨descs, q.banks t, 64⟩) else (s, .error .descInvalid)
  | .tflushkv, _ => pages s q.committed (decide (c.bits 0x14 0 1 = 1))
  | _, _ => (s, .error .descInvalid)

end Sys2Proof.Machine
end

