-- ==== Sys2Proof/Machine/Serving.lean ====
section
/-! DEFINITION. The serving sequencer's structures (R238, R239, R246 to R252, R257): request entries, sequence tables as it
sees them, the page pool from its side, the prefix tree, stream rings, and the release of pages. -/

namespace Sys2Proof.Machine

/-! ## Accesses -/

/-- Read a number of `n` bytes; none where the read is refused or poisoned. -/
def State.srvRead (s : State) (p a n : Nat) : State × Option Nat :=
  let (s, r) := s.readRun (.serving p) p a n
  (s, if r.refused || r.poison ≠ [] then none else some (r.data.num 0 n))

/-- Write a number of `n` bytes. -/
def State.srvWrite (s : State) (p a n v : Nat) : State := (s.writeRun (.serving p) p a (leBytes n v) [] false).1

/-! ## Request entries (Table 07-6) -/

/-- The address of request entry `i`. -/
def State.reqAddr (s : State) (p i : Nat) : Nat := s.pregPair p Off.srvReqBaseLo Off.srvReqBaseHi + 128 * i

/-- SRV_REQ_COUNT. -/
def State.reqCount (s : State) (p : Nat) : Nat := min 4096 (s.regField (partBase p + Off.srvReqCount) 0 13)

/-- Read request entry `i` as a number. -/
def State.readReq (s : State) (p i : Nat) : State × Option Nat := s.srvRead p (s.reqAddr p i) 128

/-- Write a field of `n` bytes of request entry `i`. -/
def State.putReq (s : State) (p i off n v : Nat) : State := s.srvWrite p (s.reqAddr p i + off) n v

def reqState (e : Nat) : Nat := field e 0 8
def reqClass (e : Nat) : Nat := field e 8 8
def reqPriority (e : Nat) : Nat := field e 16 8
def reqModel (e : Nat) : Nat := field e 32 8
def reqVariant (e : Nat) : Nat := field e 40 8
def reqLayers (e : Nat) : Nat := field e 48 16
def reqSeqDir (e : Nat) : Nat := field e 64 48
def reqTokenLog (e : Nat) : Nat := field e 128 48
def reqLogCap (e : Nat) : Nat := field e 192 32
def reqPromptLen (e : Nat) : Nat := field e 224 32
def reqMaxNew (e : Nat) : Nat := field e 256 32
def reqEndToken (e : Nat) : Nat := field e 288 32
def reqRingBase (e : Nat) : Nat := field e 320 48
def reqRingLog2 (e : Nat) : Nat := field e 368 5
def reqPidxAddr (e : Nat) : Nat := field e 384 48
def reqCidx (e : Nat) : Nat := field e 448 32
def reqPidx (e : Nat) : Nat := field e 480 32
def reqGenerated (e : Nat) : Nat := field e 512 32
def reqCommitted (e : Nat) : Nat := field e 544 32
def reqEvictions (e : Nat) : Nat := field e 592 16
def reqMaxCand (e : Nat) : Nat := field e 608 5
def reqLogprob (e : Nat) : Bool := nbit e 616
def reqAdmitSeq (e : Nat) : Nat := field e 640 64
def reqForkAt (e : Nat) : Nat := field e 704 32
def reqForkOf (e : Nat) : Nat := field e 736 16

/-- Whether every reserved bit of an entry is zero (R252). -/
def reqReservedOk (e : Nat) : Bool :=
  [(112, 16), (176, 16), (373, 11), (432, 16), (613, 3), (617, 23), (752, 16), (768, 128)].all fun f =>
    decide (field e f.1 f.2 = 0)

/-- STATE of an entry written (Table 07-7). -/
def State.setReqState (s : State) (p i st : Nat) : State := s.putReq p i 0 1 st

/-- An entry DONE with FINAL_STATUS. -/
def State.setDone (s : State) (p i : Nat) (st : Status) : State := (s.putReq p i 3 1 (statusCode st)).setReqState p i 5

/-- What the sequencer keeps for a live request. -/
def State.srvReq (s : State) (p i : Nat) : Option SrvReq := (s.part p).srv.reqs.find? fun r => decide (r.req = i)

/-- Change the serving sequencer's own state. -/
def State.modSrv (s : State) (p : Nat) (f : Serving → Serving) : State := s.modPart p fun d => { d with srv := f d.srv }

/-- Change what is kept for a live request. -/
def State.modReq (s : State) (p i : Nat) (f : SrvReq → SrvReq) : State :=
  s.modSrv p fun v => { v with reqs := v.reqs.map fun r => if r.req = i then f r else r }

/-- Whether a chunk of a request is in progress. -/
def State.inChunk (s : State) (p i : Nat) : Bool := (s.part p).srv.chunks.any fun c => decide (c.req = i)

/-- Whether a request's LAST entry is held (R258). -/
def State.heldLast (s : State) (p i : Nat) : Bool := (s.part p).srv.held.any fun h => decide (h.req = i)

/-! ## Sequence tables (R236) as the sequencer changes them -/

/-- A sequence table: its address, tower, tokens of a page, and what the Keep holds in its header. -/
structure KvTable where
  addr : Nat
  tower : Nat
  p : Nat
  committed : Nat
  flushed : Nat
  cap : Nat
  deriving DecidableEq, Repr

/-- Read a sequence table's header; none outside the partition's banked view, and of a header that R236 refuses, a reserved field
among its reasons (R11). The sequencer passes such a table over (DESIGN CHOICE, log 164). -/
def State.kvTable (s : State) (p a : Nat) : State × Option KvTable :=
  match s.region p a with
  | .banked t _ => match s.srvRead p a 64 with
    | (s, some n) => (s, (parseSeq a n).map fun q =>
        { addr := a, tower := t, p := q.p, committed := q.committed, flushed := q.flushed, cap := q.cap })
    | (s, none) => (s, none)
  | _ => (s, none)

/-- The tables that `n` entries of a sequence directory name, from its address on. -/
def State.kvTables (s : State) (p dir : Nat) : Nat → State × List (Option KvTable)
  | 0 => (s, [])
  | n + 1 =>
    let (s, x) := s.srvRead p dir 8
    let (s, t) := match x with
      | some v => s.kvTable p (field v 0 48)
      | none => (s, none)
    let (s, r) := s.kvTables p (dir + 8) n
    (s, t :: r)

/-- The tables of a request. -/
def State.reqTables (s : State) (p e : Nat) : State × List (Option KvTable) := s.kvTables p (reqSeqDir e) (reqLayers e)

/-- COMMITTED and FLUSHED of a table written, with no candidate staged. -/
def State.setTable (s : State) (p : Nat) (k : KvTable) (committed flushed : Nat) : State :=
  (s.srvWrite p (k.addr + 8) 8 (committed + 2 ^ 32 * flushed)).srvWrite p (k.addr + 0x10) 2 0

/-- The address of a table's page entry. -/
def KvTable.entryAddr (k : KvTable) (j : Nat) : Nat := k.addr + 0x40 + 8 * j

/-! ## The page pool from the sequencer's side (R238, R239) -/

/-- The pool record of a tower and its address; none where it cannot be used. -/
def State.srvPool (s : State) (p t : Nat) : State × Option (Nat × Nat) :=
  let a := 0x100000000000 + t * 0x2000000000 + s.pregPair p Off.srvPoolBaseLo Off.srvPoolBaseHi
  match s.srvRead p a 64 with
  | (s, some n) => (s, if poolOk n then some (a, n) else none)
  | (s, none) => (s, none)

/-- The address of a page's reference count. -/
def refAddr (rec e : Nat) : Nat := field rec 128 48 + 2 * field e 44 20

/-- A page's count raised. -/
def State.raiseRef (s : State) (p t e : Nat) : State :=
  match s.srvPool p t with
  | (s, none) => s
  | (s, some (_, rec)) => match s.srvRead p (refAddr rec e) 2 with
    | (s, some v) => s.srvWrite p (refAddr rec e) 2 (v + 1)
    | (s, none) => s

/-- The free-ring element of a page: the next generation, VALID, not RO. -/
def freeElement (e : Nat) : Nat := putField (putField (putField e 32 12 (field e 32 12 + 1)) 30 1 0) 31 1 1

/-- A page's count lowered; at zero the page goes to the free ring with the next generation. -/
def State.dropRef (s : State) (p t e : Nat) : State :=
  match s.srvPool p t with
  | (s, none) => s
  | (s, some (a, rec)) => match s.srvRead p (refAddr rec e) 2 with
    | (s, none) => s
    | (s, some v) =>
      let s := s.srvWrite p (refAddr rec e) 2 (v - 1)
      if v ≤ 1 then
        let tail := field rec 288 32
        (s.srvWrite p (field rec 0 48 + 8 * (tail % 2 ^ field rec 192 5)) 8 (freeElement e)).srvWrite p (a + 0x24) 4 (tail + 1)
      else s

/-- Raise the counts of `n` pages that the Keep has taken, from element `i` of the free ring on. -/
def State.countPages (s : State) (p t rec : Nat) : Nat → Nat → State
  | 0, _ => s
  | n + 1, i => match s.srvRead p (field rec 0 48 + 8 * (i % 2 ^ field rec 192 5)) 8 with
    | (s, some e) => (s.raiseRef p t e).countPages p t rec n (i + 1)
    | (s, none) => s.countPages p t rec n (i + 1)

/-- Take `n` entries from the release ring, from element `i` on: a table has let each page go. -/
def State.takeReleased (s : State) (p t rec : Nat) : Nat → Nat → State
  | 0, _ => s
  | n + 1, i => match s.srvRead p (field rec 64 48 + 8 * (i % 2 ^ field rec 200 5)) 8 with
    | (s, some e) => (s.dropRef p t e).takeReleased p t rec n (i + 1)
    | (s, none) => s.takeReleased p t rec n (i + 1)

/-- Serve a tower's rings: count the pages that the Keep took, and take what it released. -/
def State.servePool (s : State) (p t : Nat) : State :=
  match s.srvPool p t with
  | (s, none) => s
  | (s, some (a, rec)) =>
    let head := poolFreeHead rec
    let seen := mget 0 (s.part p).srv.seen t
    let s := s.countPages p t rec ((head + 2 ^ 32 - seen) % 2 ^ 32) seen
    let s := s.modSrv p fun v => { v with seen := mset 0 v.seen t head }
    let s := s.takeReleased p t rec (poolRelCount rec) (field rec 320 32)
    s.srvWrite p (a + 0x28) 4 (poolRelTail rec)

/-- Serve the rings of every tower of the partition. -/
def State.servePools (s : State) (p : Nat) : State := (s.towersOf p).foldl (fun s t => s.servePool p t) s

/-- The pages in a tower's free ring; none where the pool cannot be used. -/
def State.freePages (s : State) (p t : Nat) : State × Nat :=
  match s.srvPool p t with
  | (s, some (_, rec)) => (s, poolFreeCount rec)
  | (s, none) => (s, 0)

/-! ## The prefix tree (R246, R247) -/

/-- One round of SipHash. -/
def sipRound (v : BitVec 64 × BitVec 64 × BitVec 64 × BitVec 64) : BitVec 64 × BitVec 64 × BitVec 64 × BitVec 64 :=
  let (v0, v1, v2, v3) := v
  let v0 := v0 + v1
  let v1 := v1.rotateLeft 13 ^^^ v0
  let v0 := v0.rotateLeft 32
  let v2 := v2 + v3
  let v3 := v3.rotateLeft 16 ^^^ v2
  let v0 := v0 + v3
  let v3 := v3.rotateLeft 21 ^^^ v0
  let v2 := v2 + v1
  let v1 := v1.rotateLeft 17 ^^^ v2
  (v0, v1, v2.rotateLeft 32, v3)

/-- The compression of one 8-byte word by SipHash-2-4. -/
def sipWord (v : BitVec 64 × BitVec 64 × BitVec 64 × BitVec 64) (m : BitVec 64) :
    BitVec 64 × BitVec 64 × BitVec 64 × BitVec 64 :=
  let (v0, v1, v2, v3) := v
  let (v0, v1, v2, v3) := sipRound (sipRound (v0, v1, v2, v3 ^^^ m))
  (v0 ^^^ m, v1, v2, v3)

/-- SipHash-2-4 of a message of whole 8-byte words, given as numbers, under a 128-bit key. -/
def sipHash (key : Nat) (words : List Nat) : Nat :=
  let k0 := BitVec.ofNat 64 key
  let k1 := BitVec.ofNat 64 (key / 2 ^ 64)
  let v := (words ++ [8 * words.length % 256 * 2 ^ 56]).foldl (fun v m => sipWord v (BitVec.ofNat 64 m))
    (k0 ^^^ 0x736f6d6570736575, k1 ^^^ 0x646f72616e646f6d, k0 ^^^ 0x6c7967656e657261, k1 ^^^ 0x7465646279746573)
  let (v0, v1, v2, v3) := sipRound (sipRound (sipRound (sipRound (v.1, v.2.1, v.2.2.1 ^^^ 0xff, v.2.2.2))))
  (v0 ^^^ v1 ^^^ v2 ^^^ v3).toNat

/-- SRV_PFX_KEY0 to 3 as one key. -/
def State.pfxKey (s : State) (p : Nat) : Nat :=
  (List.range 4).foldl (fun k i => k + 2 ^ (32 * i) * s.preg p (Off.srvPfxKey + 4 * i)) 0

/-- The key of a prompt block from its parent's key and its 256 bytes of tokens, as a number (R246). -/
def State.blockKey (s : State) (p parent tokens : Nat) : Nat :=
  let h := sipHash (s.pfxKey p) (parent :: (List.range 32).map fun i => field tokens (64 * i) 64)
  if h = 0 then 1 else h

/-- SRV_PFX_BUCKETS.LOG2. -/
def State.pfxLog2 (s : State) (p : Nat) : Nat := min 20 (s.regField (partBase p + Off.srvPfxBuckets) 0 5)

/-- The address of the bucket pointer for a key. -/
def State.bucketAddr (s : State) (p key : Nat) : Nat :=
  s.pregPair p Off.srvPfxBaseLo Off.srvPfxBaseHi + 8 * (key % 2 ^ s.pfxLog2 p)

def nodeKey (n : Nat) : Nat := field n 0 64
def nodeParent (n : Nat) : Nat := field n 64 64
def nodeRefs (n : Nat) : Nat := field n 128 16
def nodeChildren (n : Nat) : Nat := field n 144 16
def nodeLastUse (n : Nat) : Nat := field n 192 64
def nodePages (n : Nat) : Nat := field n 256 48
def nodeNext (n : Nat) : Nat := field n 320 48

/-- Whether a node's reserved bytes are zero (R247). -/
def nodeReservedOk (n : Nat) : Bool :=
  decide (field n 176 16 = 0) && decide (field n 304 16 = 0) && decide (n >>> 368 = 0)

/-- Whether a node is the block's: KEY, MODEL and VARIANT agree, and PARENT_KEY where one is given. -/
def nodeIs (key : Nat) (parent : Option Nat) (mv n : Nat) : Bool :=
  nodeReservedOk n && decide (nodeKey n = key) && decide (field n 160 16 = mv) &&
  (match parent with
   | some k => decide (nodeParent n = k)
   | none => true)

/-- More nodes than memory holds: a walk that is longer runs in a circle. -/
def chainFuel : Nat := 2 ^ 36

/-- Look for a node along a chain, from the node at `a` on: its address and its bytes. -/
def State.findNode (s : State) (p key : Nat) (parent : Option Nat) (mv : Nat) : Nat → Nat → State × Option (Nat × Nat)
  | 0, _ => (s, none)
  | f + 1, a =>
    if a = 0 then (s, none)
    else match s.srvRead p a 64 with
      | (s, none) => (s, none)
      | (s, some n) => if nodeIs key parent mv n then (s, some (a, n)) else s.findNode p key parent mv f (nodeNext n)

/-- Look a block up in its bucket. -/
def State.lookup (s : State) (p key : Nat) (parent : Option Nat) (mv : Nat) : State × Option (Nat × Nat) :=
  match s.srvRead p (s.bucketAddr p key) 8 with
  | (s, some a) => s.findNode p key parent mv chainFuel (field a 0 48)
  | (s, none) => (s, none)

/-- REFS of a node changed. -/
def State.setNodeRefs (s : State) (p a v : Nat) : State := s.srvWrite p (a + 0x10) 2 v

/-- A request stops using a node. -/
def State.leaveNode (s : State) (p a : Nat) : State :=
  match s.srvRead p a 64 with
  | (s, some n) => s.setNodeRefs p a (nodeRefs n - 1)
  | (s, none) => s

/-- Take the node at `a` out of its chain: `loc` is where the pointer to the next node of the chain stands. -/
def State.unlink (s : State) (p a next : Nat) : Nat → Nat → State
  | 0, _ => s
  | f + 1, loc => match s.srvRead p loc 8 with
    | (s, none) => s
    | (s, some x) =>
      let x := field x 0 48
      if x = 0 then s else if x = a then s.srvWrite p loc 8 next else s.unlink p a next f (x + 0x28)

/-- A node leaves the tree: its pages' counts fall, and its parent's CHILDREN. -/
def State.dropNode (s : State) (p a : Nat) : State :=
  let towers := match (s.part p).srv.nodes.find? fun x => decide (x.1 = a) with
    | some x => x.2
    | none => []
  let s := s.modSrv p fun v => { v with nodes := v.nodes.filter fun x => decide (x.1 ≠ a) }
  match s.srvRead p a 64 with
  | (s, none) => s
  | (s, some n) =>
    let s := s.unlink p a (nodeNext n) chainFuel (s.bucketAddr p (nodeKey n))
    let s := towers.zipIdx.foldl (fun s x => match s.srvRead p (nodePages n + 8 * x.2) 8 with
      | (s, some e) => s.dropRef p x.1 e
      | (s, none) => s) s
    match s.lookup p (nodeParent n) none (field n 160 16) with
    | (s, some (b, m)) => s.srvWrite p (b + 0x12) 2 (nodeChildren m - 1)
    | (s, none) => s

/-- The nodes of the tree, each with its bytes. -/
def State.treeNodes (s : State) (p : Nat) : List (Nat × List Nat) → State × List (Nat × Nat)
  | [] => (s, [])
  | x :: r =>
    let (s, n) := s.srvRead p x.1 64
    let (s, l) := s.treeNodes p r
    match n with
    | some n => (s, (x.1, n) :: l)
    | none => (s, l)

/-- Drop every node with REFS 0 (PFX_FLUSH). -/
def State.flushTree (s : State) (p : Nat) : State :=
  let (s, l) := s.treeNodes p (s.part p).srv.nodes
  (l.filter fun x => decide (nodeRefs x.2 = 0)).foldl (fun s x => s.dropNode p x.1) s

/-- The node that an eviction takes first: REFS 0 and CHILDREN 0, of least LAST_USE (R250). -/
def State.idleNode (s : State) (p : Nat) : State × Option Nat :=
  let (s, l) := s.treeNodes p (s.part p).srv.nodes
  let idle := l.filter fun x => decide (nodeRefs x.2 = 0) && decide (nodeChildren x.2 = 0)
  (s, (idle.foldl (fun m x => match m with
    | some y => if nodeLastUse x.2 < nodeLastUse y.2 then some x else some y
    | none => some x) (none : Option (Nat × Nat))).map (·.1))

/-! ## Blocks of a prompt (R248) -/

/-- Enter `k` pages from a page list in a table, from its page `j` on, with RO set. -/
def State.enterPages (s : State) (p : Nat) (t : KvTable) : Nat → Nat → Nat → State
  | 0, _, _ => s
  | k + 1, list, j => match s.srvRead p list 8 with
    | (s, some e) => ((s.srvWrite p (t.entryAddr j) 8 (putField e 30 1 1)).raiseRef p t.tower e).enterPages p t k (list + 8) (j + 1)
    | (s, none) => s.enterPages p t k (list + 8) (j + 1)

/-- Enter the pages of block `n` in every table, the page list being at `list`. -/
def State.enterBlock (s : State) (p n : Nat) : List (Option KvTable) → Nat → State
  | [], _ => s
  | none :: r, list => s.enterBlock p n r list
  | some t :: r, list => (s.enterPages p t (64 / t.p) list (n * (64 / t.p))).enterBlock p n r (list + 8 * (64 / t.p))

/-- Match whole blocks of a prompt, `k` left, from block `n` on: the nodes matched. -/
def State.matchBlocks (s : State) (p e : Nat) (tables : List (Option KvTable)) : Nat → Nat → Nat → State × List Nat
  | 0, _, _ => (s, [])
  | k + 1, n, parent => match s.srvRead p (reqTokenLog e + 256 * n) 256 with
    | (s, none) => (s, [])
    | (s, some toks) =>
      let key := s.blockKey p parent toks
      match s.lookup p key (some parent) (field e 32 16) with
      | (s, none) => (s, [])
      | (s, some (a, node)) =>
        let s := (s.setNodeRefs p a (nodeRefs node + 1)).srvWrite p (a + 0x18) 8 (s.part p).srv.steps
        let (s, l) := (s.enterBlock p n tables (nodePages node)).matchBlocks p e tables k (n + 1) key
        (s, a :: l)

/-- The parent key of block 0. -/
def rootKey (e : Nat) : Nat := reqModel e * 256 + reqVariant e

/-- The page entries of block `n` in every table with their towers; none where a page is not written. -/
def State.blockPages (s : State) (p n : Nat) : List (Option KvTable) → State × Option (List (Nat × Nat × Nat))
  | [] => (s, some [])
  | none :: _ => (s, none)
  | some t :: r =>
    let k := 64 / t.p
    let (s, l) := (List.range k).foldl (fun (x : State × Option (List (Nat × Nat × Nat))) i =>
      let a := t.entryAddr (n * k + i)
      match x.2 with
      | none => x
      | some l => match x.1.srvRead p a 8 with
        | (s, some e) => (s, if pageValid e && decide (64 * (n + 1) ≤ t.flushed) then some (l ++ [(a, t.tower, e)]) else none)
        | (s, none) => (s, none)) (s, some [])
    let (s, m) := s.blockPages p n r
    match l, m with
    | some l, some m => (s, some (l ++ m))
    | _, _ => (s, none)

/-- A node for block `n` made and linked, where the memory it gets takes it: its address. Where nodes and page lists stand
the spec does not say: both places are free. -/
def State.insertNode (s : State) (p i e key parent : Nat) (up : Option Nat) (pages : List (Nat × Nat × Nat)) :
    State × Option Nat :=
  let a := 64 * (1 + s.draw 15 0 % (2 ^ 42 - 1))
  let list := 8 * (1 + s.draw 16 0 % (2 ^ 45 - 1))
  let s := s.tick
  match s.srvRead p (s.bucketAddr p key) 8 with
  | (s, none) => (s, none)
  | (s, some first) =>
    let node := leBytes 8 key ++ leBytes 8 parent ++ leBytes 2 1 ++ leBytes 2 0 ++ leBytes 2 (field e 32 16) ++ leBytes 2 0 ++
      leBytes 8 (s.part p).srv.steps ++ leBytes 8 list ++ leBytes 8 (field first 0 48) ++ leBytes 16 0
    let (s, ok) := s.writeRun (.serving p) p list (pages.flatMap fun x => leBytes 8 (putField x.2.2 30 1 1)) [] false
    let (s, ok2) := s.writeRun (.serving p) p a node [] false
    if !ok || !ok2 then (s, none)
    else
      let s := s.srvWrite p (s.bucketAddr p key) 8 a
      let s := pages.foldl (fun s x => (s.srvWrite p x.1 8 (putField x.2.2 30 1 1)).raiseRef p x.2.1 x.2.2) s
      let s := match up with
        | some b => match s.srvRead p b 64 with
          | (s, some m) => s.srvWrite p (b + 0x12) 2 (nodeChildren m + 1)
          | (s, none) => s
        | none => s
      let s := s.modSrv p fun v => { v with nodes := v.nodes ++ [(a, pages.map fun x => x.2.1)] }
      (s.modReq p i fun r => { r with nodes := r.nodes ++ [a] }, some a)

/-- Insert nodes for the whole blocks of a prompt that have none, `k` left, from block `n` on. -/
def State.insertBlocks (s : State) (p i e : Nat) (tables : List (Option KvTable)) : Nat → Nat → Nat → Option Nat → State
  | 0, _, _, _ => s
  | k + 1, n, parent, up => match s.srvRead p (reqTokenLog e + 256 * n) 256 with
    | (s, none) => s
    | (s, some toks) =>
      let key := s.blockKey p parent toks
      match s.lookup p key (some parent) (field e 32 16) with
      | (s, some (a, _)) => s.insertBlocks p i e tables k (n + 1) key (some a)
      | (s, none) => match s.blockPages p n tables with
        | (s, none) => s
        | (s, some pages) => match s.insertNode p i e key parent up pages with
          | (s, some a) => s.insertBlocks p i e tables k (n + 1) key (some a)
          | (s, none) => s

/-! ## Cutting a request back, and releasing it (R250, R253) -/

/-- Let the pages of a table go, `k` left, from page `j` on. -/
def State.letPages (s : State) (p : Nat) (t : KvTable) : Nat → Nat → State
  | 0, _ => s
  | k + 1, j =>
    let s := match s.srvRead p (t.entryAddr j) 8 with
      | (s, some e) => if pageValid e then (s.dropRef p t.tower e).srvWrite p (t.entryAddr j) 8 0 else s
      | (s, none) => s
    s.letPages p t k (j + 1)

/-- A table cut back to `b` tokens, a page boundary: staged entries go, and the pages from there on. -/
def State.cutTable (s : State) (p b : Nat) (t : KvTable) : State :=
  let s := s.modTower t.tower fun tw => tw.setStaged t.addr []
  let first := ceilDiv b t.p
  let s := s.letPages p t (min t.cap (ceilDiv t.flushed t.p) - first) first
  s.setTable p t (min t.flushed b) (min t.flushed b)

/-- The tables of a request cut back to `b` tokens, and the nodes above left. -/
def State.cutTables (s : State) (p i e b : Nat) : State :=
  let (s, tables) := s.reqTables p e
  let s := tables.foldl (fun s t => match t with
    | some t => s.cutTable p b t
    | none => s) s
  let nodes := match s.srvReq p i with
    | some r => r.nodes
    | none => []
  let s := (nodes.drop (b / 64)).foldl (fun s a => s.leaveNode p a) s
  s.modReq p i fun r => { r with nodes := r.nodes.take (b / 64) }

/-- The tokens of a request's prompt: PROMPT_LEN, and for a fork at least FORK_AT (R249). -/
def State.promptLen (s : State) (p i e : Nat) : Nat :=
  match s.srvReq p i with
  | some r => max (reqPromptLen e) r.fork
  | none => reqPromptLen e

/-- Tokens that a recompute brings back: the prompt, and what was generated but for the last token, which is candidate 0 of
the next step (R251, R255). -/
def State.reqTarget (s : State) (p i e : Nat) : Nat :=
  s.promptLen p i e + reqGenerated e - (if reqGenerated e = 0 then 0 else 1)

/-- A request cut back to `b` tokens and to be recomputed from there (R251); a MUTED request stays MUTED. The result of a chunk in
progress is dropped. -/
def State.cutBack (s : State) (p i e b : Nat) : State :=
  let s := s.cutTables p i e b
  let s := s.putReq p i 0x44 4 (min (reqCommitted e) b)
  let target := s.reqTarget p i e
  let s := s.modReq p i fun r => { r with target := target, mark := true }
  let s := s.modSrv p fun v => { v with chunks := v.chunks.map fun c => if c.req = i then { c with cut := true } else c }
  if reqState e = 4 then s else s.setReqState p i 2

/-- A request's pages, staged entries and nodes released, and the request forgotten (R253). -/
def State.releaseReq (s : State) (p i e : Nat) : State :=
  (s.cutTables p i e 0).modSrv p fun v =>
    { v with reqs := v.reqs.filter fun r => decide (r.req ≠ i), chunks := v.chunks.filter fun c => decide (c.req ≠ i) }

/-! ## Stream rings (R257, R258) -/

/-- Room in a request's ring, in entries. -/
def ringRoom (e : Nat) : Nat := 2 ^ reqRingLog2 e - (reqPidx e + 2 ^ 32 - reqCidx e) % 2 ^ 32

/-- The 16 bytes of a stream entry (Table 07-9). -/
def streamBytes (token index status flags logprob : Nat) : List Byte :=
  leBytes 4 token ++ leBytes 4 index ++ leBytes 1 flags ++ leBytes 1 status ++ leBytes 2 logprob ++ leBytes 4 0

/-- Write stream entries of a request in order, as far as its ring has room, then PIDX to PIDX_ADDR and to the entry. -/
def State.pushStream (s : State) (p i e : Nat) (entries : List (List Byte)) : State :=
  let l := entries.take (ringRoom e)
  if l = [] then s
  else
    let s := l.zipIdx.foldl (fun s x =>
      (s.storeRun p (reqRingBase e + 16 * ((reqPidx e + x.2) % 2 ^ reqRingLog2 e)) x.1).1) s
    let pidx := (reqPidx e + l.length) % 2 ^ 32
    ((s.storeRun p (reqPidxAddr e) (leBytes 4 pidx)).1).putReq p i 0x3C 4 pidx

/-- A LAST entry with no token. -/
def lastBytes (e : Nat) (st : Status) (flags : Nat) : List Byte :=
  streamBytes 0 (reqGenerated e) (statusCode st) (flags ||| 1) 0

/-- Whether the next stream entry of a request is the first after a recompute (R251). -/
def SrvReq.recomputed (r : SrvReq) (committed : Nat) : Bool := r.mark && decide (r.target ≤ committed)

/-- The flags that what is kept for a request puts on its next entry: RECOMPUTED and DEGRADED (R251, R258). -/
def SrvReq.flags (r : SrvReq) (committed : Nat) : Nat := 8 * b2n (r.recomputed committed) + 32 * b2n r.degraded

/-- A request ends with a LAST entry of its own: at once, or held until its ring has room. A MUTED request has been cancelled
(R259): its entry carries CANCELLED and ABORTED whatever ended it. -/
def State.endReq (s : State) (p i e : Nat) (st : Status) (flags : Nat) : State :=
  let own := match s.srvReq p i with
    | some r => r.flags (reqCommitted e)
    | none => 0
  let flags := (if reqState e = 4 then 16 else flags) ||| own
  let st : Status := if reqState e = 4 then .aborted else st
  let s := s.releaseReq p i e
  if ringRoom e ≥ 1 then (s.pushStream p i e [lastBytes e st flags]).setDone p i st
  else s.modSrv p fun v => { v with held := v.held ++ [{ req := i, status := st, flags := flags }] }

end Sys2Proof.Machine
end

