-- ==== Sys2Proof/Machine/Partition.lean ====
section
/-! DEFINITION. Partition control (R371 to R376): enabling, the disable procedure and its variants, function level resets;
and the host's accesses through BAR2 (R294, R370). -/

namespace Sys2Proof.Machine

/-! ## Enabling (R371) -/

/-- Whether a GROUPS mask may be enabled. -/
def State.groupsOk (s : State) (p mask : Nat) : Bool :=
  decide (mask ≠ 0) && (List.range 12).all fun q => decide (q = p) || decide (mask &&& s.groupMask q = 0)

/-- Whether a GROUPS mask names groups that exist. -/
def State.groupsExist (s : State) (mask : Nat) : Bool := decide (mask / 2 ^ s.units = 0)

/-- A partition enabled: its towers' OWNER, its jobs DISABLED, the default microcode in its cores and Keeps (R414). -/
def State.enablePart (s : State) (p : Nat) : State :=
  let s := (s.towersOf p).foldl (fun s t => s.modTower t fun tw => { tw with owner := p }) s
  let s := s.modPart p fun d => { d with jobs := mmapv {} (fun _ b => { b with state := .disabled }) d.jobs }
  (s.loadUcode p s.directory.ucode).setPartState p .enabled

/-- GROUPS written while the state is DISABLED: towers whose bit is cleared lose their owner. -/
def State.writeGroups (s : State) (p mask : Nat) : State :=
  let s := (List.range s.units).foldl (fun s t =>
    if (s.tower t).owner = p && !nbit mask t then s.modTower t fun tw => { tw with owner := 15 } else s) s
  s.setRegField (partBase p + Off.pctl) 0 12 mask

/-! ## The disable procedure (R374) -/

/-- Steps 1 and 2: DRAINING, and every job killed with the drain window; a UCODE_APPLY of the partition ends (R414). -/
def State.startDisable (s : State) (p : Nat) (d : Disable) : State :=
  let s := (s.abortUcode p).modPart p fun x => { x with disable := some { d with start := s.landing.fclk.toNat } }
  let s := s.setPartState p .draining
  jobList.foldl (fun s j => s.killJob p j d.window d.status) s

/-- The channels that step 3 aborts: those of the partition's tower engines, and the host channels whose PART it is. -/
def State.partChannels (s : State) (p : Nat) : List (Nat × Nat) :=
  ((s.towersOf p) ++ [12, 13]).flatMap fun e =>
    ((List.range 16).filter fun c => decide (s.chanPart e c = p)).map fun c => (e, c)

/-- A running command that drops its tiles, sets no flag and writes no record (step 4). -/
def Running.hush (r : Running) : Running :=
  { r with dropTiles := true, tiles := [], silent := true,
           cmd := { r.cmd with params := r.cmd.params.take 8 ++ List.replicate 6 0 ++ r.cmd.params.drop 14 } }

/-- Step 3: what remains of the jobs, the channels and the queued tower commands end; step 4 begins. -/
def State.endDrain (s : State) (p : Nat) (d : Disable) : State :=
  let s := jobList.foldl (fun s j => if (s.job p j).state = .killing then s.finishKill p j else s) s
  let s := (s.partChannels p).foldl (fun s x =>
    if d.flr && !(s.chan x.1 x.2).free then s.acceptAbort x.1 x.2 d.status else s.abortChannel x.1 x.2 d.status) s
  (s.towersOf p).foldl (fun s t =>
    (s.purgeQueue t (fun _ => true) d.status true false).modTower t fun tw => { tw with running := tw.running.map Running.hush }) s

/-- The end of the drain window: CLEANING, or FLR until the flushing read of R376 is over, and in an FLR no write of the function
leaves the device any more. -/
def State.finishDrain (s : State) (p : Nat) (d : Disable) : State :=
  let s := s.modPart p fun x => { x with disable := some { d with cut := true } }
  (s.endDrain p d).setPartState p (if d.flr then .flr else .cleaning)

/-- Whether a register keeps its value when the partition's registers are reset (Table 11-4, Table 11-6): PCTL,
PSTAT, PVOL_IN_IDS, and but for an FLR the VF's MSI-X table. -/
def keepsValue (p : Nat) (flr : Bool) (a : Nat) : Bool :=
  decide (a < partBase p) || decide (partBase (p + 1) ≤ a) || decide (a = partBase p + Off.pctl) ||
  decide (a = partBase p + Off.pstat) || decide (a = partBase p + Off.pvolInIds) ||
  (!flr && decide (partBase p + Off.msixVfAddrLo ≤ a))

/-- The partition's registers at their reset values, its counters and semaphores included; PSTAT.CONTAINED stays. -/
def State.resetPart (s : State) (p : Nat) (flr : Bool) : State :=
  let s := { s with regs := s.regs.filter fun r => keepsValue p flr r.1 }
  let s := s.setRegBit (partBase p + Off.pstat) 28 false
  let s := if flr then s.modLanding fun l =>
      { l with msixPending := l.msixPending.filter fun v => decide (v < 4096 + 64 * p) || decide (4096 + 64 * p + 64 ≤ v) }
    else s
  s.modPart p fun d => { d with counters := [], sems := [], semWait := [], jobs := [], srv := {}, ucodeHold := false }

/-- Every request entry of a partition that is not FREE becomes FREE. -/
def State.freeEntries (s : State) (p : Nat) : State :=
  (List.range (s.reqCount p)).foldl (fun s i => match s.srvRead p (s.reqAddr p i) 1 with
    | (s, some st) => if st = 0 then s else s.setReqState p i 0
    | (s, none) => s) s

/-- Whether no tower command of a partition runs any more. -/
def State.towersQuiet (s : State) (p : Nat) : Bool :=
  (s.towersOf p).all fun t => (s.tower t).running.all fun r => decide (r.cmd.part ≠ p)

/-- The channels of a partition at IDLE (R364). -/
def State.idleChannels (s : State) (p : Nat) : State :=
  (s.partChannels p).foldl (fun s x => s.modChan x.1 x.2 fun c => { c with state := .idle }) s

/-- Steps 5 and 6: the staging areas and the serving state are dropped, channels are IDLE, registers are reset, and the state is
DISABLED or ENABLED again. -/
def State.finishClean (s : State) (p : Nat) (d : Disable) : State :=
  let s := (s.towersOf p).foldl (fun s t => s.modTower t fun tw => { tw with staging := [] }) s
  let s := ((s.freeEntries p).modSrv p fun _ => {}).idleChannels p
  let s := if d.toEnabled || d.flr then s.resetPart p d.flr else s
  let s := (s.setPartState p (if d.toEnabled then .enabled else .disabled)).modPart p fun x => { x with disable := none }
  if s.pfFlr && (List.range 12).all (fun q => !s.inFlr q) then { s with pfFlr := false } else s

/-! ## Writes of PCTL -/

/-- PKILL_DRAIN.WINDOW, or for an FLR the lesser of it and 60,000 µs, in Landing FCLK cycles. -/
def State.drainWindow (s : State) (p : Nat) (flr : Bool) : Nat :=
  let w := s.regField (partBase p + Off.pkillDrain) 0 24
  1350 * (if flr then min w 60000 else w)

/-- A partition reset (Table 11-6) with a drain window. -/
def State.resetPartition (s : State) (p window : Nat) : State :=
  if (s.part p).state = .enabled then s.startDisable p { toEnabled := true, status := .aborted, flr := false, window := window } else s

/-- A PF write of PCTL. -/
def State.writePctl (s : State) (p v : Nat) : State :=
  let a := partBase p + Off.pctl
  let s := s.setRegBit a 29 (nbit v 29)
  let s := if (s.part p).state = .disabled then s.writeGroups p (field v 0 12) else s
  match (s.part p).state with
  | .disabled =>
    if !nbit v 31 then s
    else if s.groupsOk p (s.groupMask p) && s.groupsExist (s.groupMask p) && !s.stopped then (s.setRegBit a 31 true).enablePart p
    else s.setRegBit (partBase p + Off.pstat) 28 true
  | .enabled =>
    if s.stopped then s.setRegBit a 31 (nbit v 31)
    else if !nbit v 31 then
      (s.setRegBit a 31 false).startDisable p { toEnabled := false, status := .aborted, flr := false, window := s.drainWindow p false }
    else if nbit v 30 then s.resetPartition p (s.drainWindow p false)
    else s
  | _ => s.setRegBit a 31 (nbit v 31)

/-- A write of PCTL: a VF's is ignored (R372). -/
def State.hostPctl (s : State) (fn : Fn) (p v : Nat) : State :=
  match fn with
  | .pf => s.onWrite fn (partBase p + Off.pctl) fun s => s.writePctl p v
  | .vf _ => s

/-- PCTL_ENABLE (R371): PCTL written with ENABLE = 1. -/
def execPctlEnable (fn : Fn) (part : Nat) (value : Word) (s : State) : Result :=
  if value.getLsbD 31 then done (s.hostPctl fn part value.toNat) else done s

/-- PCTL_DISABLE (R374): PCTL written with ENABLE = 0. -/
def execPctlDisable (fn : Fn) (part : Nat) (value : Word) (s : State) : Result :=
  if value.getLsbD 31 then done s else done (s.hostPctl fn part value.toNat)

/-- RESET (R374): PCTL written with RESET = 1. -/
def execReset (fn : Fn) (part : Nat) (value : Word) (s : State) : Result :=
  if value.getLsbD 30 then done (s.hostPctl fn part value.toNat) else done s

/-! ## Function level resets (R374 to R376) -/

/-- An FLR of the function of partition `p` with a drain window: the procedure starts; one in progress becomes an FLR; a
DISABLED partition's registers are reset. -/
def State.flrPart (s : State) (p window : Nat) : State :=
  match (s.part p).state with
  | .enabled => s.startDisable p { toEnabled := true, status := .flrCancelled, flr := true, window := window }
  | .disabled => s.resetPart p true
  | .flr => s
  | _ => s.modPart p fun x => { x with disable := x.disable.map fun d => { d with status := .flrCancelled, flr := true } }

/-- The number of a function: the PF is 0. -/
def fnNumber : Fn → Nat
  | .pf => 0
  | .vf n => n

/-- An FLR of the PF, with or without the drain windows: the procedure on every partition, and the mailbox drops the
response in progress (R398, R410); VF Enable is cleared (R374). -/
def State.flrPf (s : State) (drain : Bool) : State :=
  let s := { s with port := { s.port with vfEnable := false } }
  let s := (List.range s.units).foldl (fun s p => s.flrPart p (if drain then s.drainWindow p true else 0)) { s with pfFlr := true }
  let s := if (List.range 12).all (fun q => !s.inFlr q) then { s with pfFlr := false } else s
  let a := mboxBase + Off.mbxStat
  let gone (q : MgmtRequest) : MgmtRequest := if q.path.isNone then { q with dropped := true } else q
  ((s.setRegBit a 31 false).setRegBit a 30 false).modAldeah fun x =>
    { x with req := x.req.map gone, queue := x.queue.map gone }

/-- FLR (R374, R375): of a VF that exists or the PF, by the host or by entry to D3hot, which acts the same. -/
def execFlr (fn : Fn) (_how : FlrKind) (s : State) : Result :=
  if !s.portUp || s.stopped then done s
  else match fn with
    | .pf => done (if s.pfFlr then s else s.flrPf true)
    | .vf n => if s.port.vfEnable && 1 ≤ n && n ≤ s.units then done (s.flrPart (n - 1) (s.drainWindow (n - 1) true)) else done s

/-- DISABLE_DRAIN_END (R374, step 3): the drain window ends. -/
def execDisableDrainEnd (part : Nat) (s : State) : Result :=
  if !s.runs then done s else
  match (s.part part).state, (s.part part).disable with
  | .draining, some d =>
    if s.landing.fclk.toNat ≥ d.start + d.window then done (s.finishDrain part d) else done s
  | _, _ => done s

/-- FLR_FLUSH_READ_DONE (R376): the flushing read is complete, or 1 ms has passed. -/
def execFlrFlushReadDone (part : Nat) (s : State) : Result :=
  if !s.runs then done s else
  match (s.part part).state, (s.part part).disable with
  | .flr, some _ =>
    done (s.setPartState part .cleaning)
  | _, _ => done s

/-- CLEANING_DONE (R374, steps 5 and 6): the tower commands that were running have finished, and the channels have accepted their
aborts. -/
def execCleaningDone (part : Nat) (s : State) : Result :=
  if !s.runs then done s else
  match (s.part part).state, (s.part part).disable with
  | .cleaning, some d =>
    if s.towersQuiet part && (s.partChannels part).all (fun x => (s.chan x.1 x.2).free) then done (s.finishClean part d)
    else done s
  | _, _ => done s

/-! ## BAR2 (R294, R368, R370) -/

/-- The partition and the address that an offset of a function's BAR2 reaches, and whether its aperture is on. -/
def State.aperture (s : State) (fn : Fn) (o : Nat) : Nat × Nat × Bool :=
  match fn with
  | .pf => (s.regField Off.gaptCtl 0 4, (s.reg Off.gaptBaseLo + 2 ^ 32 * s.reg Off.gaptBaseHi + o) % 2 ^ 48, s.regBit Off.gaptCtl 31)
  | .vf n => (n - 1, (s.pregPair (n - 1) Off.vaptBaseLo Off.vaptBaseHi + o) % 2 ^ 48, true)

/-- The bytes of a function's BAR2: each VF has an equal share of what all have together (R370; DESIGN CHOICE, log 102). -/
def State.bar2Size (s : State) (fn : Fn) : Nat :=
  match fn with
  | .pf => s.port.bar2
  | .vf _ => s.port.vfBar2 / (if s.units ≤ 8 then 8 else 16)

/-- Whether a function's BAR2 is served: the port is in full function, no FLR runs, and a VF's partition is not DISABLED
(R368, R372, R375). -/
def State.bar2 (s : State) (fn : Fn) : Bool :=
  s.fullPort && s.answers fn && !s.stopped &&
  match fn with
  | .pf => true
  | .vf n => s.active (n - 1)

/-- Whether an access reaches tower memory: the aperture is on and its bytes lie in the hashed or a banked view. -/
def State.reachesTower (s : State) (p a : Nat) (on : Bool) : Bool :=
  on && decide (p < s.units) &&
  match s.region p a with
  | .hashed | .banked _ _ => true
  | _ => false

/-- The record of a BAR2 access that reaches neither view (R161, R370): no tower is its source. -/
def State.logAperture (s : State) (p a : Nat) : State :=
  s.logError { errOf .memUnmapped p 4 p with
    addr := a, status := .bounds, detail := engineId .host, cycles := s.landing.fclk.toNat }

/-- HOST_BAR2_WRITE (R294): the bytes are written in order; poisoned data makes the words that it reaches poisoned (R373). -/
def execHostBar2Write (fn : Fn) (offset : Nat) (bytes : List Byte) (poisoned : Bool) (s : State) : Result :=
  if !s.bar2 fn || bytes = [] || s.bar2Size fn < offset + bytes.length then done s
  else
    let s := if poisoned then s.reportAer fn .advisory else s
    let (p, a, on) := s.aperture fn offset
    if s.reachesTower p a on then
      done (s.writeRun .host p a bytes (if poisoned then List.range (bytes.length / 32 + 2) else []) false).1
    else done (s.logAperture p a)

/-- The bytes of the `n` from `a` that lie in one word of a host read: 0xFF for a word that is refused (R161), and bytes that the
spec does not give for one delivered poisoned (DESIGN CHOICE, log 172). -/
def State.hostWord (s : State) (p a n wa : Nat) : State × List Byte :=
  let lo := max a wa
  let len := min (a + n) (wa + 32) - lo
  if !s.reachesTower p lo true then (s.logAperture p lo, List.replicate len 0xFF)
  else match s.readWord .host p wa with
    | (s, none) => (s, List.replicate len 0xFF)
    | (s, some w) =>
      (s, if w.kind = .clean then w.data.bytes (lo - wa) len
          else (List.range len).map fun i => BitVec.ofNat 8 (s.draw 28 (lo + i)))

/-- The words of a host read from `wa` on, `k` left. -/
def State.hostWords (s : State) (p a n : Nat) : Nat → Nat → State × List Byte
  | 0, _ => (s, [])
  | k + 1, wa =>
    let (s, bs) := s.hostWord p a n wa
    let (s, rest) := s.hostWords p a n k (wa + 32)
    (s, bs ++ rest)

/-- HOST_BAR2_READ (R294): every write received before it is performed. A read that is not served returns bytes of 0xFF (R161, R368,
R372, R375). -/
def execHostBar2Read (fn : Fn) (offset length : Nat) (s : State) : Result :=
  if !s.portUp || length = 0 || s.bar2Size fn < offset + length then done s
  else if !s.bar2 fn then done { s with hostRead := List.replicate length 0xFF }
  else
    let (p, a, on) := s.aperture fn offset
    if !on then done { s.logAperture p a with hostRead := List.replicate length 0xFF }
    else
      let (s, bs) := s.hostWords p a length ((a + length - 1) / 32 - a / 32 + 1) (a - a % 32)
      done { s.tick with hostRead := bs }

/-! ## Discovery (R379) -/

/-- GFEAT_SEL_WRITE (R379): the key and index whose value GFEAT_VAL, or for a VF PFEAT_VAL, returns. -/
def execGfeatSelWrite (fn : Fn) (key : BitVec 8) (index : BitVec 16) (s : State) : Result :=
  let v := index.toNat * 65536 + key.toNat
  match fn with
  | .pf => done (s.onWrite fn Off.gfeatSel fun s => s.setReg Off.gfeatSel v)
  | .vf n => done (s.onWrite fn (partBase (n - 1) + Off.pfeatSel) fun s => s.setReg (partBase (n - 1) + Off.pfeatSel) v)

end Sys2Proof.Machine
end

