-- ==== Sys2Proof/Machine/AldeahOps.lean ====
section
/-! DEFINITION. Aldeah's commands (R399 to R418): the mailbox, settings, OTP, firmware and microcode, debug, the event log,
sensors, attestation, and the restarts of its processor. -/

namespace Sys2Proof.Machine

/-! ## The mailbox and MCTP (R410) -/

/-- The first bytes of MBX_REQ. -/
def State.mailboxBytes (s : State) (n : Nat) : List Byte :=
  ((List.range 1024).flatMap fun i => leBytes 4 (s.reg (mboxBase + Off.mbxReq + 4 * i))).take n

/-- A request enters Aldeah's hands, or waits behind the one in progress. -/
def State.accept (s : State) (q : MgmtRequest) : State :=
  s.modAldeah fun a => if a.req.isNone then { a with req := some q, rsp := none } else { a with queue := a.queue ++ [q] }

/-- A length of a request that Table 12-10 allows. -/
def requestLength (n : Nat) : Bool := decide (16 ≤ n) && decide (n ≤ 4096)

/-- MBX_DOORBELL written: the request is taken, or ignored with DOORBELL_ERR (R407, R410). -/
def State.doorbell (s : State) (n : Nat) : State :=
  let a := mboxBase + Off.mbxStat
  if s.regBit a 31 || !s.aldeah.up || !requestLength n then s.setRegBit a 29 true
  else (s.setRegBit a 31 true).accept { bytes := s.mailboxBytes n, path := none }

/-- MBX_DOORBELL (R410). -/
def execMbxDoorbell (fn : Fn) (length : BitVec 13) (s : State) : Result :=
  done (s.onWrite fn (mboxBase + Off.mbxDoorbell) fun s => s.doorbell length.toNat)

/-- Whether a path of management messages is open: the host port serves the function, or the management bus answers. -/
def State.pathOpen (s : State) : MgmtPath → Bool
  | .inBand fn => s.answers fn
  | .outOfBand => s.mod.modPg

/-- MCTP_REQUEST (R410): the mailbox's commands as MCTP messages, of the PF or of the management controller. -/
def execMctpRequest (path : MgmtPath) (message : List Byte) (s : State) : Result :=
  let ours := match path with
    | .inBand (.vf _) => false
    | _ => true
  if s.aldeah.up && ours && s.pathOpen path && requestLength message.length then
    done (s.accept { bytes := message, path := some path })
  else done s

/-- The words of a response written to MBX_RSP. -/
def State.writeRsp (s : State) (bs : List Byte) : State :=
  (List.range (ceilDiv bs.length 4)).foldl (fun s i =>
    s.setReg (mboxBase + Off.mbxRsp + 4 * i) (leNum ((bs.drop (4 * i)).take 4))) s

/-- A response leaves: to MBX_RSP with DONE and vector 2, or on its path; the next request comes forward. -/
def State.deliverRsp (s : State) (q : MgmtRequest) (rsp : List Byte) : State :=
  let s := match q.path with
    | some path => s.modAldeah fun a => { a with sent := a.sent ++ [(path, rsp)] }
    | none =>
      if q.dropped then s
      else
        let a := mboxBase + Off.mbxStat
        (((s.writeRsp rsp).setRegBit a 30 true).setRegBit a 31 false).signal 2
  s.modAldeah fun a => match a.queue with
    | [] => { a with req := none, rsp := none }
    | n :: l => { a with req := some n, rsp := none, queue := l }

/-- MBX_RESPONSE (R410): the response of the request in progress; a command outside Table 12-11 ends with REFUSED. -/
def execMbxResponse (s : State) : Result :=
  match s.aldeah.req with
  | none => done s
  | some q =>
    if !s.aldeah.up then done s
    else match s.aldeah.rsp with
      | some rsp => done (s.deliverRsp q rsp)
      | none => if mailboxCodes.contains (requestCode q) then done s else done (s.deliverRsp q (responseBytes q.bytes .refused []))

/-! ## Information (Table 12-11) -/

/-- The payload of GET_INFO. -/
def State.infoBytes (s : State) : List Byte :=
  s.serial ++ leBytes 4 (s.reg Off.gid) ++ leBytes 4 Config.bootRomVersion.toNat ++
  ([(false, false), (false, true), (true, false), (true, true)].flatMap fun x =>
    leBytes 4 (s.slotVersion x.1 x.2) ++ leBytes 4 (s.slotSvn x.1 x.2)) ++
  ((List.range 12).flatMap fun p => leBytes 1 (b2n (s.partUcode p))) ++
  ((List.range 4).flatMap fun f => leBytes 4 (s.setting f))

/-- GET_INFO. -/
def execGetInfo (s : State) : Result := done (s.handle 0x1 fun _ => s.respond .ok s.infoBytes)

/-- The PLDM ids of Table 12-7 but for the regulators' pages. -/
def sensorIds : List Nat := ((List.range 128).map fun n => 0x100 + n) ++ (List.range 40).map fun n => 0x200 + n

/-- Whether a sensor of Table 12-7 is fitted (R419). -/
def sensorFitted (v : Variant) (id : Nat) : Bool :=
  (sensorIds.contains id || (decide (0x300 ≤ id) && decide (id < 0x400))) &&
  match v with
  | .kq12 => true
  | .kq08 => !(decide (0x100 + 88 ≤ id) && decide (id < 0x100 + 104)) && !(decide (0x200 + 20 ≤ id) && decide (id < 0x200 + 24))

/-- The payload of READ_SENSORS: each sensor's id and value, the absent ones zero (R419). -/
def State.sensorBytes (s : State) : List Byte :=
  let pages := (s.aldeah.sensors.map (·.1)).filter fun i => decide (0x300 ≤ i)
  (sensorIds ++ pages).flatMap fun i => leBytes 4 i ++ leBytes 4 (mget 0 s.aldeah.sensors i).toNat

/-- READ_SENSORS (R408). -/
def execReadSensors (s : State) : Result := done (s.handle 0x2 fun _ => s.respond .ok s.sensorBytes)

/-- SENSOR_SAMPLE (R408): Aldeah samples the sensors that are fitted. -/
def execSensorSample (values : List (Nat × BitVec 32)) (s : State) : Result :=
  if s.aldeah.up then
    done (s.modAldeah fun a => { a with sensors :=
      (values.filter fun x => sensorFitted s.variant x.1).foldl (fun l x => mset 0 l x.1 x.2) a.sensors })
  else done s

/-! ## The log (R409) -/

/-- The entries that the flash or the RAM still holds, oldest first. -/
def State.heldLog (s : State) : List LogEntry := s.aldeah.area0 ++ pendingLog s.aldeah.log s.aldeah.area0

/-- READ_LOG: the first SEQ in 8 bytes and a count of 1 to 63. -/
def execReadLog (s : State) : Result :=
  done (s.handle 0x3 fun b =>
    let first := leNum (b.take 8)
    let n := argWord b 2
    if b.length < 12 || n < 1 || 63 < n then s.respond .descInvalid []
    else s.respond .ok ((s.heldLog.filter fun e => decide (first ≤ e.seq) && decide (e.seq < first + n)).flatMap entryBytes))

/-- LOG_SYNC (R409): GCTL.LOG_SYNC written with 1. -/
def execLogSync (fn : Fn) (s : State) : Result :=
  done (s.onWrite fn Off.gctl fun s => if s.aldeah.up then s.copyLog else s)

/-- LOG_FLASH_COPY (R409): the copy made at least once a second. -/
def execLogFlashCopy (s : State) : Result := if s.aldeah.up then done s.copyLog else done s

/-! ## Settings and OTP (R400, R401, R404) -/

/-- WRITE_SETTINGS (R404). -/
def execWriteSettings (s : State) : Result :=
  done (s.handle 0x10 fun b => if settingsValid b then (s.writeSettings b).respond .ok [] else s.respond .descInvalid [])

/-- Whether Table 12-4 allows a new value of a field setting. -/
def State.settingAllowed (s : State) (f v : Nat) : Bool :=
  match f with
  | 0 => decide (s.setting 0 < v) && decide (v ≤ s.slotSvn false s.aldeah.slotB)
  | 1 => decide (s.setting 1 < v) && [false, true].all fun b => !s.ucodeUsed b || decide (v ≤ s.slotSvn true b)
  | 2 => decide (s.setting 2 < v) && decide (v ≤ 1)
  | 3 => true
  | _ => false

/-- An OTP_WRITE entry and its response. -/
def State.otpDone (s : State) (what generation : Nat) (st : Status) : State :=
  (s.logEntry 5 (logBody [what, generation, statusCode st]) false).respond st []

/-- A field setting programmed in its lowest unused record (R400). -/
def State.writeSetting (s : State) (f v : Nat) : State :=
  match s.unusedRecord f with
  | some k =>
    if s.settingAllowed f v then
      { s with otp := s.otp.setNum (0x400 + 40 * f + 8 * k) 8 (otpRecordOf v) }.otpDone f k .ok
    else s.otpDone f 0xFFFFFFFF .refused
  | none => s.otpDone f 0xFFFFFFFF .refused

/-- Whether a statement revokes key `k` (R401): signed by another key, and for this module. -/
def State.revokes (s : State) (m : Memory) (k : Nat) : Bool :=
  s.verifies m 2 && decide (m.num 0xC 4 ≠ k) && decide (m.num 0x18 4 = 32) &&
  decide (m.bytes 0x400 32 = s.serial ++ leBytes 4 k ++ List.replicate 12 0)

/-- OTP_WRITE (R400, R401): a field and a value, or a key index and a signed statement. A request that would leave no key
unrevoked is refused before its statement is checked. -/
def execOtpWrite (s : State) : Result :=
  done (s.handle 0x11 fun b =>
    let k := argWord b 0
    if b.length < 8 then s.respond .descInvalid []
    else if b.length = 8 then (if k < 4 then s.writeSetting k (argWord b 1) else s.otpDone k 0xFFFFFFFF .refused)
    else if 4 ≤ k || (List.range 4).all fun j => decide (j = k) || s.revoked j then s.otpDone (0x100 + k) 0xFFFFFFFF .refused
    else if s.revokes (Memory.ofBytes 0 (b.drop 4)) k then
      { s with otp := s.otp.set (0xC0 + k) 0xFF }.otpDone (0x100 + k) 0 .ok
    else s.otpDone (0x100 + k) 0xFFFFFFFF .checkFail)

/-! ## Firmware (R412, R413) -/

/-- The slot that an image of a component is staged in: the inactive one; of the microcode the one in no use (R414). -/
def State.stageSlot (s : State) (ucode : Bool) : Option Bool := if ucode then s.ucodeFree else some !s.directory.active

/-- FW_STAGE: component, offset and data. -/
def execFwStage (s : State) : Result :=
  done (s.handle 0x20 fun b =>
    let uc := decide (argWord b 0 = 1)
    let data := b.drop 8
    if b.length ≤ 8 || 2 ≤ argWord b 0 || slotSize uc < argWord b 1 + data.length then s.respond .descInvalid []
    else if s.aldeah.update = some true then s.respond .refused []
    else match s.stageSlot uc with
      | some slot => ((s.stageImage uc slot (argWord b 1) data).modAldeah fun a => { a with update := some false }).respond .ok []
      | none => s.respond .refused [])

/-- An UPDATE entry (Table 12-9). -/
def State.logUpdate (s : State) (ucode old new : Bool) (st : Status) : State :=
  s.logEntry 3 (logBody [b2n ucode, s.slotVersion ucode old, s.slotVersion ucode new, statusCode st]) true

/-- Step 2 of R413: the firmware stops and hands over to the image of the slot that is not active. -/
def State.handOver (s : State) : State :=
  ({ s with aldeah := { s.aldeah with up := false, handover := true, slotB := !s.directory.active } }).setDown true

/-- The staged microcode becomes the default (Table 12-11). -/
def State.newDefault (s : State) : State :=
  let d := s.directory
  ((s.writeDirectory { d with ucode := !d.ucode }).logUpdate true d.ucode (!d.ucode) .ok).modAldeah fun a => { a with update := none }

/-- FW_ACTIVATE (R413). -/
def execFwActivate (s : State) : Result :=
  done (s.handle 0x21 fun b =>
    let d := s.directory
    let uc := decide (argWord b 0 = 1)
    let cur := if uc then d.ucode else d.active
    if b.length < 4 || 2 ≤ argWord b 0 then s.respond .descInvalid []
    else if s.aldeah.update = some true then s.respond .refused []
    else if !s.slotVerifies uc (!cur) then (s.logUpdate uc cur (!cur) .checkFail).respond .checkFail []
    else if uc then s.newDefault.respond .ok []
    else (s.modAldeah fun a => { a with update := some false }).handOver)

/-- FW_ACTIVATE_FALLBACK (R413, step 4): the old image starts again, and the directory stays. -/
def execFwActivateFallback (s : State) : Result :=
  if !s.aldeah.handover || !s.mod.modPg then done s
  else
    let d := s.directory
    let s := s.logUpdate false d.active (!d.active) .aborted
    let s := if s.aldeah.update = some false then s.respond .aborted [] else s
    done (s.modAldeah fun a => { a with handover := false, slotB := d.active, update := none })

/-- An answer on a PLDM path: its completion code. -/
def State.answerPldm (s : State) (path : MgmtPath) (code : Nat) : State :=
  s.modAldeah fun a => { a with sent := a.sent ++ [(path, leBytes 1 code)] }

/-- The slot that a PLDM update writes: in recovery, slot A of Aldeah (R412). -/
def State.pldmSlot (s : State) : Option Bool := if s.aldeah.recovery then some false else s.stageSlot s.aldeah.pldmUcode

/-- Bytes of an image under PLDM: completion code 0x80 outside an update, 0x01 where they cannot be written. -/
def State.pldmData (s : State) (path : MgmtPath) (off : Nat) (bs : List Byte) : State :=
  if s.aldeah.update ≠ some true then s.answerPldm path 0x80
  else match s.pldmSlot with
    | some b =>
      if slotSize s.aldeah.pldmUcode < off + bs.length then s.answerPldm path 0x01
      else (s.stageImage s.aldeah.pldmUcode b off bs).answerPldm path 0x00
    | none => s.answerPldm path 0x01

/-- Activation under PLDM; in recovery the image verified starts at the next power-up. -/
def State.pldmActivate (s : State) (path : MgmtPath) : State :=
  let d := s.directory
  let uc := s.aldeah.pldmUcode
  let cur := if uc then d.ucode else d.active
  let new := if s.aldeah.recovery then false else !cur
  if s.aldeah.update ≠ some true then s.answerPldm path 0x80
  else if !s.slotVerifies uc new then (s.logUpdate uc cur new .checkFail).answerPldm path 0x01
  else if s.aldeah.recovery then
    (((s.writeDirectory { d with active := false, fallback := true }).logUpdate false cur false .ok).modAldeah fun a =>
      { a with update := none }).answerPldm path 0x00
  else if uc then s.newDefault.answerPldm path 0x00
  else (s.answerPldm path 0x00).handOver

/-- PLDM_FIRMWARE_UPDATE (R412, R413): in recovery on the out-of-band path only, for the Aldeah image only. -/
def execPldmFirmwareUpdate (path : MgmtPath) (request : PldmRequest) (s : State) : Result :=
  if s.aldeah.recovery && path ≠ .outOfBand then done s
  else if !(s.aldeah.up || s.aldeah.recovery) || !s.pathOpen path then done s
  else match request with
    | .begin microcode =>
      if s.aldeah.update.isSome then done (s.answerPldm path 0x81)
      else if s.aldeah.recovery && microcode then done (s.answerPldm path 0x01)
      else done ((s.modAldeah fun a => { a with update := some true, pldmUcode := microcode }).answerPldm path 0x00)
    | .data offset bytes => done (s.pldmData path offset bytes)
    | .activate => done (s.pldmActivate path)
    | .cancel =>
      if s.aldeah.update = some true then done ((s.modAldeah fun a => { a with update := none }).answerPldm path 0x00)
      else done (s.answerPldm path 0x80)

/-! ## Microcode (R414) -/

/-- UCODE_APPLY (R414, step 1): the holds of the partition begin. -/
def execUcodeApply (s : State) : Result :=
  done (s.handle 0x31 fun b =>
    let p := argWord b 0
    let t := argWord b 1
    if s.aldeah.ucode.isSome then s
    else if b.length < 8 || s.units ≤ p || t < 1 || 1000 < t then s.respond .descInvalid []
    else if (s.part p).state ≠ .enabled then s.respond .refused []
    else (s.modPart p fun d => { d with ucodeHold := true }).modAldeah fun a => { a with ucode := some ⟨p, t, s.landing.mclk.toNat⟩ })

/-- The idle point of a partition (R414, step 2). -/
def State.idlePoint (s : State) (p : Nat) : Bool :=
  (jobList.all fun j => match (s.job p j).state with
    | .disabled | .idle | .faulted => true
    | _ => false) &&
  ((s.towersOf p).all fun t => decide ((s.tower t).queue = []) && decide ((s.tower t).running = [])) &&
  (s.partChannels p).all fun x => (s.chan x.1 x.2).free

/-- Whether the timeout of a UCODE_APPLY has passed, counted in MCLK cycles of 337.5 MHz. -/
def State.ucodeLate (s : State) (u : UcodeApply) : Bool := decide (u.start + 337500 * u.timeout ≤ s.landing.mclk.toNat)

/-- UCODE_IDLE_POINT (R414, step 3): the default slot is verified and loaded, and the holds are lifted. -/
def execUcodeIdlePoint (part : Nat) (s : State) : Result :=
  match s.aldeah.ucode with
  | none => done s
  | some u =>
    if u.part ≠ part || !s.idlePoint part || s.ucodeLate u || !s.aldeah.up || !s.runs then done s
    else
      let old := s.partUcode part
      let new := s.directory.ucode
      if s.slotVerifies true new then done ((s.loadUcode part new).endUcode old .ok) else done (s.endUcode old .checkFail)

/-- UCODE_TIMEOUT (R414, step 3): the idle point was not reached in time. -/
def execUcodeTimeout (part : Nat) (s : State) : Result :=
  match s.aldeah.ucode with
  | none => done s
  | some u =>
    if u.part ≠ part || !s.ucodeLate u || !s.aldeah.up then done s else done (s.endUcode (s.partUcode part) .refused)

/-! ## REPAIR_PERSIST (R442) -/

/-- The bit of a retired band set in the bitmap of a tower. -/
def Tower.retire (tw : Tower) (floor bank band : Nat) : Tower :=
  let w := 2 * (floor * 64 + bank) + band / 32
  { tw with retired := mset 0 tw.retired w (mget 0 tw.retired w ||| BitVec.ofNat 32 (2 ^ (band % 32))) }

/-- REPAIR_PERSIST (R442): tower, logical floor, bank and physical band; refused where the journal is full (R441). -/
def execRepairPersist (s : State) : Result :=
  done (s.handle 0x40 fun b =>
    let (t, f, k, band) := (argWord b 0, argWord b 1, argWord b 2, argWord b 3)
    if b.length < 16 || s.units ≤ t || 16 ≤ f || 64 ≤ k || 64 ≤ band then s.respond .descInvalid []
    else
      let (s, ok) := s.writeJournal 5 t ((s.tower t).physFloor f) k band
      if ok then (s.modTower t fun tw => tw.retire f k band).respond .ok [] else s.respond .refused [])

/-! ## Debug (R417) -/

/-- DEBUG_CHALLENGE: a fresh nonce, whose bytes are free. -/
def execDebugChallenge (s : State) : Result :=
  done (s.handle 0x50 fun _ =>
    let n := (List.range 32).map fun i => BitVec.ofNat 8 (s.draw 19 i)
    (s.tick.modAldeah fun a => { a with nonce := some n }).respond .ok n)

/-- Whether a token unlocks the debug block. -/
def State.unlocks (s : State) (m : Memory) : Bool :=
  match s.aldeah.nonce with
  | some n => decide (s.setting 2 = 0) && s.verifies m 3 && decide (m.num 0x18 4 = 48) && decide (m.bytes 0x400 48 = s.serial ++ n)
  | none => false

/-- DEBUG_UNLOCK: each nonce serves one attempt. -/
def execDebugUnlock (s : State) : Result :=
  done (s.handle 0x51 fun b =>
    let m := Memory.ofBytes 0 b
    let t := s.modAldeah fun a => { a with nonce := none }
    if s.unlocks m then
      (((t.setRegBit Off.gstat 25 true).modAldeah fun a => { a with unlocked := true }).logEntry 6
        (logBody [1, m.num 0xC 4]) true).respond .ok []
    else t.respond .refused [])

/-- DEBUG_LOCK: GCTL.DEBUG_LOCK written with 1. -/
def State.lockDebug (s : State) : State :=
  if s.regBit Off.gstat 25 then (s.setRegBit Off.gstat 25 false).logEntry 6 (logBody [0, 0xFFFFFFFF]) true else s

/-- DEBUG_LOCK (R417). -/
def execDebugLock (fn : Fn) (s : State) : Result := done (s.onWrite fn Off.gctl State.lockDebug)

/-! ## Attestation (R415, R416) -/

/-- The 32 bytes of a journal entry (Table 13-8). -/
def journalBytes (seq : Nat) (e : JournalEntry) : List Byte :=
  let b := leBytes 4 seq ++ leBytes 1 e.bank ++ leBytes 1 e.floor ++ leBytes 1 e.unit ++ leBytes 1 e.kind ++ leBytes 8 e.place ++
    leBytes 4 e.boot ++ leBytes 8 0
  b ++ leBytes 4 (crc32c b)

/-- The repair journal's entries as bytes. -/
def State.journalImage (s : State) : List Byte := s.journal.zipIdx.flatMap fun x => journalBytes x.2 x.1

/-- A measurement of Table 12-14. -/
def State.measurement (s : State) (i : Nat) : Option (List Byte) :=
  match i with
  | 1 => some Config.bootRomDigest
  | 2 => some (s.slotDigest false s.aldeah.slotB ++ leBytes 4 (s.slotSvn false s.aldeah.slotB))
  | 3 => some (s.slotDigest false s.directory.fallback)
  | 4 => some (sha256 (((List.range 4).flatMap fun f => leBytes 4 (s.setting f)) ++ s.otp.bytes 0xC0 4))
  | 5 => some (match s.aldeah.settings with
      | some bs => sha256 bs
      | none => List.replicate 32 0)
  | 6 => some [BitVec.ofNat 8 (b2n s.aldeah.unlocked)]
  | 7 => some (Config.mapsDigest s.journalImage)
  | _ => if 16 ≤ i && i < 16 + s.units then some (s.slotDigest true (s.partUcode (i - 16))) else none

/-- Whether a path is given a measurement. -/
def maySee (path : MgmtPath) (i : Nat) : Bool :=
  match path with
  | .inBand (.vf n) => (decide (1 ≤ i) && decide (i ≤ 7)) || decide (i = 15 + n)
  | _ => true

/-- An SPDM answer: its payload, or an error. -/
def State.spdmAnswer (s : State) (path : MgmtPath) : SpdmRequest → List Byte
  | .getCertificate => if Config.certificateMatches then Config.certificateChain else []
  | .challenge nonce => nonce ++ Config.identitySign nonce
  | .getMeasurement i => match s.measurement i with
    | some m => if maySee path i then m ++ Config.identitySign m else [0x7F]
    | none => [0x7F]
  | .keyExchange data => Config.keyShare s.free data

/-- SPDM_REQUEST (R416). -/
def execSpdmRequest (path : MgmtPath) (request : SpdmRequest) (s : State) : Result :=
  if s.aldeah.up && s.pathOpen path then
    done (s.tick.modAldeah fun a => { a with sent := a.sent ++ [(path, s.spdmAnswer path request)] })
  else done s

/-! ## Restarts (R406, R407) -/

/-- 10 minutes in MCLK cycles of 337.5 MHz. -/
def tenMinutes : Nat := 202500000000

/-- The resets by watchdog or ECC of the last 10 minutes, with one more. -/
def State.recentResets (s : State) : List Nat :=
  let now := s.landing.mclk.toNat
  now :: s.aldeah.resets.filter fun t => decide (now < t + tenMinutes)

/-- After three such resets the boot ROM starts the fallback slot, where BOOT_POLICY allows it (R406). -/
def State.switchSlot (s : State) : State :=
  let l := s.recentResets
  let b := s.directory.fallback
  if 3 ≤ l.length && s.setting 3 % 2 = 1 && s.slotVerifies false b then
    ((s.modAldeah fun a => { a with resets := [], slotB := b }).setRegBit Off.gstat 26 true).setRegBit Off.gstat 27 b
  else s.modAldeah fun a => { a with resets := l }

/-- The processor resets: what it was doing is lost, and nothing else. -/
def State.resetAldeah (s : State) (cause : AldeahCause) : State :=
  if !s.aldeah.up then s
  else
    let s := match s.aldeah.ucode with
      | some u => s.modPart u.part fun d => { d with ucodeHold := false }
      | none => s
    let s := s.modAldeah fun a => { a with
      up := false, req := none, rsp := none, queue := [], nonce := none, update := none, ucode := none, cause := some cause }
    let s := (s.setDown true).setRegBit (mboxBase + Off.mbxStat) 31 false
    if cause = .request then s else s.switchSlot

/-- ALDEAH_RESET (R406, R407). -/
def execAldeahReset (cause : AldeahCause) (s : State) : Result := done (s.resetAldeah cause)

/-- ALDEAH_WATCHDOG (R406): the firmware has not serviced the watchdog for 500 ms. -/
def execAldeahWatchdog (s : State) : Result := done (s.resetAldeah .watchdog)

/-- The number of a cause in an ALDEAH_RESET entry. -/
def causeCode : AldeahCause → Nat
  | .watchdog => 0 | .ecc => 1 | .request => 2

/-- The new image has taken over (R413, step 3): the directory names it, and the activation ends. -/
def State.takeOver (s : State) : State :=
  let old := s.directory.active
  let s := s.writeDirectory { s.directory with active := !old, fallback := old }
  let s := (s.logUpdate false old (!old) .ok).setRegBit Off.gstat 27 (!old)
  let s := if s.aldeah.update = some false then s.respond .ok [] else s
  s.modAldeah fun a => { a with handover := false, update := none }

/-- What waited for Aldeah is logged: its restart, the hardware events in their queue, and how many were lost (R407). -/
def State.catchUp (s : State) : State :=
  let s := match s.aldeah.cause with
    | some c => s.logEntry 8 (logBody [causeCode c]) false
    | none => s
  let s := s.modAldeah fun a => { a with cause := none }
  let s := s.landing.waiting.foldl State.aldeahTakes s
  let s := if s.landing.recordsLost = 0 then s else s.logEntry 7 (logBody [s.landing.recordsLost]) false
  s.modLanding fun l => { l with waiting := [], recordsLost := 0 }

/-- ALDEAH_RESTART_DONE (R407, R413): the firmware runs again. -/
def execAldeahRestartDone (s : State) : Result :=
  if s.aldeah.up || !s.mod.modPg || !s.regBit Off.gstat 24 then done s
  else
    let s := if s.aldeah.handover then s.takeOver else s
    done (((s.modAldeah fun a => { a with up := true }).setDown false).catchUp)

end Sys2Proof.Machine
end

