-- ==== Sys2Proof/Machine/CupolaOps.lean ====
section
/-! DEFINITION. The Cupolas' events (R23, R24, R161, R465): scratch granules, scratch accesses and evictions; and the
change of a home group's ACLK ratio (R27). -/

namespace Sys2Proof.Machine

/-- Whether a change of a granule's assignment is accepted (R24). -/
def State.granuleOk (s : State) (k : Nat) (scratch : Bool) (part : Nat) : Bool :=
  let g := s.granule k
  !g.busy && (!g.scratch || decide ((s.part g.part).state = .disabled)) &&
  (!scratch || (decide (part < s.units) && decide ((s.part part).state = .disabled) && s.onSpire part (k / 16)))

/-- The lines of Cupola `q` that lie in the storage of its granule `k`, a cache granule: which ones is free, but those that
stay fit the other cache granules, so that with no other all of them do (DESIGN CHOICE, log 14). -/
def State.storedLines (s : State) (k q : Nat) : List Line :=
  let here (x : Line × Nat) : Bool := decide (s.draw 10 x.2 % 16 = k % 16)
  let l := (s.cupola q).zipIdx
  ((l.filter here) ++ (l.filter fun x => !here x).drop (s.cacheLines q - granuleBytes / 256)).map (·.1)

/-- A granule leaves the cache: the dirty lines in its storage are written back and every line there is dropped. -/
def State.leaveCache (s : State) (k : Nat) : State :=
  let q := k / 16
  ((s.storedLines k q).foldl (fun s l => (s.cleanLine q l.part l.addr).dropLine q l.part l.addr) s).tick

/-- A PF write to CUP_GRANk. -/
def State.writeGranule (s : State) (k v : Nat) : State :=
  let g := s.granule k
  let g := if nbit v 29 then { g with err := false } else g
  let s := s.setGranule k g
  let scratch := nbit v 31
  let part := field v 0 4
  if scratch = g.scratch && part = g.part then s
  else if !s.granuleOk k scratch part then s.setGranule k { g with err := true }
  else
    let s := if g.scratch then s else s.leaveCache k
    s.setGranule k { g with busy := true, next := some (scratch, part) }

/-- CUP_GRAN_WRITE (R24): a change of a granule's assignment is refused with ASSIGN_ERR, or starts. -/
def execCupGranWrite (fn : Fn) (k : Nat) (value : Word) (s : State) : Result :=
  done (s.onWrite fn (Off.cupGran + 4 * k) fun s => s.writeGranule k value.toNat)

/-- GRANULE_CHANGE_DONE (R24): the granule is zero and takes its new assignment. -/
def execGranuleChangeDone (k : Nat) (s : State) : Result :=
  if !s.runs then done s else
  let g := s.granule k
  match g.next with
  | some (scratch, part) =>
    let s := { s with scratch := s.scratch.fill (scratchWord k 0) (granuleBytes / 32) (.good 0) }
    done (s.setGranule k { g with scratch := scratch, part := part, busy := false, next := none })
  | none => done s

/-- An access of word `word` of a scratch granule at the Cupola controller (R465). -/
def State.accessScratch (s : State) (granule word : Nat) (access : WordAccess) (upset : Upset) : State :=
  let g := s.granule granule
  match access with
  | .read => (s.readScratch g.part granule (32 * word) upset).1
  | .write bytes poison => s.writeScratch granule (32 * word) (Memory.setBytes [] 0 bytes) poison
  | .narrow off bytes => s.narrowScratch g.part granule (32 * word + off) bytes upset

/-- CUPOLA_EVICTION (R161, R270): a Cupola drops the line at an address, writing it back if it is dirty. -/
def execCupolaEviction (spire part line : Nat) (s : State) : Result :=
  if !s.runs then done s else
  let la := lineAddr line
  done ((s.cleanLine spire part la).dropLine spire part la)

/-! ## ACLK ratios (R27) -/

/-- Whether every home core of a group is between commands: none holds a task. -/
def State.betweenCommands (s : State) (g : Nat) : Bool :=
  (List.range 24).all fun i => (s.core (24 * g + i)).task.isNone

/-- Whether the governor's policy asks for a ratio: RATIO, or with AUTO_RATIO one step slower after four epochs with a core
held, one step faster after 64 without (R328). -/
def State.wantsRatio (s : State) (g r : Nat) : Bool :=
  let a := govBase + Off.govGrpCfg + 4 * g
  let x := s.group g
  if s.regBit a 4 then
    (decide (r = x.ratio + 1) && decide (4 ≤ x.heldRun)) || (decide (r + 1 = x.ratio) && decide (64 ≤ x.clearRun))
  else decide (r = s.regField a 5 2)

/-- RATIO_CHANGE_REQUEST (R27, R328): the governor requests the change and holds the group's dispatch, so that its cores come to
be between commands. -/
def execRatioChangeRequest (group : Nat) (ratio : BitVec 2) (s : State) : Result :=
  if !s.runs then done s else
  let g := s.group group
  if ratio = 3 || g.ratioNext.isSome || decide (g.ratio = ratio.toNat) || !s.wantsRatio group ratio.toNat then done s
  else done (s.setGroup group { g with ratioNext := some ratio.toNat, dispatchHeld := true, heldRun := 0, clearRun := 0 })

/-- RATIO_CHANGE_DONE (R27): once every core of the group is between commands, the new ratio comes into effect and dispatch to
the group resumes. -/
def execRatioChangeDone (group : Nat) (s : State) : Result :=
  if !s.runs then done s else
  let g := s.group group
  match g.ratioNext, s.betweenCommands group with
  | some r, true => done (s.setGroup group { g with ratio := r, ratioNext := none, dispatchHeld := false })
  | _, _ => done s

end Sys2Proof.Machine
end

