-- ==== Sys2Proof/Machine/Issue.lean ====
section
/-! DEFINITION. The issue of a long word (R84 to R88): illegal encodings, the traps taken at issue, what makes a long word
wait, and the effects of its slots together. -/

namespace Sys2Proof.Machine

/-! ## Registers and queue ends that slots name -/

/-- Registers that an S slot writes. -/
def sDests : SSlot → List Nat
  | .alu _ rd _ _ | .aluImm _ rd _ _ | .lui rd _ | .load _ rd _ _ | .jal rd _ | .jalr rd _ _ | .csr _ rd _ _ => [rd.toNat]
  | .store .. | .branch .. | .endTask | .tret _ | .icinv .. => []

/-- Registers that an S slot reads. -/
def sSources : SSlot → List Nat
  | .alu _ _ ra rb => [ra.toNat, rb.toNat]
  | .aluImm _ _ ra _ | .load _ _ ra _ | .jalr _ ra _ => [ra.toNat]
  | .store _ rv ra _ => [rv.toNat, ra.toNat]
  | .branch _ ra rb _ => [ra.toNat, rb.toNat]
  | .csr op _ ra _ => if op = .csrr then [] else [ra.toNat]
  | .icinv ra rb => [ra.toNat, ra.toNat + 1, rb.toNat]
  | .lui .. | .jal .. | .endTask | .tret _ => []

/-- Registers that a Q slot writes. -/
def qDests : QSlot → List Nat
  | .tpop _ _ rd => [rd.toNat]
  | _ => []

/-- Registers that a Q slot reads. -/
def qSources : QSlot → List Nat
  | .bind _ kind _ _ param rb =>
    rb.toNat :: (if kind = 6 || kind = 7 then [param.toNat, param.toNat + 1, param.toNat + 2] else [])
  | .tpush _ ra _ _ | .tpop _ ra _ => [ra.toNat]
  | .qlive ra rb => [ra.toNat, rb.toNat]
  | _ => []

/-- A register or a value pair. -/
def regsOf (r : BitVec 5) (two : Bool) : List Nat := if two then [r.toNat, r.toNat + 1] else [r.toNat]

/-- Registers that a D slot writes. -/
def dDests : DSlot → List Nat
  | .fld size rd _ => regsOf rd size
  | .atom size _ _ rd _ _ => regsOf rd size
  | _ => []

/-- Registers that a D slot reads. -/
def dSources : DSlot → List Nat
  | .fld _ _ ra => regsOf ra true
  | .fst size rv ra _ _ => regsOf rv size ++ regsOf ra true
  | .atom size aop _ _ ra rb =>
    regsOf ra true ++ (if aop = 4 then (if size then [rb.toNat, rb.toNat + 1, rb.toNat + 2, rb.toNat + 3]
                                        else [rb.toNat, rb.toNat + 1]) else regsOf rb size)
  | .cntwait _ ra _ | .dmak _ ra _ | .lcfg _ ra => regsOf ra true
  | .tflush _ ra rb | .tinval _ ra rb => regsOf ra true ++ [rb.toNat]
  | .start ra => [ra.toNat]
  | .fence .. | .semacq .. | .semrel .. => []

/-- Queue ends that a Q slot pops. -/
def qPops : QSlot → List Nat
  | .qmov qa _ | .qdup qa _ _ | .qdrop qa | .tpop qa _ _ => [qa.toNat]
  | _ => []

/-- Queue ends that a Q slot pushes. -/
def qPushes : QSlot → List Nat
  | .qmov _ qb | .tpush qb _ _ _ => [qb.toNat]
  | .qdup _ qb qc => [qb.toNat, qc.toNat]
  | _ => []

/-- Queue ends whose heads a V slot reads, with KEEP (R150). -/
def vReads (v : VSlot) : List (Nat × Bool) :=
  (v.qa.toNat, v.keepA) :: if usesB v.op then [(v.qb.toNat, v.keepB)] else []

/-- Queue ends whose heads an M slot reads, with KEEP. -/
def mReads (m : MSlot) : List (Nat × Bool) :=
  match m.op with
  | .mmac => [(m.qa.toNat, m.keepA), (m.qb.toNat, m.keepB)]
  | .mlda | .mtr => [(m.qa.toNat, m.keepA)]
  | .mdrain | .mzero => []

/-- Queue ends that an M slot pushes. -/
def mPushes (m : MSlot) : List Nat :=
  match m.op with
  | .mdrain | .mtr => [m.qc.toNat]
  | _ => []

/-- A list of an optional slot. -/
def slotList {α β : Type} (x : Option α) (f : α → List β) : List β :=
  match x with
  | some a => f a
  | none => []

/-- The effect of a slot that may be absent. -/
def onSlot {α β : Type} (x : Option α) (f : β → α → β) (b : β) : β :=
  match x with
  | some a => f b a
  | none => b

/-- The registers that each slot writes, s0 left out, with the slot's bit (Table 03-8). -/
def wordDests (w : LongWord) : List (Nat × Nat) :=
  let tag (b : Nat) (l : List Nat) : List (Nat × Nat) := (l.filter (· ≠ 0)).map fun r => (b, r)
  tag 0 (slotList w.s sDests) ++ tag 1 (slotList w.q qDests) ++ tag 2 (slotList w.d dDests)

/-- The registers that a long word reads. -/
def wordSources (w : LongWord) : List Nat :=
  slotList w.s sSources ++ slotList w.q qSources ++ slotList w.d dSources ++
  slotList w.v (fun v => if usesSr v.op then [v.sr.toNat] else []) ++ slotList w.t (fun t => [t.rp.toNat])

/-- The queue ends that each slot pops or keeps, with the slot's bit; one slot counts an end once. -/
def wordPops (w : LongWord) : List (Nat × Nat) :=
  let tag (b : Nat) (l : List Nat) : List (Nat × Nat) := l.dedup.map fun q => (b, q)
  tag 1 (slotList w.q qPops) ++ tag 3 (slotList w.v fun v => (vReads v).map (·.1)) ++
  tag 4 (slotList w.m fun m => (mReads m).map (·.1))

/-- The queue ends that each slot pushes, with the slot's bit. -/
def wordPushes (w : LongWord) : List (Nat × Nat) :=
  let tag (b : Nat) (l : List Nat) : List (Nat × Nat) := l.dedup.map fun q => (b, q)
  tag 1 (slotList w.q qPushes) ++ tag 3 (slotList w.v fun v => [v.qd.toNat]) ++ tag 4 (slotList w.m mPushes)

/-- Every queue end that a long word names. -/
def wordEnds (w : LongWord) : List Nat :=
  ((wordPops w).map (·.2)) ++ ((wordPushes w).map (·.2)) ++
  slotList w.q (fun q => match q with | .bind n .. => [n.toNat] | _ => []) ++
  slotList w.t (fun t => if t.retEn then [t.qret.toNat] else [])

/-! ## Illegal encodings (R86) -/

/-- A set of slots as the SLOTS bits of TRAP_CAUSE. -/
def slotMask (l : List Nat) : Nat := (List.range 6).foldl (fun m b => m + if l.contains b then 2 ^ b else 0) 0

/-- Slots that share a resource with another slot. -/
def clashing (l : List (Nat × Nat)) : List Nat :=
  (l.filter fun x => l.any fun y => decide (x.2 = y.2) && decide (x.1 ≠ y.1)).map (·.1)

/-- Whether a register may name a pair. -/
def evenReg (r : BitVec 5) : Bool := decide (r.toNat % 2 = 0)

/-- Whether an S slot is a legal encoding (R123 to R127). -/
def sLegal (trapMode : Bool) : SSlot → Bool
  | .aluImm op _ _ imm => match op with
    | .slli | .srli | .srai => decide (imm.toNat < 32)
    | _ => true
  | .csr op _ ra i => csrExists i.toNat && (decide (op ≠ .csrr) || decide (ra = 0))
  | .tret _ => trapMode
  | .icinv ra _ => evenReg ra
  | _ => true

/-- Whether PARAM leaves the bits that a kind does not use at zero (R130). -/
def paramLegal (kind param : Nat) : Bool :=
  match kind with
  | 0 | 1 => decide (param = 0)
  | 2 | 3 => decide (param < 16)
  | 4 => true
  | 5 => decide (param < 4)
  | 6 | 7 => decide (param ≤ 28) && decide (param % 2 = 0)
  | _ => false

/-- Whether a Q slot is a legal encoding (R128 to R132). -/
def qLegal : QSlot → Bool
  | .bind _ kind fmt depthM1 param rb =>
    if kind = 15 then decide (fmt = 0) && decide (depthM1 = 0) && decide (param = 0) && decide (rb = 0)
    else decide (kind.toNat ≤ 7) && (formatOf fmt.toNat).isSome && decide (fmt ≠ 14) && paramLegal kind.toNat param.toNat
  | .qmov qa qb => decide (qa ≠ qb)
  | .qdup qa qb qc => decide (qa ≠ qb) && decide (qa ≠ qc) && decide (qb ≠ qc)
  | _ => true

/-- Whether a D slot is a legal encoding (R76, R118, R134, R135, R138). -/
def dLegal : DSlot → Bool
  | .fld size rd ra => evenReg ra && (!size || evenReg rd)
  | .fst size rv ra _ _ => evenReg ra && (!size || evenReg rv)
  | .atom size aop scope rd ra rb =>
    decide (aop.toNat ≤ 4) && decide (scope.toNat ≤ 4) && evenReg ra && (!size || evenReg rd) &&
    (if aop = 4 then decide (rb.toNat % (if size then 4 else 2) = 0) else !size || evenReg rb)
  | .fence _ scope | .semacq _ scope _ | .semrel _ scope _ => decide (scope.toNat ≤ 4)
  | .cntwait _ ra _ | .dmak _ ra _ | .tflush _ ra _ | .tinval _ ra _ | .lcfg _ ra => evenReg ra
  | .start _ => true

/-- Whether a V slot is a legal encoding (Table 04-8). -/
def vLegal (v : VSlot) : Bool :=
  decide (v.round ≠ 3) && (usesB v.op || decide (v.qb = 0)) && (usesSr v.op || decide (v.sr = 0))

/-- Whether an M slot is a legal encoding (Table 04-11). -/
def mLegal (m : MSlot) : Bool :=
  decide (m.round ≠ 3) && match m.op with
    | .mmac => decide (m.qc = 0)
    | .mdrain => decide (m.qa = 0) && decide (m.qb = 0)
    | .mzero => decide (m.qa = 0) && decide (m.qb = 0) && decide (m.qc = 0)
    | .mlda => decide (m.qb = 0) && decide (m.qc = 0)
    | .mtr => decide (m.qb = 0)

/-- Whether a tower command returns tiles (Table 04-15). -/
def returnsTiles : TCmd → Bool
  | .tattn | .tgemv | .treduce => true
  | _ => false

/-- Whether a T slot is a legal encoding (R152). -/
def tLegal (t : TSlot) : Bool :=
  decide (t.retEn = returnsTiles t.cmd) && (t.retEn || decide (t.qret = 0))

/-- Slots that make a long word illegal, or none where it is legal: the whole encoding is judged at decode. HINT 3 is at fault in
no slot, so SLOTS is 0 where it is the only fault (DESIGN CHOICE, log 155). -/
def wordIllegal (w : LongWord) (trapMode : Bool) : Option Nat :=
  let bad (b : Nat) (ok : Bool) : List Nat := if ok then [] else [b]
  let l := bad 0 (w.s.all (sLegal trapMode)) ++ bad 1 (w.q.all qLegal) ++ bad 2 (w.d.all dLegal) ++
    bad 3 (w.v.all vLegal) ++ bad 4 (w.m.all mLegal) ++ bad 5 (w.t.all tLegal) ++
    clashing (wordDests w) ++ clashing (wordPops w) ++ clashing (wordPushes w) ++ (List.range 6).filter fun b => w.reserved.getLsbD b
  if l = [] && w.hint ≠ 3 then none else some (slotMask l)

/-! ## Traps at issue -/

/-- A trap that a slot raises, with the faulting address where there is one. -/
abbrev SlotTrap := Option (Trap × Option Nat)

/-- The first trap of a list. -/
def firstTrap : List SlotTrap → SlotTrap
  | [] => none
  | some t :: _ => some t
  | none :: r => firstTrap r

/-- A bounds violation without an address unless `ok`. -/
def boundsUnless (ok : Bool) : SlotTrap := if ok then none else some (.boundsViolation, none)

/-- The judgement of a pop (R95, R99). -/
def Core.popTrap (c : Core) (n : Nat) : SlotTrap :=
  let q := c.queue n
  if !q.bound then some (.boundsViolation, none)
  else if !q.kind.corePop then some (.illegalEncoding, none)
  else boundsUnless !(decide (q.kind = .cupolaIn) && decide (q.count = 0) && decide (q.flowDone ≥ q.flowCount))

/-- The judgement of a push (R95, R99). -/
def Core.pushTrap (c : Core) (n : Nat) : SlotTrap :=
  let q := c.queue n
  if !q.bound then some (.boundsViolation, none)
  else if !q.kind.corePush then some (.illegalEncoding, none)
  else boundsUnless !(decide (q.kind = .cupolaOut) && decide (q.flowDone ≥ q.flowCount))

/-- The address of an S-slot access. -/
def Core.ea (c : Core) (ra : BitVec 5) (imm : BitVec 16) : Nat := (c.rd ra.toNat + imm.signExtend 32).toNat

/-- Bytes that a load moves. -/
def loadSize : LoadOp → Nat
  | .ldb | .ldbu => 1 | .ldh | .ldhu => 2 | .ld => 4

/-- Bytes that a store moves. -/
def storeSize : StoreOp → Nat
  | .stb => 1 | .sth => 2 | .st => 4

/-- The traps of a data-memory access (R77). -/
def dmemTrap (a n : Nat) : SlotTrap :=
  if a % n ≠ 0 then some (.alignment, some a) else if a > 0xFFFF then some (.boundsViolation, some a) else none

/-- The traps of an S slot. -/
def Core.sTrap (c : Core) : SSlot → SlotTrap
  | .load op _ ra imm => dmemTrap (c.ea ra imm) (loadSize op)
  | .store op _ ra imm => dmemTrap (c.ea ra imm) (storeSize op)
  | .icinv ra _ => boundsUnless (c.addr ra.toNat).isSome
  | _ => none

/-- The base that BIND gives a queue: from its placement register, or automatic (R129); none where there is no place. -/
def Core.bindBase (c : Core) (n rb bytes : Nat) : Option Nat :=
  if rb = 0 then c.place bytes (some n)
  else
    let v := (c.rd rb).toNat
    if v &&& 0xF0000FFF ≠ 0 then none
    else
      let a := field v 12 16 * 32
      if a + bytes ≤ tileStoreBytes && !c.hitsQueue a bytes (some n) then some a else none

/-- Tiles, stride and base of a Cupola flow (R130); none where the address pair, the count or the stride is refused. -/
def Core.flowOf (c : Core) (p : Nat) : Option (Nat × Nat × Nat) :=
  match c.addr p with
  | none => none
  | some a =>
    let v := (c.rd (p + 2)).toNat
    if field v 16 16 = 0 || field v 0 16 = 0 then none else some (a, field v 16 16, 32 * field v 0 16)

/-- Whether every byte of a range lies in scratch granules of the partition (R99). -/
def State.inScratch (s : State) (p a n : Nat) : Bool :=
  let lo := (a - 0x200000000000) / granuleBytes
  let hi := (a + n - 1 - 0x200000000000) / granuleBytes
  decide (0x200000000000 ≤ a) && decide (hi < 64) && (List.range (hi - lo + 1)).all fun i => s.ownsGranule p (lo + i)

/-- Whether a channel of a group's engine is bound by another queue end (R345). -/
def State.channelBound (s : State) (core n ch : Nat) : Bool :=
  s.cores.any fun e => decide (e.1 / 24 = core / 24) && e.2.queues.any fun q =>
    (decide (q.2.kind = .dmaIn) || decide (q.2.kind = .dmaOut)) && !q.2.bySeq && decide (q.2.param = ch) &&
    !(decide (e.1 = core) && decide (q.1 = n))

/-- The bounds checks of BIND (R90, R98, R99, R129, R345). -/
def State.bindTrap (s : State) (core : Nat) (t : Task) (n kind fmt depth param rb : Nat) : SlotTrap :=
  let c := s.core core
  match bindOf kind, formatOf fmt with
  | some .unbound, _ => none
  | some k, some f =>
    let place := (c.bindBase n rb (depth * tileBytes f)).isSome
    let here := match k with
      | .dmaIn | .dmaOut => !s.channelBound core n param
      | .neighbourOut => match s.neighbour core (param / 32) with
        | some p => s.inCoreSet t.part t.job p
        | none => false
      | .neighbourIn => match s.neighbour core param with
        | some p => s.inCoreSet t.part t.job p
        | none => false
      | .cupolaIn | .cupolaOut => match c.flowOf param with
        | some (a, cnt, stride) => s.inScratch t.part a ((cnt - 1) * stride + tileBytes f)
        | none => false
      | _ => true
    boundsUnless (place && here)
  | _, _ => none

/-- Whether TPUSH or TPOP may use `n` bytes at a tile-store offset (R132). -/
def Core.storeOk (c : Core) (a n : Nat) : Bool :=
  decide (a % 32 = 0) && decide (a + n ≤ tileStoreBytes) && !c.hitsQueue a n none

/-- The traps of a Q slot. A range of QLIVE that is not of whole 32-byte units is refused as one outside the tile store is: R133
states the units and names no consequence (DESIGN CHOICE, log 154). -/
def State.qTrap (s : State) (core : Nat) (t : Task) : QSlot → SlotTrap
  | .bind n kind fmt depthM1 param rb =>
    s.bindTrap core t n.toNat kind.toNat fmt.toNat (depthM1.toNat + 1) param.toNat rb.toNat
  | .qmov qa qb =>
    let c := s.core core
    firstTrap [c.popTrap qa.toNat, c.pushTrap qb.toNat,
      boundsUnless (decide ((c.queue qa.toNat).fmt = (c.queue qb.toNat).fmt))]
  | .qdup qa qb qc =>
    let c := s.core core
    firstTrap [c.popTrap qa.toNat, c.pushTrap qb.toNat, c.pushTrap qc.toNat,
      boundsUnless (decide ((c.queue qa.toNat).fmt = (c.queue qb.toNat).fmt) &&
        decide ((c.queue qa.toNat).fmt = (c.queue qc.toNat).fmt))]
  | .qdrop qa => (s.core core).popTrap qa.toNat
  | .tpush qb ra _ _ =>
    let c := s.core core
    firstTrap [c.pushTrap qb.toNat,
      boundsUnless (c.storeOk (c.rd ra.toNat).toNat (tileBytes (c.queue qb.toNat).fmt))]
  | .tpop qa ra _ =>
    let c := s.core core
    firstTrap [c.popTrap qa.toNat,
      boundsUnless (c.storeOk (c.rd ra.toNat).toNat (tileBytes (c.queue qa.toNat).fmt))]
  | .qlive ra rb =>
    let c := s.core core
    let a := (c.rd ra.toNat).toNat
    let n := (c.rd rb.toNat).toNat
    boundsUnless (decide (n = 0) ||
      (decide (a % 32 = 0) && decide (n % 32 = 0) && decide (a + n ≤ tileStoreBytes) &&
        (c.live.contains (a, n) || decide (c.live.length < 8))))

/-- Whether an address is in the remote region. -/
def State.isRemote (s : State) (p a : Nat) : Option Nat :=
  match s.region p a with
  | .remote off => if off < 0x200000000000 then some off else none
  | _ => none

/-- Consult the regions and the frame table for a core's access at issue (R136, R161): the state after what is logged and
woken, and whether the access is admitted. -/
def State.probe (s : State) (core p a : Nat) (write : Bool) : State × Bool :=
  match s.region p a with
  | .scratch _ _ => (s, true)
  | .remote off => (s, decide (off < 0x200000000000) && s.outEn p)
  | .hashed | .banked _ _ => match s.placeOf p a with
    | some pl => s.admitAccess (.core core) p a pl write false
    | none => (s, false)
  | _ => (s, false)

/-- The traps of a far access (R76, R136). -/
def State.farTrap (s : State) (core p ra n : Nat) (write : Bool) : State × SlotTrap :=
  match (s.core core).addr ra with
  | none => (s, some (.boundsViolation, none))
  | some a =>
    if a % n ≠ 0 then (s, some (.alignment, some a))
    else match s.probe core p a write with
      | (s, true) => (s, none)
      | (s, false) => (s, some (.boundsViolation, some a))

/-- The traps of TFLUSH and TINVAL (R140). -/
def State.rangeTrap (s : State) (core p ra rb : Nat) : SlotTrap :=
  match (s.core core).addr ra with
  | none => some (.boundsViolation, none)
  | some a =>
    let n := ((s.core core).rd rb).toNat
    if n = 0 || (s.isHashed p (lineAddr a) && s.isHashed p (a + n - 1)) then none else some (.boundsViolation, some a)

/-- Whether a channel belongs to a job (R141, R299): bits [14:0] of PJOB_DMA. -/
def State.jobHolds (s : State) (p j ch : Nat) : Bool :=
  decide (ch < 15) && nbit (s.reg (jobBase p j + Off.pjobDma)) ch

/-- The traps of a D slot; a far access consults the frame table. -/
def State.dTrap (s : State) (core : Nat) (t : Task) : DSlot → State × SlotTrap
  | .fld size _ ra => s.farTrap core t.part ra.toNat (if size then 8 else 4) false
  | .fst size _ ra _ _ => s.farTrap core t.part ra.toNat (if size then 8 else 4) true
  | .atom size _ _ _ ra _ => s.farTrap core t.part ra.toNat (if size then 8 else 4) true
  | .dmak _ ra ch => (s, boundsUnless (((s.core core).addr ra.toNat).isSome && s.jobHolds t.part t.job ch.toNat))
  | .tflush _ ra rb | .tinval _ ra rb => (s, s.rangeTrap core t.part ra.toNat rb.toNat)
  | .lcfg _ ra => (s, match (s.core core).addr ra.toNat with
      | none => some (.boundsViolation, none)
      | some a => if a % 64 ≠ 0 then some (.alignment, some a) else none)
  | _ => (s, none)

/-- The traps of a V slot. -/
def Core.vTrap (c : Core) (v : VSlot) : SlotTrap :=
  firstTrap (((vReads v).map fun x => c.popTrap x.1) ++ [c.pushTrap v.qd.toNat])

/-- The traps of an M slot (R147, R149). -/
def Core.mTrap (c : Core) (m : MSlot) : SlotTrap :=
  let f (q : BitVec 5) : Format := (c.queue q.toNat).fmt
  firstTrap (((mReads m).map fun x => c.popTrap x.1) ++ ((mPushes m).map c.pushTrap) ++
    [match m.op with
      | .mmac => if macOk (f m.qa) (f m.qb) then none else some (.illegalEncoding, none)
      | .mtr => boundsUnless (decide (f m.qa = f m.qc))
      | _ => none])

/-- The traps of a T slot (R152, R153). -/
def Core.tTrap (c : Core) (t : TSlot) : SlotTrap :=
  let a := (c.rd t.rp.toNat).toNat
  if a % 64 ≠ 0 then some (.alignment, some a)
  else if a > 0xFFC0 then some (.boundsViolation, some a)
  else boundsUnless (!t.retEn || decide ((c.queue t.qret.toNat).kind = .towerReturn))

/-- The trap of a slot that may be absent. -/
def slotTrap {α : Type} (x : Option α) (f : α → SlotTrap) : SlotTrap :=
  match x with
  | some a => f a
  | none => none

/-- The trap that a long word takes at issue: that of its first slot at fault, with the slots that share the cause. -/
def State.issueTrap (s : State) (w : LongWord) (t : Task) : State × Option (Trap × Nat × Option Nat) :=
  let c := s.core w.core
  let ts := slotTrap w.s c.sTrap
  let tq := slotTrap w.q (s.qTrap w.core t)
  let (s, td) := match w.d with
    | some d => s.dTrap w.core t d
    | none => (s, none)
  let all := [(0, ts), (1, tq), (2, td), (3, slotTrap w.v c.vTrap), (4, slotTrap w.m c.mTrap), (5, slotTrap w.t c.tTrap)]
  match firstTrap (all.map (·.2)) with
  | none => (s, none)
  | some (tr, a) =>
    let at_ := all.filter fun x => match x.2 with
      | some y => decide (y.1 = tr)
      | none => false
    (s, some (tr, slotMask (at_.map (·.1)), a))

/-! ## What a long word waits for (R84) -/

/-- Registers that an interlocked operation has still to write (R119). -/
def Core.pendingRegs (c : Core) : List Nat :=
  c.inflight.flatMap fun x => match x.op with
    | .fld n rd _ _ => if n = 8 then [rd, rd + 1] else [rd]
    | .atom a _ rd _ _ => if a.size = 8 then [rd, rd + 1] else [rd]
    | _ => []

/-- Whether the running slice owns a queue end (R108). -/
def Core.seqOwns (c : Core) (n : Nat) : Bool := c.seq.run.isSome && (c.queue n).bySeq

/-- What must be waited for before a long word is judged: flags, registers, the sequencer (R84, R106, R108, R119). -/
def Core.earlyStall (c : Core) (w : LongWord) : Option StallReason :=
  let seqWord := match w.d with
    | some (.lcfg ..) | some (.start _) => true
    | _ => false
  if !c.waitReady w.wait then some .flags
  else if c.pendingRegs.any fun r => decide (r ≠ 0) && ((wordSources w).contains r || (wordDests w).any fun d => decide (d.2 = r)) then
    some .register
  else if c.seq.run.isSome && (w.m.isSome || seqWord || (wordEnds w).any c.seqOwns) then some .sequencer
  else none

/-- Whether the flow of a queue is still running (R96). -/
def State.flowRuns (s : State) (core : Nat) (q : Queue) (n : Nat) : Bool :=
  let g := Config.groupOfCore core
  match q.kind with
  | .cupolaIn => decide (q.flowDone < q.flowCount)
  | .cupolaOut => decide (q.flowWritten < q.flowDone)
  | .dmaIn | .dmaOut => match (s.chan g q.param).state, (s.chan g q.param).desc with
    | .idle, _ | .halted, _ => false
    | _, some d => decide (d.mode ≥ 2)
    | _, none => false
  | .towerReturn =>
    let mine (c : TowerCmd) : Bool := c.retEn && decide (c.core = core) && decide (c.qret = n)
    (s.tower g).queue.any mine || (s.tower g).running.any fun r => mine r.cmd && !r.dropTiles
  | _ => false

/-- Whether a queue end waits before it can be bound again. -/
def State.bindWaits (s : State) (core n : Nat) : Bool :=
  let q := (s.core core).queue n
  q.bound && (decide (q.count ≠ 0) || s.flowRuns core q n)

/-- What a long word that raises no trap waits for: queue ends, a channel, the tower's queue (R84, R96, R100, R141). -/
def State.lateStall (s : State) (w : LongWord) : Option StallReason :=
  let c := s.core w.core
  let g := Config.groupOfCore w.core
  let empty := ((wordPops w).map (·.2)).filter fun n => decide ((c.queue n).count = 0)
  let full := ((wordPushes w).map (·.2)).filter fun n => !(c.queue n).room
  let bound := slotList w.q fun q => match q with
    | .bind n .. => if s.bindWaits w.core n.toNat then [n.toNat] else []
    | _ => []
  let seqEnds := match w.d with
    | some (.start ra) =>
      if c.seq.starts (c.rd ra.toNat).toNat then c.seq.qspecEnds.filter fun n => s.bindWaits w.core n else []
    | _ => []
  let ends := empty ++ full ++ bound ++ seqEnds
  let busy := match w.d with
    | some (.dmak _ _ ch) => match (s.chan g ch.toNat).state with
      | .idle | .halted => none
      | _ => some ch.toNat
    | _ => none
  let len := longWordLen w
  let at_ := (((wordPops w).filter fun x => empty.contains x.2) ++ ((wordPushes w).filter fun x => full.contains x.2)).map (·.1)
  let slots := slotMask (at_ ++ (if bound = [] then [] else [1]) ++ (if seqEnds = [] then [] else [2]))
  if ends ≠ [] then some (.queue ends slots len)
  else match busy with
    | some ch => some (.channel ch (slotMask [2]) len)
    | none => if w.t.isSome && decide ((s.tower g).queue.length ≥ 64) then some .tower else none

/-! ## Effects -/

/-- Register-register operations (Table 04-2). -/
def aluOp (op : AluOp) (a b : Word) : Word :=
  match op with
  | .add => a + b
  | .sub => a - b
  | .and => a &&& b
  | .or => a ||| b
  | .xor => a ^^^ b
  | .sll => a <<< (b.toNat % 32)
  | .srl => a >>> (b.toNat % 32)
  | .sra => a.sshiftRight (b.toNat % 32)
  | .slt => if a.slt b then 1 else 0
  | .sltu => if a.ult b then 1 else 0
  | .mul => a * b
  | .mulhu => BitVec.ofNat 32 (a.toNat * b.toNat / 2 ^ 32)
  | .mulh => BitVec.ofInt 32 (a.toInt * b.toInt / 2 ^ 32)

/-- Register-immediate operations (Table 04-2). -/
def aluImmOp (op : AluImmOp) (a : Word) (imm : BitVec 16) : Word :=
  match op with
  | .addi => a + imm.signExtend 32
  | .andi => a &&& imm.zeroExtend 32
  | .ori => a ||| imm.zeroExtend 32
  | .xori => a ^^^ imm.zeroExtend 32
  | .slli => a <<< (imm.toNat % 32)
  | .srli => a >>> (imm.toNat % 32)
  | .srai => a.sshiftRight (imm.toNat % 32)
  | .slti => if a.slt (imm.signExtend 32) then 1 else 0

/-- A load from data memory (Table 04-2). -/
def loadVal (op : LoadOp) (m : Memory) (a : Nat) : Word :=
  match op with
  | .ldb => (m.get a).signExtend 32
  | .ldbu => (m.get a).zeroExtend 32
  | .ldh => (BitVec.ofNat 16 (m.num a 2)).signExtend 32
  | .ldhu => BitVec.ofNat 32 (m.num a 2)
  | .ld => BitVec.ofNat 32 (m.num a 4)

/-- Drop the instruction-cache lines that overlap `n` bytes from `a` (R127). -/
def icinvLines (l : List (Nat × LineState)) (a n : Nat) : List (Nat × LineState) :=
  if n = 0 then l else l.filter fun e => !(decide (a / 128 ≤ e.1) && decide (e.1 ≤ (a + n - 1) / 128))

/-- The effect of an S slot on core `c`: registers are read in `c0`, the core before issue; `csr` reads a CSR there;
`next` is the PC of the next long word. -/
def sEffect (c0 : Core) (csr : Nat → Word) (next : Word) (c : Core) : SSlot → Core
  | .alu op rd ra rb => c.wr rd.toNat (aluOp op (c0.rd ra.toNat) (c0.rd rb.toNat))
  | .aluImm op rd ra imm => c.wr rd.toNat (aluImmOp op (c0.rd ra.toNat) imm)
  | .lui rd imm => c.wr rd.toNat (imm.zeroExtend 32 <<< 16)
  | .load op rd ra imm => c.wr rd.toNat (loadVal op c0.dmem (c0.ea ra imm))
  | .store op rv ra imm =>
    { c with dmem := c.dmem.setNum (c0.ea ra imm) (storeSize op) (c0.rd rv.toNat).toNat }
  | .branch op ra rb off =>
    if branchTaken op (c0.rd ra.toNat) (c0.rd rb.toNat) then { c with pc := c0.pc + off.signExtend 32 } else c
  | .jal rd off => { (c.wr rd.toNat next) with pc := c0.pc + off.signExtend 32 }
  | .jalr rd ra imm => { (c.wr rd.toNat next) with pc := c0.rd ra.toNat + imm.signExtend 32 }
  | .csr op rd ra i =>
    let c := (c.wr rd.toNat (csr i.toNat)).csrLatch i.toNat
    match op with
    | .csrr => c
    | .csrw => c.csrWrite i.toNat (c0.rd ra.toNat)
    | .csrs => c.csrSet i.toNat (c0.rd ra.toNat)
    | .csrc => c.csrClear i.toNat (c0.rd ra.toNat)
  | .endTask => { c with ending := true }
  | .tret skip => { c with trapMode := false, pc := if skip then c0.trapPc + BitVec.ofNat 32 c0.trapLen else c0.trapPc }
  | .icinv ra rb => { c with icache := icinvLines c.icache ((c0.addr ra.toNat).getD 0) (c0.rd rb.toNat).toNat }

/-- The pops of a long word: each end popped once (R92). -/
def popEnds (w : LongWord) (c : Core) : Core :=
  let v := slotList w.v fun v => ((vReads v).filter fun x => !x.2).map (·.1)
  let m := slotList w.m fun m => ((mReads m).filter fun x => !x.2).map (·.1)
  (slotList w.q qPops ++ v ++ m).dedup.foldl Core.pop c

/-- A live set with a range added (R131, R133). -/
def addLive (l : List (Nat × Nat)) (a n : Nat) : List (Nat × Nat) :=
  if n = 0 then (if a = 0 then [] else l) else if l.contains (a, n) then l else l ++ [(a, n)]

/-- The effect of a Q slot other than BIND. -/
def qEffect (c0 c : Core) : QSlot → Core
  | .bind .. => c
  | .qmov qa qb => let t := c0.headTile qa.toNat; c.push qb.toNat t.data t.tag
  | .qdup qa qb qc =>
    let t := c0.headTile qa.toNat
    (c.push qb.toNat t.data t.tag).push qc.toNat t.data t.tag
  | .qdrop _ => c
  | .tpush qb ra rowsM1 colsM1 =>
    let f := (c0.queue qb.toNat).fmt
    let t := c0.tiles.slice (c0.rd ra.toNat).toNat (tileBytes f)
    c.push qb.toNat (shapeTile f t (rowsM1.toNat + 1) (colsM1.toNat + 1)) (mkTag false false (rowsM1.toNat + 1) (colsM1.toNat + 1))
  | .tpop qa ra rd =>
    let t := c0.headTile qa.toNat
    { (c.wr rd.toNat t.tag) with tiles := c.tiles.paste (c0.rd ra.toNat).toNat (tileBytes t.fmt) t.data }
  | .qlive ra rb => { c with live := addLive c.live (c0.rd ra.toNat).toNat (c0.rd rb.toNat).toNat }

/-- A queue end dropped from the marks of releases under way: its flow has stopped. -/
def dropMarks (n : Nat) (l : List InFlight) : List InFlight :=
  l.map fun x => match x.op with
    | .fence sc m => { x with op := .fence sc (m.filter fun e => decide (e.1 ≠ n)) }
    | .semrel i sc m => { x with op := .semrel i sc (m.filter fun e => decide (e.1 ≠ n)) }
    | _ => x

/-- BIND (R94, R128): the queue end takes its new binding, empty. -/
def State.bindEffect (s : State) (core : Nat) (c0 : Core) (n kind fmt depth param rb : Nat) : State :=
  s.modCore core fun c =>
    let c := { c with inflight := dropMarks n c.inflight }
    match bindOf kind, formatOf fmt with
    | some .unbound, _ => c.setQueue n {}
    | some k, some f =>
      let base := (c0.bindBase n rb (depth * tileBytes f)).getD 0
      let q : Queue := { kind := k, fmt := f, depth := depth, base := base, param := param }
      c.setQueue n (match k with
        | .neighbourOut =>
          { q with param := param / 32, remote := param % 32, peer := (s.neighbour core (param / 32)).getD 0 }
        | .neighbourIn => { q with peer := (s.neighbour core param).getD 0 }
        | .cupolaIn | .cupolaOut => match c0.flowOf param with
          | some (a, cnt, stride) => { q with flowBase := a, flowCount := cnt, flowStride := stride }
          | none => q
        | _ => q)
    | _, _ => c

/-- The CUPOLA_OUT queues of a core with the tiles pushed to them so far. -/
def Core.outMarks (c : Core) : List (Nat × Nat) :=
  (c.queues.filter fun e => decide (e.2.kind = .cupolaOut)).map fun e => (e.1, e.2.flowDone)

/-- The flag that a FLAG field names. -/
def flagOf (f : FlagSel) : Option Nat := if f.en then some f.n.toNat else none

/-- An operation of the D slot starts (R87). -/
def Core.start (c : Core) (op : DOp) (flag : Option Nat) : Core := 
  { c with inflight := c.inflight ++ [⟨op, flag, .started, c.pushes⟩] }

/-- The operand registers of an atomic (R138). -/
def atomArgs (c0 : Core) (size : Bool) (aop : Nat) (rb : Nat) : AtomArgs :=
  let get (r : Nat) : Nat := if size then c0.pair r else (c0.rd r).toNat
  { size := if size then 8 else 4, aop := aop, value := get rb,
    new := if aop = 4 then (if size then c0.pair (rb + 2) else (c0.rd (rb + 1)).toNat) else 0 }

/-- A far operation starts: a remote one sends its request (R381 to R383). -/
def State.startFar (s : State) (core p a : Nat) (op : Option Nat → DOp) (f : Flit → Flit) : State :=
  match s.isRemote p a with
  | none => s.modCore core fun c => c.start (op none) none
  | some off =>
    let tag := s.freeTag
    (s.modCore core fun c => c.start (op (some tag)) none).sendCore core tag (f (s.remoteFlit p off))

/-- The effect of a D slot. -/
def State.dEffect (s : State) (core : Nat) (t : Task) (c0 : Core) : DSlot → State
  | .fld size rd ra =>
    let n := if size then 8 else 4
    let a := (c0.addr ra.toNat).getD 0
    s.startFar core t.part a (.fld n rd.toNat a) fun f => { f with op := 2, len := BitVec.ofNat 9 n }
  | .fst size rv ra cntEn counter =>
    let n := if size then 8 else 4
    let a := (c0.addr ra.toNat).getD 0
    let v := if size then c0.pair rv.toNat else (c0.rd rv.toNat).toNat
    s.startFar core t.part a (.fst n a v (if cntEn then some counter.toNat else none)) fun f =>
      { f with ackReq := true, op := 0, len := BitVec.ofNat 9 n, cntEn := cntEn, counter := if cntEn then counter else 0,
               payload := leBytes n v }
  | .atom size aop scope rd ra rb =>
    let a := (c0.addr ra.toNat).getD 0
    let x := atomArgs c0 size aop.toNat rb.toNat
    s.startFar core t.part a (.atom x scope.toNat rd.toNat a) fun f =>
      { f with ackReq := true, op := 3, len := BitVec.ofNat 9 x.size, aop := aop, payload := leBytes x.size x.value ++ leBytes x.size x.new }
  | .fence flag scope => s.modCore core fun c => c.start (.fence scope.toNat c0.outMarks) (flagOf flag)
  | .semacq flag scope sem =>
    (s.modCore core fun c => c.start (.semacq sem.toNat scope.toNat) (flagOf flag)).modPart t.part fun p =>
      { p with semWait := p.semWait ++ [(sem.toNat, core)] }
  | .semrel flag scope sem => s.modCore core fun c => c.start (.semrel sem.toNat scope.toNat c0.outMarks) (flagOf flag)
  | .cntwait flag ra counter => s.modCore core fun c => c.start (.cntwait counter.toNat (c0.pair ra.toNat)) (flagOf flag)
  | .dmak flag ra ch =>
    let a := (c0.addr ra.toNat).getD 0
    (s.modCore core fun c => c.start (.dmak ch.toNat a) (flagOf flag)).beginChain (Config.groupOfCore core) ch.toNat t.part a
      (.dmak core (flagOf flag) t.job)
  | .tflush flag ra rb =>
    s.modCore core fun c => c.start (.tflush ((c0.addr ra.toNat).getD 0) (c0.rd rb.toNat).toNat) (flagOf flag)
  | .tinval flag ra rb =>
    s.modCore core fun c => c.start (.tinval ((c0.addr ra.toNat).getD 0) (c0.rd rb.toNat).toNat) (flagOf flag)
  | .lcfg flag ra => s.modCore core fun c => c.start (.lcfg ((c0.addr ra.toNat).getD 0)) (flagOf flag)
  | .start ra => s.startSlice core t.part (c0.rd ra.toNat).toNat

/-- The effect of a V slot: the result of the heads before issue is pushed (R143). -/
def vEffect (c0 c : Core) (free rnd : Nat → Nat) (v : VSlot) : Core :=
  let (t, fl) := vecTile v.op (c0.headTile v.qa.toNat) (c0.headTile v.qb.toNat) (c0.rd v.sr.toNat)
    (c0.queue v.qd.toNat).fmt ((roundingOf v.round.toNat).getD .rne) v.ovf free rnd
  (c.push v.qd.toNat t.data t.tag).orFp fl

/-- The effect of an M slot (R147, R148). -/
def mEffect (c0 c : Core) (free rnd : Nat → Nat) (m : MSlot) : Core :=
  let n := m.acc.toNat
  match m.op with
  | .mmac =>
    let (b, fl) := macBank (c0.bank n) (c0.headTile m.qa.toNat) (c0.headTile m.qb.toNat) m.zero free
    (c.setBank n b).orFp fl
  | .mdrain =>
    let (t, fl) := drainTile (c0.bank n) (c0.queue m.qc.toNat).fmt ((roundingOf m.round.toNat).getD .rne) m.ovf rnd
    let c := (c.push m.qc.toNat t.data t.tag).orFp fl
    if m.zero then c.setBank n zeroBank else c
  | .mzero => c.setBank n zeroBank
  | .mlda =>
    let (b, fl) := loadBank (c0.headTile m.qa.toNat)
    (c.setBank n b).orFp fl
  | .mtr =>
    let (t, fl) := transposeTile (c0.headTile m.qa.toNat)
    (c.push m.qc.toNat t.data t.tag).orFp fl

/-- The effect of a T slot: the command enters the queue of the tower, whose group runs, with its parameter block (R151,
R153, R191). -/
def State.tEffect (s : State) (core : Nat) (t : Task) (c0 : Core) (x : TSlot) : State :=
  let g := Config.groupOfCore core
  s.modTower g fun tw => { tw with
    nextOrder := tw.nextOrder + 1,
    queue := tw.queue ++ [{
      cmd := x.cmd, params := c0.dmem.bytes (c0.rd x.rp.toNat).toNat 64, core := core, part := t.part, job := t.job,
      qret := x.qret.toNat, retEn := x.retEn, flag := flagOf x.flag, order := tw.nextOrder }] }

/-- A core as its long word issues: the flags that it waits for are cleared, and the PC names the next long word (R88). -/
def Core.advance (c : Core) (wait : BitVec 8) (next : Word) : Core := { (c.consume wait) with pc := next, stall := none }

/-- LOOP_HEAD (R83): a long word with the hint marks the text after it; one outside that text ends the keeping. A hint changes no
result. -/
def Core.keepLoop (c : Core) (w : LongWord) (base : Nat) (pc : Word) : Core :=
  let a := base + 2 * pc.toNat
  if w.hint = 1 then { c with loopHead := some (a, a + 2 * longWordLen w) }
  else match c.loopHead with
    | some (h, t) => if h ≤ a && a < t + 1024 then c else { c with loopHead := none }
    | none => c

/-- What a long word that issues makes of its core through its S, Q, V and M slots, which all read the core before issue
(R85). -/
def State.coreEffects (s : State) (w : LongWord) : Core :=
  let c0 := s.core w.core
  let next := c0.pc + BitVec.ofNat 32 (longWordLen w)
  let c := onSlot w.s (fun c x => sEffect c0 (s.csr w.core) next c x) (popEnds w (c0.advance w.wait next))
  let c := onSlot w.q (fun c x => qEffect c0 c x) c
  let c := onSlot w.v (fun c x => vEffect c0 c (s.draw 5) s.rounds x) c
  onSlot w.m (fun c x => mEffect c0 c (s.draw 7) (fun i => s.rounds (4096 + i)) x) c

/-- The effects of a long word that issues: every slot reads the state before issue (R85). -/
def State.issueEffects (s : State) (w : LongWord) (t : Task) : State :=
  let c0 := s.core w.core
  let s := (s.setCore w.core ((s.coreEffects w).keepLoop w t.codeBase c0.pc)).tick
  let s := onSlot w.d (fun s x => s.dEffect w.core t c0 x) s
  let s := onSlot w.t (fun s x => s.tEffect w.core t c0 x) s
  match w.q with
  | some (.bind n kind fmt depthM1 param rb) =>
    s.bindEffect w.core c0 n.toNat kind.toNat fmt.toNat (depthM1.toNat + 1) param.toNat rb.toNat
  | _ => s

/-! ## Issue -/

/-- The stall of a core recorded. -/
def State.stallCore (s : State) (core : Nat) (r : StallReason) : State := s.modCore core fun c => { c with stall := some r }

/-- Whether a core can issue at all: a task runs on it, it is not ending or stopped, its clock runs, and no trap of its
layer sequencer waits (R75, R111, R113, R298). -/
def State.canIssue (s : State) (core : Nat) : Bool :=
  let c := s.core core
  s.coreExists core && c.task.isSome && !c.ending && !c.halted && s.aclkRuns core && c.seq.trap.isNone

/-- A core offers the long word at its PC for issue: it traps, waits, or issues whole (R84, R86, R110). -/
def State.issue (s : State) (w : LongWord) : State :=
  if !s.canIssue w.core then s
  else match (s.core w.core).task with
  | none => s
  | some t =>
    let len := longWordLen w
    if !(s.core w.core).waitReady w.wait then s.stallCore w.core .flags
    else match s.fetch w.core len with
      | (s, .unmapped a) => s.takeTrap w.core .boundsViolation 2 0 len (some a)
      | (s, .uncorrectable a) => s.takeTrap w.core .fetchUe 2 0 len (some a)
      | (s, .ok) =>
        match wordIllegal w (s.core w.core).trapMode with
        | some m => s.takeTrap w.core .illegalEncoding 0 m len none
        | none => match (s.core w.core).earlyStall w with
          | some r => s.stallCore w.core r
          | none => match s.issueTrap w t with
            | (s, some (tr, m, a)) => s.takeTrap w.core tr 0 m len a
            | (s, none) => match s.lateStall w with
              | some r => s.stallCore w.core r
              | none => s.issueEffects w t

end Sys2Proof.Machine
end

