-- ==== Sys2Proof/Machine/FarOps.lean ====
section
/-! DEFINITION. The operations of the D slot (R134 to R141) and their completions: far loads and stores, atomics, fences,
semaphores, counters, Cupola lines and the layer configuration block. An event that names an operation in flight gives its
place in the core's list. -/

namespace Sys2Proof.Machine

/-- D-slot FLD (R134, R136, R137): a far load starts. -/
def execFld (lw : LongWord) (size : Bool) (rd ra : BitVec 5) (s : State) : Result :=
  done (s.issue { lw with d := some (.fld size rd ra) })

/-- D-slot FST (R134, R136, R137): a far store starts. -/
def execFst (lw : LongWord) (size : Bool) (rv ra : BitVec 5) (cntEn : Bool) (counter : BitVec 12) (s : State) : Result :=
  done (s.issue { lw with d := some (.fst size rv ra cntEn counter) })

/-- D-slot ATOM (R134, R138): an atomic starts. -/
def execAtom (lw : LongWord) (size : Bool) (aop scope : BitVec 3) (rd ra rb : BitVec 5) (s : State) : Result :=
  done (s.issue { lw with d := some (.atom size aop scope rd ra rb) })

/-- D-slot FENCE (R134, R271): a release of the core's earlier writes starts. -/
def execFence (lw : LongWord) (flag : FlagSel) (scope : BitVec 3) (s : State) : Result :=
  done (s.issue { lw with d := some (.fence flag scope) })

/-- D-slot SEMACQ (R134, R280): the wait for a semaphore starts. -/
def execSemacq (lw : LongWord) (flag : FlagSel) (scope : BitVec 3) (sem : BitVec 12) (s : State) : Result :=
  done (s.issue { lw with d := some (.semacq flag scope sem) })

/-- D-slot SEMREL (R134, R272): a semaphore's release starts. -/
def execSemrel (lw : LongWord) (flag : FlagSel) (scope : BitVec 3) (sem : BitVec 12) (s : State) : Result :=
  done (s.issue { lw with d := some (.semrel flag scope sem) })

/-- D-slot CNTWAIT (R134, R278): the wait for an arrival counter starts. -/
def execCntwait (lw : LongWord) (flag : FlagSel) (ra : BitVec 5) (counter : BitVec 12) (s : State) : Result :=
  done (s.issue { lw with d := some (.cntwait flag ra counter) })

/-- D-slot DMAK (R134, R141): a DMA chain starts on a channel of the home group. -/
def execDmak (lw : LongWord) (flag : FlagSel) (ra : BitVec 5) (channel : BitVec 4) (s : State) : Result :=
  done (s.issue { lw with d := some (.dmak flag ra channel) })

/-- D-slot TFLUSH (R134, R140): the write-back of Cupola lines starts. -/
def execTflush (lw : LongWord) (flag : FlagSel) (ra rb : BitVec 5) (s : State) : Result :=
  done (s.issue { lw with d := some (.tflush flag ra rb) })

/-- D-slot TINVAL (R134, R140): the drop of Cupola lines starts. -/
def execTinval (lw : LongWord) (flag : FlagSel) (ra rb : BitVec 5) (s : State) : Result :=
  done (s.issue { lw with d := some (.tinval flag ra rb) })

/-- D-slot LCFG (R134, R105): the load of a layer configuration block starts. -/
def execLcfg (lw : LongWord) (flag : FlagSel) (ra : BitVec 5) (s : State) : Result :=
  done (s.issue { lw with d := some (.lcfg flag ra) })

/-- D-slot START (R134, R107): a slice of the loaded layer starts. -/
def execStart (lw : LongWord) (ra : BitVec 5) (s : State) : Result :=
  done (s.issue { lw with d := some (.start ra) })

/-! ## Completions -/

/-- The operation in flight at a place of a core's list, with the task it belongs to. -/
def State.flying (s : State) (core index : Nat) : Option (Task × InFlight) :=
  match (s.core core).task, (s.core core).inflight[index]?, s.runs with
  | some t, some x, true => some (t, x)
  | _, _, _ => none

/-- The operation at a place completes: it leaves the list and its flag is set (R88, R89). -/
def Core.complete (c : Core) (index : Nat) : Core :=
  match c.inflight[index]? with
  | some x => { c with inflight := c.inflight.eraseIdx index }.postFlag? x.flag
  | none => c

/-- A value reaches the destination register of an operation (R118, R119). -/
def Core.deliver (c : Core) (size rd v : Nat) : Core := if size = 8 then c.wrPair rd v else c.wr rd (BitVec.ofNat 32 v)

/-- The operation at a place in the list takes a new phase. -/
def Core.setPhase (c : Core) (index : Nat) (ph : DPhase) : Core :=
  { c with inflight := c.inflight.modify index fun x => { x with phase := ph } }

/-- FLD_DONE (R137): the value arrives in its register; an uncorrectable or poisoned read faults the job. The read is performed no
later than here, and after the core's earlier accesses to the word (R267). -/
def execFldDone (core index : Nat) (s : State) : Result :=
  match s.flying core index with
  | some (t, ⟨.fld size rd addr _, _, _, _⟩) => match s.settle t.part core (index + 1) addr size with
    | none => done s
    | some s => match (s.core core).inflight[index]? with
      | some ⟨_, _, .value v, _⟩ => done (s.modCore core fun c => (c.deliver size rd v).complete index)
      | some ⟨_, _, .failed st, _⟩ => done (s.faultTask core st 0)
      | _ => done s
  | _ => done s

/-- FST_DONE (R134): the write has left the core, after its earlier accesses to the word (R268), or the answer of a remote one has
come back (R139, R384). -/
def execFstDone (core index : Nat) (s : State) : Result :=
  match s.flying core index with
  | some (t, ⟨.fst size addr _ _ tag, _, ph, _⟩) =>
    if tag.isNone then match s.settle t.part core (index + 1) addr size with
      | none => done s
      | some s => done (s.modCore core fun c => c.complete index)
    else if ph = .finished then done (s.modCore core fun c => c.complete index)
    else done s
  | _ => done s

/-- ATOMIC_PERFORM (R139): the unit that holds the word performs the atomic; a remote one is performed by its destination. -/
def execAtomicPerform (core index : Nat) (s : State) : Result :=
  match s.flying core index with
  | some (t, ⟨.atom x _ _ addr none, _, .started, _⟩) => match s.settle t.part core (index + 1) addr x.size with
    | none => done s
    | some s => done s
  | _ => done s

/-- ATOM_DONE (R137, R138): the old value arrives in RD; a failed read faults the job. -/
def execAtomDone (core index : Nat) (s : State) : Result :=
  match s.flying core index with
  | some (_, ⟨.atom x _ rd _ _, _, .value v, _⟩) => done (s.modCore core fun c => (c.deliver x.size rd v).complete index)
  | some (_, ⟨.atom _ _ _ _ _, _, .failed st, _⟩) => done (s.faultTask core st 0)
  | _ => done s

/-- Whether an earlier write of the core is performed at a scope (Table 08-3): a local one once its unit has taken it, a
remote one, for SYSTEM, once its answer has come back. -/
def performedAt (scope : Nat) (x : InFlight) : Bool :=
  match x.op with
  | .fst _ _ _ _ none | .atom _ _ _ _ none => decide (scope = 0) || decide (x.phase ≠ .started)
  | .fst _ _ _ _ (some _) | .atom _ _ _ _ (some _) => decide (scope < 4) || decide (x.phase ≠ .started)
  | _ => true

/-- Whether every write that a release covers is performed (R271, R272): the earlier operations in flight, and the tiles
pushed to CUPOLA_OUT queues before it. -/
def Core.released (c : Core) (index scope : Nat) (marks : List (Nat × Nat)) : Bool :=
  ((c.inflight.take index).all (performedAt scope)) &&
  (decide (scope = 0) || marks.all fun m => decide ((c.queue m.1).flowWritten ≥ m.2))

/-- FENCE_DONE (R271): the fence sets its flag once every earlier write is performed at its scope. -/
def execFenceDone (core index : Nat) (s : State) : Result :=
  match s.flying core index with
  | some (_, ⟨.fence scope marks, _, _, _⟩) =>
    if (s.core core).released index scope marks then done (s.modCore core fun c => c.complete index) else done s
  | _ => done s

/-- The first SEMACQ that waits on a semaphore. -/
def State.firstWait (s : State) (p sem : Nat) : Option (Nat × Nat) := (s.part p).semWait.find? fun e => decide (e.1 = sem)

/-- SEMACQ_GRANT (R280, R281): the SEMACQ that has waited longest takes the semaphore and sets its flag. -/
def execSemacqGrant (part sem : Nat) (s : State) : Result :=
  if !s.runs then done s else
  match s.firstWait part sem with
  | none => done s
  | some e => match (s.core e.2).task with
    | none => done s
    | some t =>
      if semFree (s.sem part sem) then
        let s := s.setSem part sem (semGrant (s.sem part sem) t.job)
        let s := s.modPart part fun d => { d with semWait := d.semWait.erase e }
        let isIt (x : InFlight) : Bool := match x.op with
          | .semacq n _ => decide (n = sem)
          | _ => false
        done (s.modCore e.2 fun c => match c.inflight.findIdx? isIt with
          | some i => c.complete i
          | none => c)
      else done s

/-- SEMREL_DONE (R272, R280): once the earlier writes are performed, the semaphore changes; an invalid release faults the
job with REFUSED. -/
def execSemrelDone (core index : Nat) (s : State) : Result :=
  match s.flying core index with
  | some (t, ⟨.semrel sem scope marks, _, _, _⟩) =>
    if (s.core core).released index scope marks then
      match semRelease (s.sem t.part sem) t.job with
      | none => done (s.faultTask core .refused 0)
      | some w =>
        let s := (s.setSem t.part sem w).modCore core fun c => c.complete index
        done (s.endDonation t.part t.job (some sem))
    else done s
  | _ => done s

/-- CNTWAIT_DONE (R278): the counter holds at least the value pair, compared unsigned. -/
def execCntwaitDone (core index : Nat) (s : State) : Result :=
  match s.flying core index with
  | some (t, ⟨.cntwait counter value, _, _, _⟩) =>
    if (s.counter t.part counter).toNat ≥ value then done (s.modCore core fun c => c.complete index) else done s
  | _ => done s

/-- Whether a cached line lies in a range rounded outward to hash granules (R140). -/
def inLines (p a n : Nat) (l : Line) : Bool :=
  decide (l.part = p) && decide (0 < n) && decide (lineAddr a ≤ l.addr) && decide (l.addr ≤ a + n - 1)

/-- Write back the dirty lines of a range in one Cupola, leaving them valid and clean. -/
def State.flushLines (s : State) (k p a n : Nat) : State :=
  ((s.cupola k).filter (inLines p a n)).foldl (fun s l => s.cleanLine k p l.addr) s

/-- TFLUSH_DONE (R140): every dirty line of the range in the four Cupolas is written back. -/
def execTflushDone (core index : Nat) (s : State) : Result :=
  match s.flying core index with
  | some (t, ⟨.tflush addr len, _, _, _⟩) =>
    let s := [0, 1, 2, 3].foldl (fun s k => s.flushLines k t.part addr len) s
    done (s.modCore core fun c => c.complete index)
  | _ => done s

/-- TINVAL_DONE (R140): every line of the range in the four Cupolas is dropped without being written back. -/
def execTinvalDone (core index : Nat) (s : State) : Result :=
  match s.flying core index with
  | some (t, ⟨.tinval addr len, _, _, _⟩) =>
    let s := [0, 1, 2, 3].foldl (fun s k => s.setCupola k ((s.cupola k).filter fun l => !inLines t.part addr len l)) s
    done (s.modCore core fun c => c.complete index)
  | _ => done s

/-- Whether an operation in flight is an LCFG. -/
def isLcfg (x : InFlight) : Bool :=
  match x.op with
  | .lcfg _ => true
  | _ => false

/-- LCFG_DONE (R105): the block is read and validated, LSTAT is set and the flag posted. While a slice runs the sequencer's LCB is
its own, and the LCFG waits (R106). -/
def execLcfgDone (core : Nat) (s : State) : Result :=
  match (s.core core).inflight.findIdx? isLcfg with
  | none => done s
  | some i => match s.flying core i with
    | some (t, ⟨.lcfg addr, _, _, _⟩) =>
      if (s.core core).seq.run.isSome then done s
      else match s.settle t.part core i addr 448 with
        | none => done s
        | some s => done ((s.loadLcb core t.part addr).modCore core fun c => c.complete i)
    | _ => done s

/-! ## The layer sequencer's events -/

/-- SEQUENCER_TILE (R107): one output tile, once the tower's results for it have returned. -/
def execSequencerTile (core : Nat) (s : State) : Result :=
  let c := s.core core
  match c.task, c.seq.run with
  | some t, some r => match r.tiles with
    | (b, m, n) :: _ =>
      if c.seq.trap = none && !c.halted && s.aclkRuns core && c.seq.merged r b m n then
        match s.settleBy t.part core c.inflight.length fun x => x.writes with
        | none => done s
        | some s => done (s.seqTile core t.part c.seq r b m n)
      else done s
    | [] => done s
  | _, _ => done s

/-- The status that a slice ends with (Table 03-16). -/
def SliceRun.outcome (r : SliceRun) : Status :=
  if r.status ≠ .ok then r.status else if r.poisoned then .poison else .ok

/-- SLICE_END (R107, step 6): the queues that the sequencer bound are unbound, LSTAT is set and DONE_FLAG posted. -/
def execSliceEnd (core : Nat) (s : State) : Result :=
  if !s.runs then done s else
  match (s.core core).seq.run with
  | some r =>
    if r.tiles = [] && r.groups = [] && r.issued = [] then
      done (s.modCore core fun c => { c with
        queues := c.queues.filter fun e => !e.2.bySeq,
        seq := { c.seq with run := none, status := r.outcome } }.postFlag c.seq.doneFlag)
    else done s
  | none => done s

/-- SEQUENCER_TRAP (R111): the sequencer's bounds violation is taken at the next long-word boundary. After END no long word
issues: the trap is recorded, and its handler does not run (DESIGN CHOICE, log 158). -/
def execSequencerTrap (core : Nat) (s : State) : Result :=
  let c := s.core core
  match c.seq.trap with
  | some a =>
    if c.task.isSome && !c.halted && s.aclkRuns core then
      done ((s.modCore core fun c => { c with seq := { c.seq with trap := none } }).takeTrap core .boundsViolation 1 0 0 a)
    else done s
  | none => done s

/-! ## The end of a task (R75) -/

/-- Whether a tower command of a core is queued or has not completed. -/
def State.towerBusy (s : State) (core : Nat) : Bool :=
  let tw := s.tower (Config.groupOfCore core)
  (tw.queue.any fun c => decide (c.core = core)) || tw.running.any fun r => decide (r.cmd.core = core) && !r.dropTiles

/-- Whether a queue bound for outbound flow has drained. -/
def Queue.drained (q : Queue) : Bool :=
  match q.kind with
  | .dmaOut | .neighbourOut => decide (q.count = 0)
  | .cupolaOut => decide (q.count = 0)
  | _ => true

/-- Whether a task that has issued END may report its completion. -/
def State.taskDone (s : State) (core : Nat) : Bool :=
  let c := s.core core
  c.ending && decide (c.inflight = []) && !s.towerBusy core && c.seq.run.isNone && c.seq.trap.isNone &&
  c.queues.all fun e => e.2.drained

/-- TASK_END (R75, R304): the task is over and its command counts it. -/
def execTaskEnd (core : Nat) (s : State) : Result :=
  if !s.runs then done s else
  match (s.core core).task with
  | some t =>
    if s.taskDone core then
      let s := s.modCore core Core.idle
      done (s.modJob t.part t.job fun b => { b with cmd := b.cmd.map fun c => { c with ended := c.ended + 1, lastCore := core } })
    else done s
  | none => done s

end Sys2Proof.Machine
end

