-- ==== Sys2Proof/Machine/Attention.lean ====
section
/-! DEFINITION. TATTN: attention over a sequence's pages and staged entries (R207, R208, R229 to R234). -/

namespace Sys2Proof.Machine

/-! ## Fields (Table 06-6) -/

def TowerCmd.qrows (c : TowerCmd) : Nat := c.bits 0x14 0 6 + 1
def TowerCmd.maskKind (c : TowerCmd) : Nat := c.bits 0x14 6 2
def TowerCmd.kvHeads (c : TowerCmd) : Nat := c.bits 0x14 8 6 + 1
def TowerCmd.group (c : TowerCmd) : Nat := c.bits 0x14 16 4 + 1
def TowerCmd.headDim (c : TowerCmd) : Nat := if c.bits 0x14 20 1 = 1 then 128 else 64
def TowerCmd.useStaged (c : TowerCmd) : Bool := decide (c.bits 0x14 21 1 = 1)
def TowerCmd.scale (c : TowerCmd) : Word := BitVec.ofNat 32 (c.bits 0x20 0 32)
def TowerCmd.qpos (c : TowerCmd) : Nat := c.bits 0x20 32 32
def TowerCmd.kvLen (c : TowerCmd) : Nat := c.bits 0x30 0 32
def TowerCmd.window (c : TowerCmd) : Nat := c.bits 0x30 32 32

/-! ## The check (R207, R232) -/

/-- Whether the staged candidates form a chain from candidate 0. -/
def candChain (q : SeqTable) : Bool :=
  (List.range 17).any fun n => decide (q.candMask = 2 ^ n - 1) &&
    (List.range n).all fun c => decide (c = 0) || decide (treeParent q.candTree c + 1 = c)

/-- The rules of TATTN. -/
def State.attnOk (s : State) (c : TowerCmd) (q : SeqTable) (d : TensorDesc) : Bool :=
  let mk := c.maskKind
  decide (c.qrows * c.group ≤ 64) && decide (c.kvHeads * (c.headDim / 64 + 1) ≤ 64) &&
  !(decide (mk = 3) && (decide (c.qrows > 16) || !c.useStaged)) &&
  (decide (mk = 2) || decide (c.window = 0)) && (decide (mk = 3) || decide (c.treeOf = 0)) &&
  hasExtents d c.headDim (c.kvHeads * c.group) c.qrows && s.streamOk c.part d &&
  decide (c.kvLen ≤ q.committed) && decide (q.hd = c.headDim) && decide (q.kvh = c.kvHeads) &&
  !(decide (mk = 2) && decide (c.window = 0)) &&
  (decide (mk ≠ 3) || (decide (c.qpos = q.candPos) && decide (c.treeOf = q.candTree) &&
    (List.range c.qrows).all fun i => nbit q.candMask i)) &&
  (decide (mk = 3) || !c.useStaged || candChain q)

/-- The pages that a TATTN reads. -/
def SeqTable.pagesRead (q : SeqTable) (c : TowerCmd) : List Nat := List.range (ceilDiv (min c.kvLen q.flushed) q.p)

/-- The work of one page of `n` tokens (Table 06-10). -/
def pageWork (q : SeqTable) (rq n : Nat) : Nat :=
  let e := rowElems q.fmt
  let rows := ceilDiv (n * q.n) e
  let words := ((List.range rows).map fun r => ceilDiv (min e (n * q.n - r * e) * elemBits q.fmt / 8) 32).sum
  2 * (4 * rows + words * rq) + ceilDiv (n * rq) 32

/-- The check of a TATTN on its table: bank set and work. -/
def State.checkAttn (s : State) (t : Nat) (c : TowerCmd) (d : TensorDesc) (q : SeqTable) : State × Except Status CmdCheck :=
  if !s.attnOk c q d then (s, .error .descInvalid)
  else match s.pageEntries t c.part q (q.pagesRead c) with
    | (s, .error e) => (s, .error e)
    | (s, .ok l) =>
      let n := min c.kvLen q.flushed
      let rq := c.qrows * c.group
      let work := ((List.range l.length).map fun k => pageWork q rq (min q.p (n - k * q.p))).sum
      let staged := (c.kvLen - q.flushed) + if c.useStaged then (maskList q.candMask).length else 0
      let keep := ceilDiv (rowBytes d.fmt c.headDim * c.kvHeads * c.group * c.qrows) 16 + ceilDiv (staged * 2 * q.half) 16
      (s, .ok ⟨[some d], (q.banks t ++ (l.filter pageValid).map pageBank).dedup, work + keep⟩)

/-! ## Tokens -/

/-- The keys and values of one KV head of a token. -/
structure KvHead where
  k : List ScaledBlock
  v : List (Val × FpFlags)
  poison : Bool
  deriving DecidableEq, Repr

/-- An attended token: whether it is a candidate, its number, its position, its heads. -/
structure KvToken where
  cand : Bool
  idx : Nat
  pos : Nat
  heads : List KvHead
  deriving DecidableEq, Repr

/-- A head from the elements of its keys and values. -/
def kvHead (k v : List (Val × Nat × Bool)) : KvHead :=
  ⟨blocksOf k, v.map fun x => roundFp32 (applyScale x.1 x.2.1), (k ++ v).any fun x => x.2.2⟩

/-- Where element `u` of half `h` of a page lies (R235). -/
def SeqTable.pagePos (q : SeqTable) (t e h u : Nat) : ElemPos :=
  let r := rowElems q.fmt
  let a := pageRow t e (h * q.b + u / r)
  ⟨a, u % r, some (a + 1920 + u % r / 32), some (a + 2040)⟩

/-- An element of a page row, poisoned too where its row's tag is not the page's (R234). -/
def pageElem (im : Image) (q : SeqTable) (e : Nat) (x : ElemPos) : Val × Nat × Bool :=
  let r := imageRaw im q.fmt 0 x
  let bad := match x.header with
    | some h => decide (im.bytes.num (h + 4) 4 ≠ pageTag e)
    | none => false
  (r.1, r.2.1, r.2.2 || bad)

/-- Read the tokens `lo` to `lo + n - 1` of the page whose entry is `e` and whose first token is `base`. -/
def State.readPage (s : State) (t p : Nat) (q : SeqTable) (e base n : Nat) : State × Option (List KvToken) :=
  let at_ (h i hd d : Nat) : ElemPos := q.pagePos t e h (d + q.hd * (hd + q.kvh * i))
  let words := (List.range n).flatMap fun i => (List.range q.kvh).flatMap fun hd => (List.range q.hd).flatMap fun d =>
    elemWords q.fmt (at_ 0 i hd d) ++ elemWords q.fmt (at_ 1 i hd d)
  let (s, im) := s.readImage (.tower t) p {} words.dedup
  if im.refused.isSome then (s, none)
  else (s, some ((List.range n).map fun i =>
    { cand := false, idx := base + i, pos := q.basePos + base + i,
      heads := (List.range q.kvh).map fun hd =>
        let el (h : Nat) := (List.range q.hd).map fun d => pageElem im q e (at_ h i hd d)
        kvHead (el 0) (el 1) }))

/-- A staged entry as a token. -/
def SeqTable.stagedToken (q : SeqTable) (cand : Bool) (idx pos : Nat) (e : Staged) : KvToken :=
  let m := Memory.ofBytes 0 e.cells
  { cand := cand, idx := idx, pos := pos,
    heads := (List.range q.kvh).map fun hd =>
      let el (h : Nat) := (List.range q.hd).map fun d =>
        let x := q.stagedCode m h (d + q.hd * hd)
        (decodeElem q.fmt x.1, x.2, e.poison.contains hd)
      kvHead (el 0) (el 1) }

/-- Read the pages of the attended set: each one's bank, and its tokens as one block (R229). -/
def State.readPages (s : State) (t : Nat) (c : TowerCmd) (q : SeqTable) :
    List Nat → State × Except Status (List (Nat × List KvToken))
  | [] => (s, .ok [])
  | k :: r =>
    match s.pageEntry t c.part q k with
    | (s, .error e) => (s, .error e)
    | (s, .ok e) =>
      if !pageValid e || !pageFits e (2 * q.b) || k ≥ q.cap then (s, .error .bounds)
      else match s.readPage t c.part q e (k * q.p) (min q.p (min c.kvLen q.flushed - k * q.p)) with
        | (s, none) => (s, .error .bounds)
        | (s, some b) => match s.readPages t c q r with
          | (s, .error x) => (s, .error x)
          | (s, .ok l) => (s, .ok ((pageBank e, b) :: l))

/-- The blocks of each bank, in the order of the banks' first pages: one bank unit reads them one after another. -/
def bankBlocks (l : List (Nat × List KvToken)) : List (List (List KvToken)) :=
  (l.map (·.1)).eraseDups.map fun b => (l.filter fun x => decide (x.1 = b)).map (·.2)

/-- The staged part of the attended set; none where an entry is missing (R468). -/
def stagedTokens (c : TowerCmd) (q : SeqTable) (l : List Staged) : Option (List KvToken) :=
  let com := (List.range (c.kvLen - q.flushed)).map fun i =>
    (findStaged true (q.flushed + i) l).map fun e => q.stagedToken false (q.flushed + i) (q.basePos + q.flushed + i) e
  let cand := if c.useStaged then (maskList q.candMask).map fun k =>
      (findStaged false k l).map fun e => q.stagedToken true k (q.candPos + treeDepth q.candTree 16 k) e
    else []
  (com ++ cand).foldr (fun x r => match x, r with
    | some x, some r => some (x :: r)
    | _, _ => none) (some [])

/-! ## Arithmetic (R229, R230) -/

/-- A product in the bank units: rounded to FP32, subnormal results flushed (R71). -/
def bankMul (a b : Val × FpFlags) : Val × FpFlags := vec1 flushFp32 (vec2 mulFp32 a b)

/-- A sum in the bank units and the reducer tree (R70, R71). -/
def bankAdd (a b : Val × FpFlags) : Val × FpFlags := vec2 accAdd a b

/-- The exponential helper: exp of minus infinity is 0 (R229). -/
def expHelper (x : Val) : Val :=
  match x with
  | .inf true => .fin false 0 0
  | v => ofFp32 (Config.helperExp (toFp32 v))

/-- The exponential of a difference. -/
def expDiff (a b : Val × FpFlags) : Val × FpFlags := vec1 (fun v => (expHelper v, {})) (vec2 subFp32 a b)

/-- A partial state (m, l, o) of a query row. -/
structure AttnState where
  m : Val × FpFlags
  l : Val × FpFlags
  o : List (Val × FpFlags)
  deriving DecidableEq, Repr

/-- The state before any token. -/
def attnStart (hd : Nat) : AttnState :=
  ⟨(.inf true, {}), (.fin false 0 0, {}), List.replicate hd (.fin false 0 0, {})⟩

/-- The state after one more block of tokens, from their scores and values (R229). -/
def attnBlock (draw : Nat → Nat) (a : AttnState) (l : List ((Val × FpFlags) × List (Val × FpFlags))) : AttnState :=
  let m := maxList (a.m :: l.map (·.1))
  if m.1 = .inf true then { a with m := m }
  else
    let c := expDiff a.m m
    let es := l.map fun x => expDiff x.1 m
    let sum (k : Nat) (xs : List (Val × FpFlags)) : Val × FpFlags :=
      treeSum (fun i => draw (4096 * k + l.length + i)) l.length (shuffle (fun i => draw (4096 * k + i)) xs)
    { m := m, l := bankAdd (bankMul a.l c) (sum 0 es),
      o := a.o.zipIdx.map fun o => bankAdd (bankMul o.1 c)
        (sum (o.2 + 1) ((es.zip l).map fun x => bankMul x.1 ((x.2.2).getD o.2 (.fin false 0 0, {})))) }

/-- Merge two partial states (R230). -/
def attnMerge (a b : AttnState) : AttnState :=
  let m := maxList [a.m, b.m]
  if m.1 = .inf true then { attnStart a.o.length with m := m }
  else
    let ca := expDiff a.m m
    let cb := expDiff b.m m
    { m := m, l := bankAdd (bankMul a.l ca) (bankMul b.l cb),
      o := (a.o.zip b.o).map fun x => bankAdd (bankMul x.1 ca) (bankMul x.2 cb) }

/-- Merge the states at places `k` and `k + 1`. -/
def mergeAt : Nat → List AttnState → List AttnState
  | 0, x :: y :: r => attnMerge x y :: r
  | k + 1, x :: r => x :: mergeAt k r
  | _, l => l

/-- Merge partial states in an order that free draws choose (R72, R230). -/
def mergeAll (draw : Nat → Nat) (hd : Nat) : Nat → List AttnState → AttnState
  | 0, l => l.headD (attnStart hd)
  | n + 1, l => if l.length ≤ 1 then l.headD (attnStart hd) else mergeAll draw hd n (mergeAt (draw n % (l.length - 1)) l)

/-- Whether the mask lets a query row attend a token (Table 07-1). -/
def attends (c : TowerCmd) (q : SeqTable) (r : Nat) (x : KvToken) : Bool :=
  let qp : Int := (c.qpos : Int) + (if c.maskKind = 3 then treeDepth c.treeOf 16 r else r : Nat)
  let p : Int := x.pos
  match c.maskKind with
  | 0 => true
  | 1 => decide (p ≤ qp)
  | 2 => decide (qp - (c.window : Int) < p) && decide (p ≤ qp)
  | _ => !x.cand || treeAncestor q.candTree 16 r x.idx

/-- The scores and values of a block of tokens for a query row and head. -/
def blockScores (draw : Nat → Nat) (c : TowerCmd) (q : SeqTable) (r kvh : Nat) (qb : List ScaledBlock) (b : List KvToken) :
    List ((Val × FpFlags) × List (Val × FpFlags)) :=
  b.zipIdx.map fun x =>
    let h := x.1.heads.getD kvh ⟨[], [], false⟩
    (if attends c q r x.1 then bankMul (ofFp32 c.scale, {}) (dotBlocks (fun i => draw (1024 * x.2 + i)) qb h.k)
      else (.inf true, {}), h.v)

/-- The partial state that one bank unit, or the staging unit, ends with for a query row and head: it runs on over its blocks, in an
order that free draws choose (R72, R229). -/
def unitState (draw : Nat → Nat) (c : TowerCmd) (q : SeqTable) (r kvh : Nat) (qb : List ScaledBlock)
    (blocks : List (List KvToken)) : AttnState :=
  (shuffle (fun i => draw (2 ^ 39 + i)) blocks.zipIdx).foldl (fun a b =>
    let d (i : Nat) : Nat := draw (2 ^ 24 * b.2 + i)
    attnBlock (fun i => d (2 ^ 20 + i)) a (blockScores d c q r kvh qb b.1)) (attnStart q.hd)

/-- The final state of a query row and head: the units' states merged, the output divided by the row sum (R229, R230). -/
def attnRow (draw : Nat → Nat) (c : TowerCmd) (q : SeqTable) (r kvh : Nat) (qb : List ScaledBlock)
    (units : List (List (List KvToken))) : AttnState × List (Val × FpFlags) :=
  let states := units.zipIdx.map fun u => unitState (fun i => draw (2 ^ 42 * (u.2 + 1) + i)) c q r kvh qb u.1
  let a := mergeAll (fun i => draw (2 ^ 40 + i)) q.hd states.length (shuffle (fun i => draw (2 ^ 41 + i)) states)
  if isZeroVal a.l.1 then
    ({ a with m := (.inf true, a.m.2), l := (.fin false 0 0, a.l.2) }, List.replicate q.hd (.fin false 0 0, {}))
  else (a, a.o.map fun x => (ofFp32 (Config.helperQuot (toFp32 x.1) (toFp32 a.l.1)), orFlags x.2 a.l.2))

/-! ## The command -/

/-- The query vectors: by query row, then query head. -/
def State.readQuery (s : State) (t : Nat) (c : TowerCmd) (d : TensorDesc) : Nat → Nat → State × Option (List Streamed)
  | 0, _ => (s, some [])
  | n + 1, i =>
    let heads := c.kvHeads * c.group
    let (s, l) := s.readElems (.tower t) c.part d 0
      ((List.range c.headDim).map fun k => .inside [k, i % heads, i / heads])
    match l with
    | .error _ => (s, none)
    | .ok l =>
      let x := streamVector d false c.round c.ovf (fun k => s.rounds (256 * i + k)) l
      let (s, rest) := s.readQuery t c d n (i + 1)
      (s, rest.map fun r => x :: r)

/-- The tiles of one KV head (R208). -/
def headTiles (draw : Nat → Nat) (c : TowerCmd) (q : SeqTable) (qs : List Streamed)
    (units : List (List (List KvToken))) (kvh : Nat) : List RetTile × FpFlags :=
  let heads := c.kvHeads * c.group
  let rows := c.qrows * c.group
  let query (i : Nat) : Streamed := qs.getD (i / c.group * heads + kvh * c.group + i % c.group) ⟨[], {}, false⟩
  let res := (List.range rows).map fun i =>
    attnRow (fun k => draw (2 ^ 64 * i + k)) c q (i / c.group) kvh (query i).blocks units
  let bad := ((List.range rows).any fun i => (query i).poison) ||
    units.any fun u => u.any fun b => b.any fun x => (x.heads.getD kvh ⟨[], [], false⟩).poison
  let last := decide (kvh + 1 = c.kvHeads)
  let out (k : Nat) : RetTile := colTile rows ((List.range 64).map fun j => res.map fun x => x.2.getD (64 * k + j) (.fin false 0 0, {})) bad false
  let stats := colTile rows [res.map fun x => x.1.m, res.map fun x => x.1.l] bad last
  let fl := res.foldl (fun f x => (x.1.m :: x.1.l :: x.2).foldl (fun f v => orFlags f v.2) f) {}
  ((List.range (c.headDim / 64)).map out ++ [stats], fl)

/-- The poisoned tiles of a KV head that was not finished (R216). -/
def deadHead (c : TowerCmd) (kvh : Nat) : List RetTile :=
  let rows := c.qrows * c.group
  (List.range (c.headDim / 64)).map (fun _ => poisonTile rows 64 false) ++
    [poisonTile rows 2 (decide (kvh + 1 = c.kvHeads))]

/-- TATTN runs. -/
def State.runAttn (s : State) (t : Nat) (c : TowerCmd) (q : SeqTable) (d : TensorDesc) : State × RunOut :=
  let dead : List RetTile := (List.range c.kvHeads).flatMap (deadHead c)
  match s.readQuery t c d (c.kvHeads * c.group * c.qrows) 0 with
  | (s, none) => (s.tick, { status := .bounds, tiles := dead })
  | (s, some qs) => match s.readPages t c q (q.pagesRead c) with
    | (s, .error e) => (s.tick, { status := e, tiles := dead })
    | (s, .ok pages) => match stagedTokens c q ((s.tower t).staged q.addr) with
      | none => (s.tick, { status := .bounds, tiles := dead })
      | some st =>
        let units := if st = [] then bankBlocks pages else bankBlocks pages ++ [[st]]
        let heads := (List.range c.kvHeads).map fun h =>
          headTiles (fun i => s.draw 7 (2 ^ 80 * h + i)) c q qs units h
        let tiles := heads.flatMap (·.1)
        let fl := heads.foldl (fun f x => orFlags f x.2) (qs.foldl (fun f (x : Streamed) => orFlags f x.fp) {})
        (s.tick, { status := if tiles.any (fun x => x.poison) then .poison else .ok, fp := fl, tiles := tiles,
                   progress := c.kvHeads * ((units.flatten).map List.length).sum })

end Sys2Proof.Machine
end

