-- ==== Sys2Proof/Machine/TowerOps.lean ====
section
/-! DEFINITION. The Keep's command sequencer (R191 to R202, R228): checking, starting, returning tiles, completing, the
watchdog and the purge. -/

namespace Sys2Proof.Machine

/-- Whether a command names a sequence table. -/
def namesSeq : TCmd → Bool
  | .tattn | .tappend | .tcommit | .tdiscard | .tflushkv => true
  | _ => false

/-! ## The check (R192 to R194) -/

/-- The descriptors of a command: created from memory, or the working copies that the layer sequencer passes (R206). -/
def State.cmdDescs (s : State) (t : Nat) (c : TowerCmd) : State × Except Status (List (Option TensorDesc)) :=
  match c.bySeq with
  | some q => (s, .ok [some q.w, none, some q.x])
  | none => s.createAll (.tower t) c.part c.descAddrs

/-- The BCLK cycles of a range of a bank by rows, at least 8 for each (Table 06-10). -/
def rangeWork (a n : Nat) : Nat :=
  if n = 0 then 0
  else
    let last := a + n - 1
    let rowWork (lo hi : Nat) : Nat := max 8 (hi / 32 - lo / 32 + 1)
    if a / 2048 = last / 2048 then rowWork a last
    else rowWork a (a / 2048 * 2048 + 2047) + (last / 2048 - a / 2048 - 1) * 64 + rowWork (last / 2048 * 2048) last

/-- The work of reading elements `k` to `k + n - 1` of a line for `v` vectors (Table 06-10). -/
def lineWork (d : TensorDesc) (k n v : Nat) : Nat :=
  let words (m : Nat) : Nat := ceilDiv (m * elemBits d.fmt) 256
  match d.layout with
  | 3 =>
    let e := rowElems d.fmt
    ((List.range ((k + n - 1) / e - k / e + 1)).map fun i =>
      let lo := max k ((k / e + i) * e)
      let hi := min (k + n) ((k / e + i + 1) * e)
      4 + words (hi - lo) * v).sum
  | _ => words n * v

/-- The words that hold the elements, scales and headers of line `n` of a tensor, by address. -/
def TensorDesc.lineWords (d : TensorDesc) (n : Nat) : List Nat :=
  ((List.range (d.ext.getD 0 0)).flatMap fun k => elemWords d.fmt (elemPos d (d.at k n))).dedup

/-- The BCLK cycles of reading or writing a set of words, row by row, at least 8 for each row (Table 06-10). -/
def wordWork (l : List Nat) : Nat :=
  ((l.map (· / 2048)).dedup.map fun r => max 8 ((l.filter fun w => decide (w / 2048 = r)).length)).sum

/-- The work W = t_sum + K_F of a command on memory (R222, R223); `scrubs` says which frames' rows a TSCRUB scrubs. -/
def TowerCmd.memWork (c : TowerCmd) (scrubs : Nat → Bool) (d : List (Option TensorDesc)) : Nat :=
  match c.cmd, d with
  | .tgemv, [some w, tail, some x] =>
    let e0 := min (w.ext.getD 0 0) c.k
    c.nCount * (lineWork w 0 e0 c.nvec + match tail with
      | some y => lineWork y c.tailPos (c.k - e0) c.nvec
      | none => 0) + ceilDiv (rowBytes x.fmt c.k * c.nvec) 16
  | .tfill, _ => if c.bits 0x14 0 1 = 1 then (c.regionRuns.map fun r => r.2.2).sum else rangeWork (c.addr 0x18) (c.bits 0x20 0 64)
  | .tcopy, _ => rangeWork (c.addr 0x18) (c.bits 0x28 0 64) + rangeWork (c.addr 0x20) (c.bits 0x28 0 64)
  | .txform, [some x, some y] =>
    ((List.range x.lines).map fun n => wordWork (x.lineWords n) + wordWork (y.lineWords n)).sum +
      ceilDiv (x.ext.getD 0 0 * x.lines) 64
  | .treduce, [some x] => x.lines * lineWork x 0 (x.ext.getD 0 0) 1
  | .tscrub, _ => ((c.regionRuns.filter fun r => scrubs r.1).map fun r => r.2.2).sum
  | _, _ => 0

/-- The work of a command on a tower's memory as its frame table stands. -/
def State.cmdWork (s : State) (t : Nat) (c : TowerCmd) (d : List (Option TensorDesc)) : Nat :=
  c.memWork (fun i => (mget {} (s.tower t).frames i).scrubs) d

/-- Step 4 of R154: the rules of a command. -/
def State.cmdRules (s : State) (t : Nat) (c : TowerCmd) (d : List (Option TensorDesc)) : State × Except Status CmdCheck :=
  if namesSeq c.cmd then
    match s.readSeq t c.part c.seqAddr with
    | (s, .error e) => (s, .error e)
    | (s, .ok q) => match c.cmd, d with
      | .tattn, [some x] => s.checkAttn t c x q
      | _, _ => s.checkStaging t c d q
  else match c.cmd, d with
    | .tgemv, [some w, tail, some x] =>
      if s.gemvOk t c w x tail then (s, .ok ⟨d, c.gemvBanks t w tail, s.cmdWork t c d⟩) else (s, .error .descInvalid)
    | .tgemv, _ => (s, .error .descInvalid)
    | _, _ => match s.memCmdOk t c d with
      | some b => (s, .ok ⟨d, b, s.cmdWork t c d⟩)
      | none => (s, .error .descInvalid)

/-- The check of a command (R154). -/
def State.checkCmd (s : State) (t : Nat) (c : TowerCmd) : State × Except Status CmdCheck :=
  if !c.fieldsOk then (s, .error .descInvalid)
  else if c.bound = 0 || c.bound > 2700000 then (s, .error .refused)
  else match s.cmdDescs t c with
    | (s, .error e) => (s, .error e)
    | (s, .ok d) => s.cmdRules t c d

/-- The layer sequencers of a tower's home cores issue the commands that waited for room in its queue, in ascending
logical core order (R191). -/
def State.seqRefill (s : State) (t : Nat) : State :=
  (homeCores t).foldl (fun s c => s.seqIssue c (s.seqWaiting c)) s

/-- The commands of a tower that run: their work in the Keep is not yet done. -/
def Tower.blockers (tw : Tower) : List Running := tw.running.filter fun r => r.working

/-- The quarter tolls of a command's first instalment (R322). -/
def firstInstalment (c : TowerCmd) (k : CmdCheck) : Nat :=
  towerPrice c.cls * instalment k.work (reservation c.cmd c.cls k.banks.length)

/-- The first instalment paid, if the purse covers it (R322). -/
def State.payFirst (s : State) (t : Nat) (c : TowerCmd) (k : CmdCheck) : State × TowerCmd :=
  if !c.paid && s.covers t (firstInstalment c k) then (s.charge t (firstInstalment c k), { c with paid := true }) else (s, c)

/-- The Keep sequencer checks the command at the head of the queue (R192, R233); one that passes pays at once if it can
(R323). -/
def execTcmdHeadCheck (tower : Nat) (s : State) : Result :=
  let tw := s.tower tower
  match tw.queue with
  | [] => done s
  | c :: rest =>
    let busy := namesSeq c.cmd && tw.blockers.any fun r => namesSeq r.cmd.cmd && decide (r.cmd.seqAddr = c.seqAddr)
    if !s.keepRuns tower || c.checked.isSome || busy then done s
    else match s.checkCmd tower c with
      | (s, .ok k) =>
        let (s, c) := s.payFirst tower { c with checked := some k } k
        done (s.modTower tower fun tw => { tw with queue := c :: rest })
      | (s, .error e) =>
        let s := s.modTower tower fun tw => { tw with queue := rest }
        done ((s.killCommand tower c e false false).seqRefill tower)

/-! ## Starting (R195, R322) -/

/-- The status of a table that can no longer be read (R216). -/
def tableGone (e : Status) : Status := if e = .uncorrected then .uncorrected else .bounds

/-- A checked command runs. -/
def State.runCmd (s : State) (t : Nat) (c : TowerCmd) (d : List (Option TensorDesc)) : State × RunOut :=
  if namesSeq c.cmd then
    match s.readSeq t c.part c.seqAddr with
    | (s, .error e) =>
      (s, ({ status := tableGone e, tiles := if c.cmd = .tattn then (List.range c.kvHeads).flatMap (deadHead c) else [] } : RunOut))
    | (s, .ok q) => match c.cmd, d with
      | .tattn, [some x] => s.runAttn t c q x
      | .tappend, [some k, some v] => s.runAppend t c q k v
      | .tcommit, _ => s.runCommit t c q
      | .tdiscard, _ => s.runDiscard t c q
      | .tflushkv, _ => s.runFlush t c q
      | _, _ => (s, {})
  else match c.cmd, d with
    | .tgemv, [some w, tail, some x] => s.runGemv t c w x tail
    | .tfill, _ => s.runFill t c
    | .tcopy, _ => s.runCopy t c
    | .txform, [some x, some y] => s.runXform t c x y
    | .treduce, [some x] => s.runReduce t c x
    | .tscrub, _ => s.runScrub t c
    | _, _ => (s, {})

/-- Whether two commands conflict (R194). -/
def conflicts (c : TowerCmd) (k : CmdCheck) (r : Running) : Bool :=
  (match r.cmd.checked with
    | some j => k.banks.any fun b => j.banks.contains b
    | none => false) ||
  (namesSeq c.cmd && namesSeq r.cmd.cmd && decide (r.cmd.seqAddr = c.seqAddr))

/-- Whether a command holds a return buffer (R199): from its start until its last tile is pushed. -/
def Running.buffered (r : Running) : Bool := r.cmd.retEn && !r.unstarted && (r.working || decide (r.tiles ≠ []))

/-- Whether the checked head command may start (R195, R199). -/
def State.mayStart (s : State) (t : Nat) (c : TowerCmd) (k : CmdCheck) : Bool :=
  let tw := s.tower t
  let buffers := (tw.running.filter Running.buffered).length
  s.keepRuns t && decide (tw.blockers.length < 4) && (!c.retEn || decide (buffers < 6)) &&
  (tw.blockers.all fun r => !conflicts c k r) && c.paid &&
  !s.regBit (towerBase t + Off.tseqCtl) 0

/-- The checked head command starts. -/
def execTcmdStart (tower : Nat) (s : State) : Result :=
  let tw := s.tower tower
  match tw.queue with
  | [] => done s
  | c :: rest => match c.checked with
    | none => done s
    | some k =>
      if !s.mayStart tower c k then done s
      else
        let r : Running := {
          cmd := c, degraded := tw.evac.isSome, unitsPaid := instalment k.work (reservation c.cmd c.cls k.banks.length) }
        done ((s.modTower tower fun tw => { tw with queue := rest, running := tw.running ++ [r] }).seqRefill tower)

/-- A running command at a place of a tower's list replaced. -/
def Tower.setRunning (tw : Tower) (i : Nat) (r : Running) : Tower := { tw with running := tw.running.set i r }

/-- Whether a running command has passed BOUND: nothing but the watchdog ends it then (R200). -/
def Running.overdue (r : Running) : Bool := r.working && decide (r.counted > r.cmd.bound)

/-- The work of a running command ends: its writes are performed and its result tiles are in its return buffer (R199, R201). What
it does to memory happens here, as a whole (DEDUCED, log 19). -/
def State.finishWork (s : State) (t index : Nat) : State :=
  match (s.tower t).running[index]? with
  | none => s
  | some r => match r.cmd.checked with
    | none => s
    | some k =>
      if !r.working || r.overdue then s
      else
        let (s, o) := s.runCmd t r.cmd k.descs
        s.modTower t fun tw => tw.setRunning index { r with
          working := false, status := o.status, fp := o.fp, tiles := if r.cmd.retEn && !r.dropTiles then o.tiles else [],
          progress := o.progress }

/-! ## Result tiles (R97, R198, R199, R201) -/

/-- A result tile in the format of a queue (R198). -/
def returnTile (f : Format) (mode : Rounding) (ovf : Bool) (rnd : Nat → Nat) (t : RetTile) : Memory × FpFlags × Word :=
  let (d, fl) := encodeTile f mode ovf rnd t.rows t.cols fun r c => ofFp32 (mget 0 t.cells (64 * r + c))
  (d, fl, mkTag t.poison t.last t.rows t.cols)

/-- The Keep pushes the next result tile of a command, whose work is done by then; with its last tile the command's flags reach
FPSTAT (R81). -/
def execTcmdReturnPush (tower index : Nat) (s : State) : Result :=
  let s := if s.keepRuns tower then s.finishWork tower index else s
  let tw := s.tower tower
  match tw.running[index]? with
  | none => done s
  | some r => match r.tiles with
    | [] => done s
    | x :: rest =>
      let c := r.cmd
      let q := (s.core c.core).queue c.qret
      if !(s.keepRuns tower && s.pushDue tower r) then done s
      else if c.bySeq.isSome then
        let s := s.setTower tower (tw.setRunning index { r with tiles := rest, returned := r.returned + 1 })
        let s := if rest = [] then s.modCore c.core fun k => k.orFp r.fp else s
        done (s.seqTake c.core x)
      else
        let (d, fl, tag) := returnTile q.fmt c.round c.ovf s.rounds x
        let fp := orFlags r.fp fl
        let s := s.setTower tower (tw.setRunning index { r with tiles := rest, returned := r.returned + 1, fp := fp })
        let s := (s.modCore c.core fun k => k.push c.qret d tag).tick
        done (if rest = [] then s.modCore c.core fun k => k.orFp fp else s)

/-! ## Completion (R155, R202) -/

/-- Note for the serving sequencer a command of one of its rings that completes with DEGRADED (R258). -/
def State.noteDegraded (s : State) (c : TowerCmd) : State :=
  if s.serves c.part && (decide (c.job = s.genRing c.part) || decide (c.job = s.promptRing c.part)) then
    let note := (c.job, s.reg (jobBase c.part c.job + Off.pringHead), if namesSeq c.cmd then some c.seqAddr else none)
    s.modPart c.part fun d => { d with srv := { d.srv with
      degraded := if d.srv.degraded.contains note then d.srv.degraded else d.srv.degraded ++ [note] } }
  else s

/-- A command completes, once its work is done and its last result tile has been pushed. -/
def execTcmdComplete (tower index : Nat) (s : State) : Result :=
  let s := if s.keepRuns tower then s.finishWork tower index else s
  let tw := s.tower tower
  match tw.running[index]? with
  | none => done s
  | some r =>
    if r.working || r.tiles ≠ [] || !s.keepRuns tower then done s
    else
      let c := r.cmd
      let s := s.setTower tower (Tower.countDone { tw with running := tw.running.eraseIdx index })
      let s := if r.unstarted then s
        else
          let s := s.towerRecord tower c r.status (recordFlags false r.degraded r.fp) r.progress
          let s := if r.degraded then s.noteDegraded c else s
          let w := s.regField (partBase c.part + Off.pdispCtl) 16 8
          s.debit c.part c.job (w * r.ran)
      if r.silent || r.dropTiles then done s
      else
        let s := if c.retEn || r.unstarted then s else s.modContext c.part c.job c.core fun k => k.orFp r.fp
        done (s.modContext c.part c.job c.core fun k => k.postFlag? c.flag)

/-! ## Watchdog, purge, counters (R200, R228) -/

/-- The code of a command (Table 04-15). -/
def tcmdCode : TCmd → Nat
  | .tattn => 1 | .tgemv => 2 | .tappend => 3 | .tcommit => 4 | .tdiscard => 5 | .tflushkv => 6 | .tfill => 7 | .tcopy => 8
  | .txform => 9 | .treduce => 10 | .tscrub => 11

/-- The words of a tower's memory after some of the writes that lead from `old` to `new`: those that `pick` names are performed. -/
def mixRam (pick : Nat → Bool) (old new : Ram) : Ram :=
  { bytes := (new.bytes.filter fun c => pick (c.1 / 32)).foldl (fun m c => m.set c.1 c.2)
      (old.bytes.filter fun c => !pick (c.1 / 32))
    marks := (new.marks.filter fun c => pick c.1).foldl (fun m c => mset none m c.1 c.2) (old.marks.filter fun c => !pick c.1)
    fills := old.fills }

/-- The first `n` words of runs of words. -/
def takeRuns : Nat → List (Nat × Nat × Nat) → List (Nat × Nat × Nat)
  | _, [] => []
  | n, r :: l => if r.2.2 ≤ n then r :: takeRuns (n - r.2.2) l else if n = 0 then [] else [(r.1, r.2.1, n)]

/-- A running command is ended before its work is done: its completed writes stay, its unfinished ones are not made (R200, R428).
Which are completed is free: for TFILL, how many words of its range; for the others, which words, and whether the staging area has
changed (DESIGN CHOICE, log 163). -/
def State.cutWork (s : State) (t : Nat) (r : Running) : State :=
  match r.cmd.checked with
  | none => s
  | some k =>
    if r.cmd.cmd = .tfill then
      let n := (r.cmd.fillWords.map fun x => x.2.2).sum
      (s.fillRuns t r.cmd.part (r.cmd.bits 0x28 0 64) (takeRuns (s.draw 26 0 % (n + 1)) r.cmd.fillWords)).1.tick
    else
      let old := s.tower t
      ((s.runCmd t r.cmd k.descs).1.modTower t fun tw =>
        { tw with ram := mixRam (fun w => decide (s.draw 26 w % 2 = 0)) old.ram tw.ram, frames := old.frames,
                  staging := if s.draw 27 0 % 2 = 0 then old.staging else tw.staging }).tick

/-- A command ran past BOUND before its result was in the return buffer and its writes performed. -/
def execTcmdWatchdog (tower index : Nat) (s : State) : Result :=
  match (s.tower tower).running[index]? with
  | none => done s
  | some r =>
    if !r.overdue || !s.keepRuns tower then done s
    else
      let c := r.cmd
      let last := tcmdCode c.cmd * 2 ^ 28 + c.core * 2 ^ 16 + c.fld 16 2
      let s := (s.cutWork tower r).modTower tower fun tw => { tw with
        running := tw.running.eraseIdx index, overrunCount := BitVec.ofNat 32 (sat32 tw.overrunCount.toNat),
        lastOverrun := BitVec.ofNat 32 last }
      if s.holdsTask c.part c.job c.core then done (s.takeTrap c.core .timeBound 3 0 0 none) else done s

/-- A write of TSEQ_CTL.PURGE: every queued command that has not started completes with ABORTED. -/
def State.purgeTower (s : State) (t : Nat) : State :=
  if s.keepRuns t then (s.purgeQueue t (fun _ => true) .aborted false false).seqRefill t else s

/-- TSEQ_PURGE (Table 06-13). -/
def execTseqPurge (tower : Nat) (s : State) : Result :=
  done (s.onWrite .pf (towerBase tower + Off.tseqCtl) fun s => s.purgeTower tower)

/-- A read of TSEQ_BUSY_LO latches the high half of the count. -/
def execTseqBusyLoRead (tower : Nat) (s : State) : Result :=
  done (s.onWrite .pf (towerBase tower + Off.tseqBusyLo) fun s =>
    s.modTower tower fun tw => { tw with busyHi := tw.busy.extractLsb' 32 32 })

end Sys2Proof.Machine
end

