-- ==== Sys2Proof/Machine/Governor.lean ====
section
/-! DEFINITION. The power governor and the power ladder (R319 to R330): budget, grants and purses, the brake, the thermal
trip, and the states of a home group. -/

namespace Sys2Proof.Machine

/-! ## FATAL (R430) -/

/-- Every clock but MCLK stops, GSTAT.FATAL is set, and the PF reports it (R373, R430). -/
def State.fatalStop (s : State) : State :=
  if s.stopped then s else (s.setRegBit Off.gstat 30 true).reportAer .pf .fatal

/-- An error record of the supply and thermal source, counted in MCLK cycles (Tables 09-15, 13-3). -/
def State.powerRec (s : State) (code : ErrCode) (index physHi detail : Nat) : ErrRec :=
  { errOf code 15 9 index with physHi := physHi, detail := detail, cycles := s.landing.mclk.toNat }

/-! ## The brake (R326) -/

/-- The DETAIL of a BRAKE record (Table 13-4). -/
def causeNum : BrakeCause → Nat
  | .supply => 0 | .thermal => 1 | .forced => 2

/-- The record of a brake: the source is the input's regulator page, a thermal site that the model leaves free, or no sensor
(DESIGN CHOICE, log 43). -/
def State.brakeRec (s : State) (c : BrakeCause) : ErrRec :=
  match c with
  | .supply => s.powerRec .brake 0 2 0
  | .thermal => s.powerRec .brake (s.draw 14 0 % 128) 0 1
  | .forced => s.powerRec .brake 0xFFF 255 2

/-- A cause of the brake holds: PF vector 3 is signalled (Table 11-8). -/
def State.applyBrake (s : State) (c : BrakeCause) : State :=
  if s.gov.brakes.contains c then s
  else
    let s := { (s.logError (s.brakeRec c)).tick with gov := { s.gov with brakes := c :: s.gov.brakes } }
    ((s.setRegBit (govBase + Off.govStat) 30 true).setRegBit (govBase + Off.govStat) 28 true).signal 3

/-- A cause of the brake has gone; with none left the clocks restart, and the budget returns from 200 W (R326). -/
def State.releaseBrake (s : State) (c : BrakeCause) : State :=
  if !s.gov.brakes.contains c then s
  else
    let l := s.gov.brakes.filter fun x => decide (x ≠ c)
    if l = [] then
      ({ s with gov := { s.gov with brakes := [], recover := some (3200 - s.regField (govBase + Off.govFixed) 0 16) } }).setRegBit
        (govBase + Off.govStat) 30 false
    else { s with gov := { s.gov with brakes := l } }

/-- BRAKE (R326): the supply below 46 V, a site at 110 °C, or FORCE_BRAKE. -/
def execBrake (cause : BrakeCause) (s : State) : Result :=
  match cause with
  | .forced => if s.regBit (govBase + Off.govCtl) 0 then done (s.applyBrake .forced) else done s
  | c => if s.mod.modPg then done (s.applyBrake c) else done s

/-- BRAKE_RELEASE (R325, R326): the supply at 48 V for 100 µs, 107 °C, or FORCE_BRAKE cleared. -/
def execBrakeRelease (cause : BrakeCause) (s : State) : Result :=
  match cause with
  | .forced => if s.regBit (govBase + Off.govCtl) 0 then done s else done (s.releaseBrake .forced)
  | c => done (s.releaseBrake c)

/-- THERMAL_TRIP (R327): a site reaches 115 °C; PF vector 3 is signalled (Table 11-8). -/
def execThermalTrip (site celsius : Nat) (s : State) : Result :=
  if celsius < 115 || site ≥ 128 || !s.mod.modPg || s.regBit (govBase + Off.govStat) 31 then done s
  else
    let s := ((s.logError (s.powerRec .thermTrip site 0 celsius)).setRegBit (govBase + Off.govStat) 31 true).signal 3
    done ({ s with mod := { s.mod with thermAlert := true } }.fatalStop)

/-! ## Budget and grants (R319, R320, R325) -/

/-- The largest GOV_BUDGET that acts (R332, R333). -/
def maxBudget : Variant → Nat
  | .kq12 => 11200
  | .kq08 => 8320

/-- The full variable budget in tolls. -/
def State.fullBudget (s : State) : Nat :=
  min (maxBudget s.variant) (s.regField (govBase + Off.govBudget) 0 16) - s.regField (govBase + Off.govFixed) 0 16

/-- The variable budget: reduced for temperature, or on its way back after a brake. -/
def State.budget (s : State) : Nat :=
  let v := s.fullBudget * (128 - s.gov.loss) / 128
  match s.gov.recover with
  | some r => min v r
  | none => v

/-- The part of V lost to temperature, in 128ths, after a reading (R325). -/
def nextLoss (hotC hottest loss : Nat) : Nat :=
  if hottest > hotC then min 96 (loss + 4) else if hottest + 3 ≤ hotC then loss - 1 else loss

/-- The governor reads the hottest site and sets V (R325, R326); PF vector 3 is signalled when HOT is set (Table 11-8). -/
def State.readThermal (s : State) (hottest : Nat) : State :=
  let a := govBase + Off.govTherm
  let s := s.setRegField a 24 8 hottest
  let loss := nextLoss (s.regField a 16 8) hottest s.gov.loss
  let s := { s with gov := { s.gov with loss := loss } }
  let rises : Bool := decide (loss ≠ 0) && !s.regBit (govBase + Off.govStat) 29
  let s := s.setRegBit (govBase + Off.govStat) 29 (decide (loss ≠ 0))
  let s := if rises then s.signal 3 else s
  let s := if 110 ≤ hottest then s.applyBrake .thermal else if hottest ≤ 107 then s.releaseBrake .thermal else s
  s.setRegField (govBase + Off.govStat) 0 16 s.budget

/-- V after a brake goes up by a sixteenth of its full value (R326). -/
def State.recoverStep (s : State) : State :=
  match s.gov.recover with
  | none => s
  | some r =>
    let n := r + s.fullBudget / 16
    { s with gov := { s.gov with recover := if n ≥ s.fullBudget then none else some n } }

/-- The partition that a group belongs to. -/
def State.groupPart (s : State) (g : Nat) : Option Nat :=
  (List.range s.units).find? fun p => s.active p && nbit (s.groupMask p) g

/-- TOLL_SHARE of a partition. -/
def State.tollShare (s : State) (p : Nat) : Nat := s.regField (govBase + Off.tollShare + 4 * p) 0 16

/-- The groups that V is shared among, with the share of their partition: in G0 or G1 and in a partition (R319). -/
def State.funded (s : State) : List (Nat × Nat) :=
  (List.range s.units).filterMap fun g =>
    match (s.group g).pstate, s.groupPart g with
    | .g0, some p | .g1, some p => some (g, s.tollShare p)
    | _, _ => none

/-- 864 tolls in quarters, the most that a group is granted (R319, step 2). -/
def grantCap : Nat := 3456

/-- Quarter tolls divided among groups by share, capped, the excess divided again among those not capped: each group's
grant (R319). `l` lists group, share and grant so far. -/
def divide (pool : Nat) (l : List (Nat × Nat × Nat)) : Nat → List (Nat × Nat × Nat)
  | 0 => l
  | n + 1 =>
    let open_ := l.filter fun x => decide (x.2.2 < grantCap)
    let total := (open_.map fun x => x.2.1).sum
    if total = 0 || pool = 0 then l
    else
      let raised := l.map fun x => if x.2.2 < grantCap then (x.1, x.2.1, x.2.2 + pool * x.2.1 / total) else x
      let excess := (raised.map fun x => x.2.2 - grantCap).sum
      divide excess (raised.map fun x => (x.1, x.2.1, min grantCap x.2.2)) n

/-- The grants of an epoch by group, in quarter tolls. -/
def State.grants (s : State) : List (Nat × Nat) :=
  (divide (4 * s.budget) (s.funded.map fun x => (x.1, x.2, 0)) 13).map fun x => (x.1, x.2.2)

/-- Credit every purse: min(P, g) + g (R320). -/
def State.credit (s : State) : State :=
  let gs := s.grants
  (List.range s.units).foldl (fun s g =>
    let n : Nat := ((gs.find? fun x => decide (x.1 = g)).map (·.2)).getD 0
    s.modGroup g fun x => { x with purse := min x.purse (n : Int) + n, grant := n }) s

/-! ## Charges (R322 to R324) -/

/-- What a running command pays at an epoch boundary: the units it did beyond those it has paid, then its next instalment. The units
done are free while it works (DESIGN CHOICE, log 44), and then all of them. -/
def Running.charge (r : Running) (done_ : Nat) : Nat × Running :=
  match r.cmd.checked with
  | none => (0, r)
  | some k =>
    let all := ceilDiv k.work 16384
    let d := if r.working then done_ % (all + 1) else all
    let next := instalment (k.work - 16384 * d) (reservation r.cmd.cmd r.cmd.cls k.banks.length)
    (towerPrice r.cmd.cls * ((d - r.unitsPaid) + next), { r with unitsPaid := max d r.unitsPaid + next })

/-- Step 2 of R323 for a list of running commands. -/
def State.chargeRunning (s : State) (t : Nat) (i : Nat) : List Running → State × List Running
  | [] => (s, [])
  | r :: l =>
    let (n, r) := if r.unstarted then (0, r) else r.charge (s.draw 11 (16 * t + i))
    let (s, l) := (s.charge t n).chargeRunning t (i + 1) l
    (s, r :: l)

/-- Step 3 of R323: the checked command at the head of a queue. -/
def State.payHead (s : State) (t : Nat) : State :=
  match (s.tower t).queue with
  | [] => s
  | c :: rest => match c.checked with
    | none => s
    | some k =>
      if s.shutOut c.part c.job t then s
      else
        let (s, c) := s.payFirst t c k
        s.modTower t fun tw => { tw with queue := c :: rest }

/-- The class that a core's epoch is charged at: the task's, or the higher one of the slice that runs (R322). -/
def Core.epochClass (c : Core) (t : Task) : Nat := if c.seq.run.isSome then max t.cls c.seq.energyClass else t.cls

/-- The cores of a group that hold tasks of a job, with the class each is charged at. -/
def State.jobCoresIn (s : State) (p j g : Nat) : List (Nat × Nat) :=
  (homeCores g).filterMap fun c => match (s.core c).task with
    | some t => if t.part = p && t.job = j then some (c, (s.core c).epochClass t) else none
    | none => none

/-- The payments of a group's core-epochs so far: the jobs left unpaid, in this group and those before it, and whether a reserved
job among them lets no other be paid here (R324). -/
structure Unpaid where
  jobs : List Nat := []
  shut : Bool := false
  deriving DecidableEq, Repr

/-- Pay the core-epochs of a job in a group, all or none. A reserved job that is not paid, or whose cores wait for a placement, shuts
the group to the others. -/
def State.payJob (s : State) (p g j : Nat) (x : Unpaid) : State × Unpaid :=
  let cs := s.jobCoresIn p j g
  let n := (cs.map fun x => coreCharge (s.group g).ratio x.2).sum
  let waits := (s.placements p j).any fun c => decide (Config.groupOfCore c = g)
  let kept := decide ((s.job p j).age ≥ s.ageLimit p)
  if cs = [] then (s, { x with shut := x.shut || (kept && waits) })
  else if s.covers g n && !x.shut then
    (cs.foldl (fun s x => s.modCore x.1 fun c => { c with paidClass := some x.2 }) (s.charge g n),
     { x with shut := x.shut || (kept && waits) })
  else (s, { jobs := j :: x.jobs, shut := x.shut || kept })

/-- Step 4 of R323 for a group: resident jobs in standing order, reserved ones first. -/
def State.payCores (s : State) (p g : Nat) (unpaid : List Nat) : State × List Nat :=
  let l := jobList.filter fun j => decide ((s.job p j).state = .resident) || decide ((s.job p j).state = .killing)
  let order := s.standing p (l.filter fun j => s.reserved p j g) ++ s.standing p (l.filter fun j => !s.reserved p j g)
  let r := order.foldl (fun x j => x.1.payJob p g j x.2) (s, ({ jobs := unpaid } : Unpaid))
  (r.1, r.2.jobs)

/-- Held jobs and ages after the payments of an epoch (R323, R324): a job passed over is one epoch older, and one that is paid
starts again. -/
def State.settleJobs (s : State) (p : Nat) (unpaid : List Nat) : State :=
  jobList.foldl (fun s j =>
    if unpaid.contains j then s.modJob p j fun b => { b with held := true, age := b.age + 1 }
    else
      let s := s.modJob p j fun b => { b with held := false }
      if s.passedOver p j then s.modJob p j fun b => { b with age := b.age + 1 }
      else if s.taskCores p j = [] then s
      else s.modJob p j fun b => { b with age := 0 }) s

/-- Epochs in a row with a core of the group held, and with none (R328). -/
def State.countHeld (s : State) (g : Nat) : State :=
  let held := (homeCores g).any fun c => match (s.core c).task with
    | some t => (s.job t.part t.job).held
    | none => false
  s.modGroup g fun x =>
    if held then { x with heldRun := x.heldRun + 1, clearRun := 0 } else { x with clearRun := x.clearRun + 1, heldRun := 0 }

/-- Steps 2 and 3 of R323 for a group. -/
def State.settleTower (s : State) (g : Nat) : State :=
  let (s, l) := s.chargeRunning g 0 (s.tower g).running
  (s.modTower g fun tw => { tw with running := l }).payHead g

/-- Steps 4 and 5 of R323 for a partition. A placement is paid when it is made (TASK_PLACE). -/
def State.settlePart (s : State) (p : Nat) : State :=
  if !s.active p then s
  else
    let (s, unpaid) := (s.towersOf p).foldl (fun x g => x.1.payCores p g x.2) (s, [])
    s.settleJobs p unpaid

/-- GOVERNOR_EPOCH (R319 to R325): under the brake no purse is credited and no core paid. The governor does not run while the
root PLL is off (R28). -/
def execGovernorEpoch (hottest : Nat) (s : State) : Result :=
  if !s.runs then done s
  else
    let s := s.readThermal hottest
    let braked := decide (s.gov.brakes ≠ [])
    let s := if braked then s else (s.credit).recoverStep
    let s := (List.range s.units).foldl (fun s g => s.settleTower g) s
    let s := s.tick
    if braked then done s
    else
      let s := { s with cores := mmapv {} (fun _ c => { c with paidClass := none }) s.cores }
      let s := (List.range s.units).foldl (fun s p => s.settlePart p) s
      done ((List.range s.units).foldl (fun s g => s.countHeld g) s)

/-! ## The power ladder (R329, R330) -/

/-- PPOL.FLOOR of a group's partition; an unassigned group goes down to G2 (R330). -/
def State.ladderFloor (s : State) (g : Nat) : Nat :=
  match s.groupPart g with
  | some p => s.regField (partBase p + Off.ppol) 30 2
  | none => 2

/-- Whether a group has no task, no tower command and an idle DMA engine (Table 09-8). -/
def State.groupIdle (s : State) (g : Nat) : Bool :=
  s.betweenCommands g && decide ((s.tower g).queue = []) && decide ((s.tower g).running = []) &&
  (s.engine g).busy.isNone && (s.engine g).channels.all fun x => x.2.free

/-- Whether a migration, a sanitise or an evacuation keeps a tower above G2 (R182, R435). -/
def State.towerMoves (s : State) (g : Nat) : Bool :=
  (s.tower g).migration.isSome || (s.tower g).evac.isSome || (s.tower g).sanitiseBusy

/-- Whether a job with a core in the group is ready or pre-empted. -/
def State.groupWanted (s : State) (g : Nat) : Bool :=
  match s.groupPart g with
  | some p => jobList.any fun j => s.isReady p j && s.jobInGroup p j g
  | none => false

/-- Set a group's power state. -/
def State.setPower (s : State) (g : Nat) (x : PState) : State := s.modGroup g fun y => { y with pstate := x }

/-- G1_ENTRY (Table 09-8). -/
def execG1Entry (group : Nat) (s : State) : Result :=
  if (s.group group).pstate = .g0 && 1 ≤ s.ladderFloor group && s.groupIdle group && !s.stopped then
    done (s.setPower group .g1)
  else done s

/-- G2_ENTRY (Table 09-8). -/
def execG2Entry (group : Nat) (s : State) : Result :=
  if (s.group group).pstate = .g1 && 2 ≤ s.ladderFloor group && s.groupIdle group && !s.towerMoves group && !s.stopped then
    done (s.setPower group .g2)
  else done s

/-- Whether the conditions of G3 hold. -/
def State.mayShut (s : State) (g : Nat) : Bool :=
  s.groupIdle g && !s.towerMoves g && !s.groupWanted g && !s.stopped

/-- G3_ENTRY (Table 09-8): what is lost is lost at the exit (R174). -/
def execG3Entry (group : Nat) (s : State) : Result :=
  if (s.group group).pstate = .g2 && 3 ≤ s.ladderFloor group && s.regBit (govBase + Off.govGrpCfg + 4 * group) 3 &&
      s.mayShut group then
    done (s.setPower group .g3)
  else done s

/-- TARGET of a group. -/
def State.target (s : State) (g : Nat) : Nat := s.regField (govBase + Off.govGrpCfg + 4 * g) 0 3

/-- G4_ENTRY (Table 09-8): TARGET = 4 and the conditions of G3. -/
def execG4Entry (group : Nat) (s : State) : Result :=
  let deep := match (s.group group).pstate with
    | .g2 | .g3 => true
    | _ => false
  if deep && s.target group = 4 && s.mayShut group then done (s.setPower group .g4) else done s

/-- A write of GOV_GRP_CFG (Table 09-13): RATIO 3 and TARGET other than 0 and 4 are ignored, and every TARGET of a group out of
service (R396). -/
def State.writeGrpCfg (s : State) (g v : Nat) : State :=
  let a := govBase + Off.govGrpCfg + 4 * g
  let s := (s.setRegBit a 4 (nbit v 4)).setRegBit a 3 (nbit v 3)
  let s := if field v 5 2 = 3 then s else s.setRegField a 5 2 (field v 5 2)
  if (field v 0 3 = 0 || field v 0 3 = 4) && !(s.group g).outOfService then s.setRegField a 0 3 (field v 0 3) else s

/-- GOV_GRP_CFG_WRITE (R329). -/
def execGovGrpCfgWrite (fn : Fn) (group : Nat) (value : Word) (s : State) : Result :=
  if group < s.units then
    done (s.onWrite fn (govBase + Off.govGrpCfg + 4 * group) fun s => s.writeGrpCfg group value.toNat)
  else done s

/-- GROUP_WAKE (Table 09-8): a placement, a tower command or DMA work returns the group to G0. -/
def execGroupWake (group : Nat) (s : State) : Result :=
  if (s.groupWanted group || !s.groupIdle group) && !s.stopped then done (s.wake group) else done s

/-- What a tower keeps through G4: its owner, which the Landing holds (R186), the repairs and faults of its floors (R441, Table
12-1, step 7), and the microcode that Aldeah has placed (R414). -/
def Tower.afterG4 (tw : Tower) : Tower :=
  { owner := tw.owner, rowRepairs := tw.rowRepairs, colRepairs := tw.colRepairs, sparesOut := tw.sparesOut,
    chanFail := tw.chanFail, tsvFail := tw.tsvFail, retired := tw.retired, skip := tw.skip, spareFor := tw.spareFor,
    ucodeB := tw.ucodeB }

/-- The registers of Table 05-10 and of the sequencer that exit from G4 returns to reset (R186): all of them but TWR_SCRUB_RATE and
TWR_CE_CFG. -/
def keepRegs (t : Nat) : List Nat :=
  [Off.twrStat, Off.twrPin, Off.twrMigrate, Off.twrMigrateStat, Off.tseqCtl].map (towerBase t + ·)

/-- A group leaves G4: its tower's contents, frame table, registers, staging, table slots and counts start afresh, and so do its
cores (R174, R186, R298, Table 09-9). -/
def State.exitG4 (s : State) (g : Nat) : State :=
  let s := s.modTower g Tower.afterG4
  let s := (keepRegs g).foldl (fun s a => s.setReg a (regReset s.variant a)) s
  let s := s.modEngine g fun e => { e with slots := [], cblocks := [] }
  { s with cores := mmapv {} (fun c x => if c / 24 = g then bareCore x else x) s.cores }

/-- G4_EXIT_DONE (Table 09-9): with TARGET = 0 the group comes up in G1. -/
def execG4ExitDone (group : Nat) (s : State) : Result :=
  let g := s.group group
  if g.pstate = .g4 && s.target group = 0 && !g.outOfService && !g.testing && group < s.units && s.ready && !s.stopped then
    done ((s.exitG4 group).setPower group .g1)
  else done s

end Sys2Proof.Machine
end

