-- ==== Sys2Proof/Machine/Links.lean ====
section
/-! DEFINITION. The commands of the Volath links (R380 to R391): training, flits received, replay, retraining, requests
performed and answers taken, and the link and router registers. -/

namespace Sys2Proof.Machine

/-! ## Training (R387 to R389) -/

/-- Start a retrain: the link adapts again and keeps its replay buffer, sequence numbers and credits (R389). -/
def State.startRetrain (s : State) (l : Nat) : State :=
  let n := s.regField (linkBase l + Off.volRetrainCount) 0 16
  let s := s.setRegField (linkBase l + Off.volRetrainCount) 0 16 (n + 1)
  (s.modLink l fun k => { k with retraining := true, resends := 0, retrainStart := s.landing.fclk.toNat }).setPhase l 2

/-- WIDTH, SPARE_USED, DEGRADED and LANES of VOL_LSTAT. -/
def State.setLanes (s : State) (l width lanes : Nat) : State :=
  let a := linkBase l + Off.volLstat
  let s := s.setRegField a 27 2 width
  let s := s.setRegField a 26 1 (b2n (nbit lanes 8))
  let s := s.setRegField a 25 1 (b2n (decide (width = 1)))
  s.setRegField a 16 9 lanes

/-- The lowest `n` set bits of a mask of nine lanes. -/
def lowLanes (n mask : Nat) : Nat :=
  (((List.range 9).filter fun i => nbit mask i).take n).foldl (fun m i => m + 2 ^ i) 0

/-- How many lanes a mask names. -/
def laneCount (mask : Nat) : Nat := ((List.range 9).filter fun i => nbit mask i).length

/-- Physical lanes of a link: nine on the KQ12, eight on the KQ08 (R392). -/
def State.laneMask (s : State) : Nat :=
  match s.variant with
  | .kq12 => 0x1FF
  | .kq08 => 0xFF

/-- The width and lanes that R388 gives for the lanes that both ends receive clean. -/
def State.chooseLanes (s : State) (l mask : Nat) : Option (Nat × Nat) :=
  if 8 ≤ laneCount mask then some (2, lowLanes 8 mask)
  else if 4 ≤ laneCount mask && s.regBit (linkBase l + Off.volLctl) 1 then some (1, lowLanes 4 mask)
  else none

/-- A TRAIN flit of a link, with the next unused SEQ, ACK and CREDIT (R382, R387). -/
def LinkState.train (k : LinkState) (id link lane phase : Nat) (credits : List Nat) : TrainInfo :=
  { deviceId := BitVec.ofNat 13 id, link := BitVec.ofNat 3 link, physLane := BitVec.ofNat 4 lane, goodLanes := k.ownGood,
    phase := BitVec.ofNat 3 phase, credits := credits, seq := BitVec.ofNat 12 k.nextSeq, ack := BitVec.ofNat 12 (k.expect + 4095),
    credit := BitVec.ofNat 32 (creditWord k.giveBack) }

/-- TRAIN flits put on the lanes: their CREDIT goes once. -/
def LinkState.emitTrain (k : LinkState) (i : TrainInfo) : LinkState :=
  { k with trains := k.trains ++ [i], giveBack := creditLeft k.giveBack }

/-- The TRAIN flits of a phase: in LANE_MAP one on each physical lane, from CREDIT_INIT on one striped, with the initial credits
(R387; DESIGN CHOICE, log 175). -/
def State.sendTrain (s : State) (l phase : Nat) : State :=
  let id := s.ownId
  if phase = 3 then
    ((List.range 9).filter fun i => nbit s.laneMask i).foldl (fun s i =>
      s.modLink l fun k => k.emitTrain (k.train id l i 3 [0, 0, 0, 0])) s
  else s.modLink l fun k => k.emitTrain (k.train id l 0 phase rxBuffers)

/-- Resend the replay buffer from ACK + 1 (R385). -/
def LinkState.resend (k : LinkState) : LinkState := k.replay.foldl LinkState.emit k

/-- Drop the replay buffer and the flits queued for a link, with ERR LINK_DOWN to the source of each request (R389; DEDUCED, log 174).
The buffers that they hold are free again. -/
def State.dropLink (s : State) (l : Nat) : State :=
  let k := s.link l
  let gone := (k.replay.map fun f => ((none : Option (Nat × Nat)), f)) ++ k.unsent
  let s := s.setLink l { sent := k.sent, trains := k.trains, inbox := k.inbox.map fun x => (false, x.2) }
  gone.foldl (fun s x =>
    let s := (x.1.toList.foldl State.freeBuffer s).logDrop (x.1.map (·.1)) x.2 3
    if isRequest x.2 then s.sendFlit none l (s.errFlit x.2 .linkDown) else s) s

/-- The link goes DOWN: logged, its traffic dropped (R389). -/
def State.linkGoesDown (s : State) (l : Nat) : State :=
  let partner := s.regField (linkBase l + Off.volLstat) 3 13
  let s := s.logError { errOf .linkDown 15 3 l with detail := partner, cycles := s.landing.fclk.toNat }
  let s := (s.setPhase l 0).setLanes l 0 0
  s.dropLink l

/-- A phase ends without success: training starts again from DETECT. A third retrain that fails in a row takes the link DOWN before
(R387, R389). -/
def State.trainAgain (s : State) (l : Nat) : State :=
  let k := s.link l
  if k.retraining && decide (k.badTrains ≥ 2) then (s.linkGoesDown l).setPhase l 1
  else
    (s.modLink l fun k => { k with badTrains := if k.retraining then k.badTrains + 1 else k.badTrains,
                                   partnerCredits := none }).setPhase l 1

/-- DETECT_DONE (Table 11-13): the partner is seen on at least four lanes. -/
def execDetectDone (link : Nat) (lanes : BitVec 9) (s : State) : Result :=
  if !s.runs then done s else
  if s.linkPhase link = 1 && decide (4 ≤ laneCount (lanes.toNat &&& s.laneMask)) then
    done ((s.modLink link fun k => { k with ownGood := lanes }).setPhase link 2)
  else done s

/-- EQUALISE_DONE (Table 11-13). -/
def execEqualiseDone (link : Nat) (s : State) : Result :=
  if !s.runs then done s else
  if s.linkPhase link = 2 then done ((s.setPhase link 3).sendTrain link 3) else done s

/-- LANE_MAP_DONE (R387, R388): the lanes received clean are sent, and both ends choose their lanes, or the link returns to DETECT. A
link without an id of its own, or with its partner's, stays in LANE_MAP. -/
def execLaneMapDone (link : Nat) (ownGood : BitVec 9) (s : State) : Result :=
  if !s.runs then done s else
  let partner := s.regField (linkBase link + Off.volLstat) 3 13
  let k := s.link link
  let t := (s.modLink link fun k => { k with ownGood := ownGood }).sendTrain link 3
  if s.linkPhase link ≠ 3 then done s
  else if s.ownId = 0x1FFF || partner = s.ownId then done t
  else
    let s := t
    let bad := s.regField (linkBase link + Off.volLaneFail) 0 9
    let mask := ownGood.toNat &&& k.partnerGood.toNat &&& s.laneMask &&& (0x1FF - bad)
    match s.chooseLanes link mask with
    | none => done (s.trainAgain link)
    | some (w, lanes) =>
      let s := s.setLanes link w lanes
      if k.retraining then
        let s := s.setPhase link 5
        let s := s.modLink link fun k => { k with retraining := false, badTrains := 0, resends := 0 }
        done ((s.modLink link LinkState.resend).pumpLink link)
      else done ((s.setPhase link 4).sendTrain link 4)

/-- CREDIT_INIT_DONE (Table 11-13): the partner's credits are taken, SEQ is 0, the link is ACTIVE. -/
def execCreditInitDone (link : Nat) (s : State) : Result :=
  if !s.runs then done s else
  match s.linkPhase link, (s.link link).partnerCredits with
  | 4, some cr =>
    let s := s.modLink link fun k => { k with credits := cr, nextSeq := 0, expect := 0, replay := [], nakSent := false,
                                              giveBack := [0, 0, 0, 0], resends := 0, badTrains := 0 }
    done ((s.setPhase link 5).pumpLink link)
  | _, _ => done s

/-- TRAIN_TIMEOUT (R387): a phase reaches its Max and starts again from DETECT; LANE_MAP has none while the ids keep the
link there. -/
def execTrainTimeout (link : Nat) (s : State) : Result :=
  if !s.runs then done s else
  let partner := s.regField (linkBase link + Off.volLstat) 3 13
  match s.linkPhase link with
  | 1 | 2 | 4 => done (s.trainAgain link)
  | 3 => if s.ownId = 0x1FFF || partner = s.ownId then done s else done (s.trainAgain link)
  | _ => done s

/-- The flits of a replay buffer that an ACK does not cover; none where the ACK names no flit of it. -/
def afterAck (ack : Nat) : List Flit → Option (List Flit)
  | [] => none
  | f :: r => if f.seq.toNat = ack then some r else afterAck ack r

/-- Take an ACK and a CREDIT. -/
def LinkState.takeAck (k : LinkState) (ack cr : Nat) : LinkState :=
  let k := { k with credits := (List.range 4).map fun v => k.credits.getD v 0 + field cr (8 * v) 8 }
  match afterAck ack k.replay with
  | some r => { k with replay := r, resends := 0 }
  | none => k

/-- TRAIN (R387): the partner's id, link and clean lanes, and from CREDIT_INIT on its initial credits; in a retrain its ACK and CREDIT
count (R382, R389). -/
def execTrain (link : Nat) (info : TrainInfo) (s : State) : Result :=
  if !s.runs then done s else
  if s.linkPhase link < 3 || s.linkPhase link = 5 then done s
  else
    let s := s.setRegField (linkBase link + Off.volLstat) 3 13 info.deviceId.toNat
    let s := s.setRegField (linkBase link + Off.volLstat) 0 3 info.link.toNat
    let s := s.modLink link fun k => if k.retraining then k.takeAck info.ack.toNat info.credit.toNat else k
    if info.phase.toNat ≥ 4 then done (s.modLink link fun k => { k with partnerCredits := some (info.credits.take 4) })
    else done (s.modLink link fun k => { k with partnerGood := info.goodLanes })

/-- LANE_FAIL (R388, R439): a lane in use is marked failed and a retrain starts. -/
def execLaneFail (link lane : Nat) (s : State) : Result :=
  if !s.runs then done s else
  let lanes := s.regField (linkBase link + Off.volLstat) 16 9
  if s.linkPhase link ≠ 5 || !nbit lanes lane then done s
  else
    let bad := s.reg (linkBase link + Off.volLaneFail) ||| 2 ^ lane
    let s := s.setReg (linkBase link + Off.volLaneFail) bad
    let mask := s.laneMask &&& (s.link link).partnerGood.toNat &&& (0x1FF - bad % 512)
    let width := match s.chooseLanes link mask with
      | some (2, _) => 8
      | some _ => 4
      | none => 0
    let s := s.logError { errOf .linkLaneFail 15 3 link with
      physLo := lane, detail := width, cycles := s.landing.fclk.toNat }
    done (s.startRetrain link)

/-- VOL_LCTL.RETRAIN written: an ACTIVE link retrains. -/
def State.retrainLink (s : State) (l : Nat) : State := if s.linkPhase l = 5 && !s.stopped then s.startRetrain l else s

/-- RETRAIN (R389). -/
def execRetrain (fn : Fn) (link : Nat) (s : State) : Result :=
  done (s.onWrite fn (linkBase link + Off.volLctl) fun s => s.retrainLink link)

/-- 100 ms in cycles of the Landing's FCLK. -/
def retrainLimit : Nat := 135000000

/-- RETRAIN_FAIL (R389): a retrain has lasted 100 ms; the link goes DOWN and trains again from DETECT. The third failure in a row does
the same where it occurs. -/
def execRetrainFail (link : Nat) (s : State) : Result :=
  if !s.runs then done s else
  let k := s.link link
  if k.retraining && decide (s.landing.fclk.toNat ≥ k.retrainStart + retrainLimit) then
    done ((s.linkGoesDown link).setPhase link 1)
  else done s

/-! ## Flits received (R385, R386) -/

/-- Take the ACK and CREDIT of a received flit. -/
def LinkState.takeControl (k : LinkState) (f : Flit) : LinkState := k.takeAck f.ack.toNat f.credit.toNat

/-- Resend from ACK + 1; eight resends with no progress start a retrain (R385). -/
def State.resendLink (s : State) (l : Nat) : State :=
  let s := s.countReg (linkBase l + Off.volReplayCount) 1
  let s := s.modLink l fun k => { k.resend with resends := k.resends + 1 }
  if (s.link l).resends ≥ 8 then s.startRetrain l else s

/-- What every good flit carries: ACK, CREDIT, NAK. -/
def State.control (s : State) (l : Nat) (f : Flit) : State :=
  let s := s.modLink l fun k => k.takeControl f
  let s := if f.nak then s.resendLink l else s
  s.pumpLink l

/-- IDLE (R382). -/
def execIdle (link : Nat) (flit : Flit) (s : State) : Result :=
  if !s.runs then done s else
  if s.linkPhase link = 5 && flit.ftype = 0 && crcGood flit then done (s.control link flit) else done s

/-- A discarded DATA flit: one NAK until the expected SEQ arrives (R385). -/
def State.discard (s : State) (l : Nat) : State :=
  if (s.link l).nakSent then s else (s.modLink l fun k => { k with nakSent := true }).sendIdle l true

/-- DATA (R385): a flit with a good CRC and the expected SEQ is accepted and routed, any other is discarded. Its buffer is free once it
has been sent on, performed or dropped (R386). -/
def execData (link : Nat) (flit : Flit) (s : State) : Result :=
  if !s.runs then done s else
  if s.linkPhase link ≠ 5 || flit.ftype ≠ 1 then done s
  else if !crcGood flit then done ((s.countReg (linkBase link + Off.volCrcCount) 1).discard link)
  else
    let s := s.control link flit
    if flit.seq.toNat ≠ (s.link link).expect then done (s.discard link)
    else
      let s := s.modLink link fun k => { k with expect := (k.expect + 1) % 4096, nakSent := false }
      done (s.sendFlit (some link) link flit)

/-- ACK_REPORT (R385). -/
def execAckReport (link : Nat) (s : State) : Result :=
  if !s.runs then done s else
  if s.linkPhase link = 5 then done (s.sendIdle link false) else done s

/-- REPLAY_TIMEOUT (R385). -/
def execReplayTimeout (link : Nat) (s : State) : Result :=
  if !s.runs then done s else
  if s.linkPhase link = 5 && decide ((s.link link).replay ≠ []) then done (s.resendLink link) else done s

/-! ## Requests and answers delivered here -/

/-- Whether a flit is the first of its virtual channel among those delivered at a link. -/
def headOf (f : Flit) (l : List (Bool × Flit)) : Option Bool :=
  match l.find? fun x => decide (x.2.vc = f.vc) with
  | some x => if x.2 = f then some x.1 else none
  | none => none

/-- Drop the first entry that holds a flit. -/
def dropFlit (f : Flit) : List (Bool × Flit) → List (Bool × Flit)
  | [] => []
  | x :: r => if x.2 = f then r else x :: dropFlit f r

/-- Take a delivered flit of an operation from a link and perform it; its buffer is then free (R386). -/
def State.deliver (s : State) (l : Nat) (f : Flit) (op : Nat) (perform : State → State) : State :=
  if !s.runs then s else
  match headOf f (s.link l).inbox with
  | none => s
  | some held =>
    if f.op.toNat ≠ op then s
    else
      let s := s.modLink l fun k => { k with
        inbox := dropFlit f k.inbox,
        giveBack := if held then k.giveBack.modify f.vc.toNat (· + 1) else k.giveBack }
      perform s

/-- WRITE (R383). -/
def execWrite (link : Nat) (flit : Flit) (s : State) : Result :=
  done (s.deliver link flit opWrite fun s => s.performWrite link flit)

/-- CBLOCK (R383, R362). -/
def execCblock (link : Nat) (flit : Flit) (s : State) : Result :=
  done (s.deliver link flit opCblock fun s => s.performCblock link flit)

/-- READ (Table 11-11). -/
def execRead (link : Nat) (flit : Flit) (s : State) : Result :=
  done (s.deliver link flit opRead fun s => s.performRead link flit)

/-- ATOMIC (Table 11-11). -/
def execAtomic (link : Nat) (flit : Flit) (s : State) : Result :=
  done (s.deliver link flit opAtomic fun s => s.performAtomic link flit)

/-- RESP (R384). -/
def execResp (link : Nat) (flit : Flit) (s : State) : Result :=
  done (s.deliver link flit opResp fun s => s.takeAnswer link flit)

/-- WACK (R383). -/
def execWack (link : Nat) (flit : Flit) (s : State) : Result :=
  done (s.deliver link flit opWack fun s => s.takeAnswer link flit)

/-- ERR (R384). -/
def execErr (link : Nat) (flit : Flit) (s : State) : Result :=
  done (s.deliver link flit opErr fun s => s.takeAnswer link flit)

/-! ## Registers (R391) -/

/-- The counts of a link at zero. -/
def State.clearLink (s : State) (l : Nat) : State :=
  let b := linkBase l
  ((s.setReg (b + Off.volCrcCount) 0).setReg (b + Off.volReplayCount) 0).setReg (b + Off.volRetrainCount) 0

/-- VOL_LCTL_CLR_COUNTS: the link's counts go to zero. -/
def execVolLctlClrCounts (fn : Fn) (link : Nat) (s : State) : Result :=
  done (s.onWrite fn (linkBase link + Off.volLctl) fun s => s.clearLink link)

/-- A write of VOL_ID: ignored while any link is past DETECT. -/
def State.writeVolId (s : State) (id : Nat) : State :=
  if (List.range 8).any fun l => decide (s.linkPhase l > 1) then s else s.setReg (routerBase + Off.volId) id

/-- VOL_ID_WRITE (R391). -/
def execVolIdWrite (fn : Fn) (id : BitVec 13) (s : State) : Result :=
  done (s.onWrite fn (routerBase + Off.volId) fun s => s.writeVolId id.toNat)

/-- ENABLE and ALLOW_X4 of VOL_LCTL written: 0 holds the link DOWN, 1 trains it from DETECT (R387, Table 11-14). -/
def State.enableLink (s : State) (l : Nat) (enable allowX4 : Bool) : State :=
  let s := s.setRegField (linkBase l + Off.volLctl) 0 2 (b2n enable + 2 * b2n allowX4)
  if enable then (if s.linkPhase l = 0 then s.setPhase l 1 else s)
  else if s.linkPhase l = 0 then s
  else if s.linkPhase l = 5 || (s.link l).retraining then s.linkGoesDown l
  else ((s.setPhase l 0).setLanes l 0 0).dropLink l

/-- VOL_LCTL_ENABLE (R391). -/
def execVolLctlEnable (fn : Fn) (link : Nat) (enable allowX4 : Bool) (s : State) : Result :=
  done (s.onWrite fn (linkBase link + Off.volLctl) fun s => s.enableLink link enable allowX4)

end Sys2Proof.Machine
end

