-- ==== Sys2Proof/Machine/Matrix.lean ====
section
/-! DEFINITION. The operations of the M slot (R146 to R149). Each command issues the long word that it carries, with its
operation in the M slot: the operation's own effect is that of `mEffect`. -/

namespace Sys2Proof.Machine

/-- M-slot MMAC (R147, R148): the product of two tiles is added to a bank. -/
def execMmac (lw : LongWord) (qa qb : BitVec 5) (acc : BitVec 2) (keepA keepB zero : Bool) (s : State) : Result :=
  done (s.issue { lw with m := some {
    op := .mmac, qa := qa, qb := qb, qc := 0, acc := acc, keepA := keepA, keepB := keepB, zero := zero, round := 0, ovf := false } })

/-- M-slot MDRAIN (R147, R148): a bank is converted and pushed. -/
def execMdrain (lw : LongWord) (qc : BitVec 5) (acc : BitVec 2) (zero : Bool) (round : BitVec 2) (ovf : Bool) (s : State) : Result :=
  done (s.issue { lw with m := some {
    op := .mdrain, qa := 0, qb := 0, qc := qc, acc := acc, keepA := false, keepB := false, zero := zero, round := round, ovf := ovf } })

/-- M-slot MZERO (R147, R148): a bank is set to zero. -/
def execMzero (lw : LongWord) (acc : BitVec 2) (s : State) : Result :=
  done (s.issue { lw with m := some {
    op := .mzero, qa := 0, qb := 0, qc := 0, acc := acc, keepA := false, keepB := false, zero := false, round := 0, ovf := false } })

/-- M-slot MLDA (R147, R148): a bank is set to a tile. -/
def execMlda (lw : LongWord) (qa : BitVec 5) (acc : BitVec 2) (keepA : Bool) (s : State) : Result :=
  done (s.issue { lw with m := some {
    op := .mlda, qa := qa, qb := 0, qc := 0, acc := acc, keepA := keepA, keepB := false, zero := false, round := 0, ovf := false } })

/-- M-slot MTR (R147, R148): the transpose of a tile is pushed. -/
def execMtr (lw : LongWord) (qa qc : BitVec 5) (keepA : Bool) (s : State) : Result :=
  done (s.issue { lw with m := some {
    op := .mtr, qa := qa, qb := 0, qc := qc, acc := 0, keepA := keepA, keepB := false, zero := false, round := 0, ovf := false } })

end Sys2Proof.Machine
end

