-- ==== Sys2Proof/Machine/Reliability.lean ====
section
/-! DEFINITION. Reliability and service (R420 to R448): error records leaving the Landing, core and group tests, floor
evacuation and channel folds. -/

namespace Sys2Proof.Machine

/-! ## Records (R425, R426) -/

/-- log2 of the error ring's entries: LOG2 within 8 to 16. -/
def State.errLog2 (s : State) : Nat := max 8 (min 16 (s.regField (errBase + Off.errRingBaseLo) 0 5))

/-- The error ring's bus address. -/
def State.errRing (s : State) : Nat :=
  s.reg (errBase + Off.errRingBaseLo) / 4096 * 4096 + 2 ^ 32 * s.reg (errBase + Off.errRingBaseHi)

/-- Step 1 of R425: the record goes to the error ring, or is dropped where the ring is full. -/
def State.ringRecord (s : State) (r : ErrRec) : State :=
  let pidx := s.reg (errBase + Off.errRingPidx)
  let held := (pidx + 2 ^ 32 - s.reg (errBase + Off.errRingCidx)) % 2 ^ 32
  if !s.regBit (errBase + Off.errCtl) 0 then s
  else if held < 2 ^ s.errLog2 then
    let s := if s.portUp && !s.pfStopped then s.putHost (s.errRing + 32 * (pidx % 2 ^ s.errLog2)) (errBytes r) else s
    s.setReg (errBase + Off.errRingPidx) ((pidx + 1) % 2 ^ 32)
  else
    (s.setReg (errBase + Off.errDropped) (min (2 ^ 32 - 1) (s.reg (errBase + Off.errDropped) + 1))).setRegBit
      (errBase + Off.errStat) 30 true

/-- CE_THRESH, where 0 acts as 1. -/
def State.ceThresh (s : State) : Nat := max 1 (s.regField (errBase + Off.errCtl) 16 16)

/-- A CORRECTED record counted in CE_PENDING; true where the count reaches CE_THRESH. -/
def State.countCe (s : State) : State × Bool :=
  let a := errBase + Off.errStat
  let n := s.regField a 0 16 + 1
  if n < 2 ^ 16 then
    let s := s.setRegField a 0 16 n
    if n = s.ceThresh then (s.setRegBit a 31 true, true) else (s, false)
  else (s, false)

/-- A CONTAINED record of EXTENT 1 or 2 marks its partition (R373, R426). -/
def State.markContained (s : State) (r : ErrRec) : State :=
  if r.part < s.units && (r.extent = 1 || r.extent = 2) then
    (((s.setRegBit (partBase r.part + Off.pstat) 26 true).partEvent r.part).reportAer (.vf (r.part + 1)) .nonFatal)
  else s

/-- Step 2 of R425: ERR_STAT and the vectors of R426. -/
def State.countRecord (s : State) (r : ErrRec) : State :=
  match r.cls with
  | .corrected =>
    let (s, reached) := s.countCe
    if reached || r.code = .memCeRate then s.signal 1 else s
  | .deferred => s
  | .contained => (s.signal 0).markContained r
  | .fatal => (s.fatalStop).signal 0

/-- Step 3 of R425: Aldeah logs the record, with any count of lost ones, or it waits for Aldeah. -/
def State.passRecord (s : State) (r : ErrRec) : State :=
  if s.aldeah.up then
    let s := s.aldeahTakes r
    if s.landing.recordsLost = 0 then s
    else (s.logEntry 7 (logBody [s.landing.recordsLost]) false).modLanding fun l => { l with recordsLost := 0 }
  else s.modLanding fun l => { l with waiting := l.waiting ++ [r] }

/-- ERROR_RECORD_LEAVE (R425): the first record of the queue leaves it. -/
def execErrorRecordLeave (s : State) : Result :=
  match s.landing.records with
  | [] => done s
  | r :: l => done ((((s.modLanding fun d => { d with records := l }).ringRecord r).countRecord r).passRecord r)

/-- A write of ERR_STAT: 1 clears CE_ALERT with CE_PENDING, and RING_OVF. -/
def State.writeErrStat (s : State) (v : Nat) : State :=
  let a := errBase + Off.errStat
  let s := if nbit v 31 then (s.setRegBit a 31 false).setRegField a 0 16 0 else s
  if nbit v 30 then s.setRegBit a 30 false else s

/-- ERR_STAT_WRITE (R426). -/
def execErrStatWrite (fn : Fn) (value : Word) (s : State) : Result :=
  done (s.onWrite fn (errBase + Off.errStat) fun s => s.writeErrStat value.toNat)

/-! ## Cores (R432, R433) -/

/-- The physical cores of a Spire that the core repair map of OTP does not name as failed (R399), lowest first. -/
def State.goodCores (s : State) (sp : Nat) : List Nat :=
  let failed := s.otp.num (0x100 + 16 * sp) 16
  (List.range 76).filter fun i => !nbit failed i

/-- The physical cores bound in the factory to the logical cores of a Spire, in their order: the lowest that have not failed
(R19; DESIGN CHOICE, log 24). -/
def State.boundCores (s : State) (sp : Nat) : List Nat := (s.goodCores sp).take (Config.coresPerSpire s.variant)

/-- The spare physical cores of a Spire, in the order of their use: those that have not failed beyond the ones bound (Table 13-6). -/
def State.spareCores (s : State) (sp : Nat) : List Nat :=
  ((s.goodCores sp).drop (Config.coresPerSpire s.variant)).take (Config.sparesPerSpire s.variant)

/-- Spare cores left on a Spire. -/
def State.sparesLeft (s : State) (sp : Nat) : Nat := (s.spareCores sp).length - mget 0 s.spares sp

/-- BUSY, DONE, STATUS and SPARES_LEFT of ERR_CORE_STAT. -/
def State.coreStat (s : State) (busy done : Bool) (st : Status) (core : Nat) : State :=
  s.setReg (errBase + Off.errCoreStat)
    (b2n busy * 2 ^ 31 + b2n done * 2 ^ 30 + statusCode st * 2 ^ 16 + s.sparesLeft (s.spireOf core) * 2 ^ 12)

/-- GO written to ERR_CORE_TEST: ignored while a test runs, refused for a core that is not there, else the core is drained. -/
def State.testCore (s : State) (replace : Bool) (core : Nat) : State :=
  let a := errBase + Off.errCoreStat
  if s.regBit a 31 then s
  else if !s.coreExists core || (s.core core).retired || s.stopped then s.coreStat false true .refused core
  else (s.modCore core fun k => { k with testing := some replace, drained := false }).coreStat true (s.regBit a 30) .ok core

/-- Whether a group is in G0 or G1. -/
def State.serving (s : State) (g : Nat) : Bool :=
  match (s.group g).pstate with
  | .g0 | .g1 => !(s.group g).outOfService
  | _ => false

/-- The partition that owns the tower of a core's group. -/
def State.coreOwner (s : State) (core : Nat) : Nat := s.owner (Config.groupOfCore core)

/-- A record of a core (Table 13-3). -/
def State.coreRec (s : State) (code : ErrCode) (core detail : Nat) : ErrRec :=
  { errOf code (s.coreOwner core) 0 core with
    physHi := s.spireOf core, physLo := s.physCore core, detail := detail, cycles := (s.core core).cycles.toNat }

/-- An uncorrectable error in a core's internal arrays: its job faults with UNCORRECTED, and the device starts the test itself
(R427, R432, Tables 13-4 and 13-5). An error in a core under test is recorded, and the test goes on (R429). -/
def State.coreError (s : State) (core : Nat) (array : Word) : State :=
  let k := s.core core
  if !s.coreExists core || k.retired || !s.runs || !s.serving (Config.groupOfCore core) then s
  else
    let s := s.logError { s.coreRec .coreUe core array.toNat with
      status := if k.task.isSome then .uncorrected else .ok }
    let s := s.faultTask core .uncorrected 0
    if k.testing.isSome then s
    else (s.modCore core fun k => { k with testing := some false, drained := false }).coreStat true
      (s.regBit (errBase + Off.errCoreStat) 30) .ok core

/-- ERR_CORE_TEST (R432). -/
def execErrCoreTest (cause : CoreTest) (core : BitVec 9) (s : State) : Result :=
  match cause with
  | .go fn replace => done (s.onWrite fn (errBase + Off.errCoreTest) fun s =>
      (s.setReg (errBase + Off.errCoreTest) (b2n replace * 2 ^ 30 + core.toNat)).testCore replace core.toNat)
  | .coreUe array => done (s.coreError core.toNat array)

/-- Whether a core other than `core` is under test. -/
def State.otherTests (s : State) (core : Nat) : Bool := s.cores.any fun e => decide (e.1 ≠ core) && e.2.testing.isSome

/-- CORE_DRAINED (R432, step 1): the core holds no task any more. -/
def execCoreDrained (core : Nat) (s : State) : Result :=
  let k := s.core core
  if k.testing.isSome && k.task.isNone && s.runs then done (s.modCore core fun k => { k with drained := true }) else done s

/-- A physical core takes a logical index: its state is that of a core at power-up, with a microcode slot (R414) and the
physical core's own cycle count, which no test resets (R298). -/
def freshCore (phys : Nat) (ucode : Bool) (cycles : BitVec 64) : Core := { phys := some phys, ucodeB := ucode, cycles := cycles }

/-- The microcode that a core's partition runs, or the default. -/
def State.coreUcode (s : State) (core : Nat) : Bool :=
  let p := s.coreOwner core
  if p < s.units then s.partUcode p else s.directory.ucode

/-- A spare physical core takes the logical index and brings its own cycle count, which is free (R298, DESIGN CHOICE, log 147),
or the core is retired (R432, R433). -/
def State.replaceCore (s : State) (core : Nat) : State :=
  let sp := s.spireOf core
  let used := mget 0 s.spares sp
  if s.sparesLeft sp = 0 then
    let w := errBase + Off.errCoreOut + 4 * (core / 32)
    let s := s.logError (s.coreRec .coreRetired core 0)
    (s.setCore core { freshCore 0 (s.coreUcode core) (s.core core).cycles with phys := none, retired := true }).setRegBit w
      (core % 32) true
  else
    let new := (s.spareCores sp).getD used 0
    let (s, ok) := s.writeJournal 1 sp 255 255 (s.physCore core + 256 * new)
    let s := s.logError (s.coreRec .coreReplaced core (repairDetail new ok))
    { (s.setCore core (freshCore new (s.coreUcode core) (BitVec.ofNat 64 (s.draw 25 new)))).tick with
      spares := mset 0 s.spares sp (used + 1) }

/-- CORE_BIST_DONE (R432, steps 3 and 4). A core that passes with no spare for REPLACE stays (DESIGN CHOICE, log 60). -/
def execCoreBistDone (core : Nat) (pass : Bool) (s : State) : Result :=
  let k := s.core core
  let back (s : State) : State := s.setCore core (freshCore (s.physCore core) k.ucodeB k.cycles)
  match k.testing, k.drained && s.runs with
  | some replace, true =>
    let busy := s.otherTests core
    if pass && !replace then done ((back s).coreStat busy true .ok core)
    else if pass && s.sparesLeft (s.spireOf core) = 0 then done ((back s).coreStat busy true .refused core)
    else done ((s.replaceCore core).coreStat busy true (if pass then .ok else .uncorrected) core)
  | _, _ => done s

/-! ## Groups (R396, R443) -/

/-- A group goes out of service: held at G4, logged and journalled (R396, R441). -/
def State.groupOut (s : State) (g detail : Nat) : State :=
  let (s, ok) := s.writeJournal 7 g 255 255 detail
  let s := s.logError { errOf .groupOut (s.owner g) 1 g with detail := repairDetail detail ok, cycles := (s.tower g).fclk.toNat }
  s.modGroup g fun x => { x with outOfService := true, pstate := .g4 }

/-- BUSY, DONE and STATUS of ERR_GROUP_STAT. -/
def State.groupStat (s : State) (busy done : Bool) (st : Status) : State :=
  s.setReg (errBase + Off.errGroupStat) (b2n busy * 2 ^ 31 + b2n done * 2 ^ 30 + statusCode st * 2 ^ 16)

/-- GO written to ERR_GROUP_TEST: refused unless the group is unassigned and in service (R443). -/
def State.testGroup (s : State) (g : Nat) : State :=
  let a := errBase + Off.errGroupStat
  if s.regBit a 31 then s
  else if s.units ≤ g || s.owner g ≠ 15 || (s.group g).outOfService || s.stopped then s.groupStat false true .refused
  else (s.modGroup g fun x => { x with testing := true }).groupStat true (s.regBit a 30) .ok

/-- ERR_GROUP_TEST (R443). -/
def execErrGroupTest (fn : Fn) (group : BitVec 4) (s : State) : Result :=
  done (s.onWrite fn (errBase + Off.errGroupTest) fun s =>
    (s.setReg (errBase + Off.errGroupTest) group.toNat).testGroup group.toNat)

/-- GROUP_TEST_DONE (R443): the group is left at G4 with its contents lost; on a failure it goes out of service. -/
def execGroupTestDone (group : Nat) (failedStep : Option Nat) (s : State) : Result :=
  if !(s.group group).testing || !s.runs then done s
  else
    let s := (s.exitG4 group).modGroup group fun x => { x with testing := false, pstate := .g4 }
    match failedStep with
    | none => done (s.groupStat false true .ok)
    | some n => done ((s.groupOut group n).groupStat false true .uncorrected)

/-! ## Floors (R434, R435) -/

/-- Whether a tower's spare floor is free: neither SKIP nor a repair has used it, and one is fitted (R156, R448). -/
def State.spareFree (s : State) (t : Nat) : Bool :=
  (s.tower t).spareFor.isNone && decide ((s.tower t).skip ≥ 16) && decide (s.variant = .kq12)

/-- Whether an evacuation may start (R435). -/
def State.canEvacuate (s : State) (t : Nat) : Bool :=
  let tw := s.tower t
  s.spareFree t && tw.migration.isNone && !tw.sanitiseBusy && tw.evac.isNone && s.serving t && !s.stopped

/-- GO written to TWR_EVAC: the evacuation starts, commands that run carry DEGRADED (R202), or it is refused. -/
def State.startEvac (s : State) (t floor : Nat) : State :=
  let a := towerBase t + Off.twrEvacStat
  if s.canEvacuate t then
    (s.modTower t fun tw => { tw with evac := some floor, running := tw.running.map fun r => { r with degraded := r.degraded || r.working } }).setReg a
      (moveStat true (s.regBit a 30) .ok 0)
  else s.setReg a (putField (putField (s.reg a) 16 8 (statusCode .refused)) 30 1 1)

/-- TWR_EVAC (R434). -/
def execTwrEvac (fn : Fn) (tower : Nat) (floor : BitVec 4) (s : State) : Result :=
  done (s.onWrite fn (towerBase tower + Off.twrEvac) fun s =>
    (s.setReg (towerBase tower + Off.twrEvac) floor.toNat).startEvac tower floor.toNat)

/-- Words of a floor. -/
def floorWords : Nat := 64 * 65536 * 64

/-- A range of words that lies in [src, src + n), moved to `dst`. -/
def moveFill (src dst n : Nat) (f : Nat × Nat × WordMark) : Option (Nat × Nat × WordMark) :=
  let lo := max src f.1
  let hi := min (src + n) (f.1 + f.2.1)
  if lo < hi then some (lo - src + dst, hi - lo, f.2.2) else none

/-- Words copied as they stand, with their marks. -/
def Ram.copy (r : Ram) (src dst n : Nat) : Ram :=
  let clean := r.forget dst n
  let marks := (r.marks.filter fun x => decide (src ≤ x.1) && decide (x.1 < src + n)).foldl (fun m x =>
    mset none m (x.1 - src + dst) x.2) clean.marks
  { bytes := clean.bytes.paste (32 * dst) (32 * n) (r.bytes.slice (32 * src) (32 * n)), marks := marks,
    fills := r.fills.filterMap (moveFill src dst n) ++ clean.fills }

/-- The first word of a physical floor. -/
def floorStart (pf : Nat) : Nat := wordNumber pf 0 0 0

/-- Copy the words of a logical frame to physical floor 16 (R434, step 2). -/
def State.copyFrame (s : State) (t frame n : Nat) : State × Nat :=
  let band := (mget {} (s.tower t).frames frame).band
  (List.range frameWords).foldl (fun x i =>
    State.copyWord x.1 (framePlace t frame i) (wordNumber 16 (frame / 64 % 64) (band * 1024) 0 + i) x.2) (s, n)

/-- The copy of a whole floor: rows outside valid frames as they stand, the others checked. -/
def State.copyFloor (s : State) (t floor : Nat) : State × Nat :=
  let pf := (s.tower t).physFloor floor
  let frames := ((s.tower t).frames.filter fun e => e.2.valid && decide (e.1 / 4096 = floor)).map (·.1)
  let s := s.modTower t fun tw => { tw with ram := tw.ram.copy (floorStart pf) (floorStart 16) floorWords }
  frames.foldl (fun x f => State.copyFrame x.1 t f x.2) (s, 0)

/-- A logical floor mapped onto the spare, its former floor powered down. -/
def Tower.useSpare (tw : Tower) (floor : Nat) : Tower :=
  { tw with ram := tw.ram.forget (floorStart (tw.physFloor floor)) floorWords, spareFor := some floor, evac := none }

/-- EVACUATION_DONE (R434, steps 2 to 4). -/
def execEvacuationDone (tower : Nat) (s : State) : Result :=
  match (s.tower tower).evac with
  | none => done s
  | some floor =>
    if !s.runs then done s
    else
      let old := (s.tower tower).physFloor floor
      let (s, n) := s.copyFloor tower floor
      let st : Status := if n = 0 then .ok else .poison
      let s := (s.modTower tower fun tw => tw.useSpare floor).setReg (towerBase tower + Off.twrEvacStat) (moveStat false true st n)
      let (s, ok) := s.writeJournal 2 tower 16 255 floor
      done (s.logError { errOf .floorEvac (s.owner tower) 1 tower with
        physHi := old, detail := repairDetail (statusCode st * 65536 + min n 65535) ok, cycles := (s.tower tower).fclk.toNat })

/-! ## Channels (R438) -/

/-- The channel that carries a folded bridge channel's traffic: c XOR 1, then the next even steps that have not failed. -/
def foldOnto (failed c : Nat) : Nat :=
  (((c ^^^ 1) :: (List.range 15).map fun k => (c + 2 * (k + 1)) % 32).find? fun x => !nbit failed x).getD c

/-- A bridge channel is folded. -/
def State.foldBridge (s : State) (t c : Nat) : State :=
  let tw := s.tower t
  if nbit tw.chanFail c then s
  else
    let s := s.modTower t fun tw => { tw with chanFail := tw.chanFail + 2 ^ c }
    let (s, ok) := s.writeJournal 6 t 255 255 c
    s.logError { errOf .chanFold tw.owner 8 (Config.spireOfGroup s.variant t) with
      physHi := 1, physLo := c, detail := repairDetail (foldOnto (tw.chanFail + 2 ^ c) c) ok, cycles := tw.fclk.toNat }

/-- R428 with R429: a partition is reset with no drain window; a procedure that already runs has its window end at once. -/
def State.containPart (s : State) (p : Nat) : State :=
  match (s.part p).state with
  | .enabled => s.resetPartition p 0
  | .draining => s.modPart p fun d =>
      { d with disable := d.disable.map fun x => { x with window := 0 },
               jobs := mmapv {} (fun _ b => { b with drainLen := 0 }) d.jobs }
  | _ => s

/-- Both TSV channels of a floor have failed: its contents are lost (R435, R438). -/
def State.loseFloor (s : State) (t floor : Nat) : State :=
  let tw := s.tower t
  let a := towerBase t + Off.twrEvacStat
  let s := if tw.evac = some floor then
      (s.modTower t fun tw => { tw with evac := none }).setReg a (moveStat false true .uncorrected (s.regField a 0 16)) else s
  let lost (detail : Nat) : ErrRec :=
    { errOf .floorLost tw.owner 1 t with physHi := tw.physFloor floor, detail := detail, cycles := tw.fclk.toNat }
  let s := if s.spareFree t then
      let (s, ok) := s.writeJournal 2 t 16 255 floor
      let s := s.modTower t fun tw =>
        { tw.useSpare floor with
          ram := (tw.useSpare floor).ram.forget (floorStart 16) floorWords,
          frames := mmapv {} (fun i f => if i / 4096 = floor then { f with init := false } else f) tw.frames }
      s.logError (lost (repairDetail 1 ok))
    else (s.logError (lost 0)).groupOut t 0x100
  s.containPart tw.owner

/-- A TSV channel is folded onto the other of its floor, or the floor is lost. -/
def State.foldTsv (s : State) (t c : Nat) : State :=
  let tw := s.tower t
  if nbit tw.tsvFail c then s
  else
    let s := s.modTower t fun tw => { tw with tsvFail := tw.tsvFail + 2 ^ c }
    if nbit tw.tsvFail (c ^^^ 1) then s.loseFloor t (c / 2)
    else
      let pf := tw.physFloor (c / 2)
      let (s, ok) := s.writeJournal 6 t pf 255 (c + 32)
      s.logError { errOf .chanFold tw.owner 1 t with
        physHi := pf, detail := repairDetail (c ^^^ 1) ok, cycles := tw.fclk.toNat }

/-- CHAN_FOLD (R438): a channel has failed 16 retries in a row. -/
def execChanFold (tower channel : Nat) (kind : ChannelKind) (s : State) : Result :=
  if tower < s.units && channel < 32 && s.runs then
    match kind with
    | .bridge => done (s.foldBridge tower channel)
    | .tsv => done (s.foldTsv tower channel)
  else done s

/-! ## Errors in a unit's own storage (R428, R467) -/

/-- A record of a Keep (Table 13-3). -/
def State.keepRec (s : State) (code : ErrCode) (t addr detail : Nat) : ErrRec :=
  { errOf code (s.owner t) 1 t with physHi := 0xFE, addr := addr, detail := detail, cycles := (s.tower t).fclk.toNat }

/-- The running commands of a Keep stop at once; their unfinished writes are not made (R428). -/
def State.stopKeep (s : State) (t : Nat) : State :=
  let s := ((s.tower t).running.filter fun r => r.working).foldl (fun s r => s.cutWork t r) s
  s.modTower t fun tw => { tw with running := [] }

/-- The cells of a KV head of a staged entry are poisoned (R241). -/
def Tower.poisonStaged (tw : Tower) (table entry head : Nat) : Tower :=
  tw.setStaged table ((tw.staged table).modify entry fun x => { x with poison := x.poison ++ [head] })

/-- What an error in a Keep's storage brings: corrected, it is logged; uncorrectable, it contains the tower's partition, and in the
cells of a staged entry it poisons them (R467, Table 13-4a). -/
def State.keepUpset (s : State) (t : Nat) : Upset → State
  | .unit region false => s.logError (s.keepRec .keepSramCe t 0 region)
  | .unit region true => ((s.logError (s.keepRec .keepCtlUe t 0 region)).stopKeep t).containPart (s.owner t)
  | .staged table entry head =>
    if entry < ((s.tower t).staged table).length then
      (s.logError (s.keepRec .stagingUe t table 0)).modTower t fun tw => tw.poisonStaged table entry head
    else s
  | .none | .soft _ | .hard _ => s

/-- TOWER_ACCESS (R159, R467): a read or write of a word of a tower, with what its Keep's own storage suffers. -/
def execTowerAccess (tower wordAddr : Nat) (engineId : BitVec 16) (access : WordAccess) (upset : Upset) (s : State) : Result :=
  if !s.runs then done s else done ((s.accessTower tower wordAddr engineId access upset).keepUpset tower upset)

/-- NARROW_WRITE (R169, R170): an indivisible read-modify-write of part of a word. -/
def execNarrowWrite (tower wordAddr : Nat) (engineId : BitVec 16) (offset : Nat) (bytes : List Byte) (upset : Upset)
    (s : State) : Result :=
  if !s.runs then done s else
  done ((s.accessTower tower wordAddr engineId (.narrow offset bytes) upset).keepUpset tower upset)

/-- CUPOLA_SCRATCH_ACCESS (R465): an access of word `word` of a scratch granule at the Cupola controller. An uncorrectable error in
the controller's own state contains the granule's partition (Table 13-4). -/
def execCupolaScratchAccess (granule word : Nat) (access : WordAccess) (upset : Upset) (s : State) : Result :=
  if !s.runs then done s else
  let g := s.granule granule
  if !g.scratch || g.busy then done s
  else
    let t := s.accessScratch granule word access upset
    match upset with
    | .unit _ true =>
      done ((t.logError { t.cupRec .cupolaCtlUe g.part granule 0 with addr := 0 }).containPart g.part)
    | _ => done t

end Sys2Proof.Machine
end

