-- ==== Sys2Proof/Machine/Module.lean ====
section
/-! DEFINITION. The module and start-up (R393 to R398, R449 to R459): power-up and power-down at the connector, the start-up
sequence, alerts, and the PCI Express port's reset and width. -/

namespace Sys2Proof.Machine

/-- The module's signals changed. -/
def State.modMod (s : State) (f : Module → Module) : State := { s with mod := f s.mod }

/-! ## Start-up, steps 2 and 3 (R393, R405, R412) -/

/-- The slot that the boot ROM starts, and whether it is the fallback; none in recovery. -/
def State.bootSlot (s : State) : Option (Bool × Bool) :=
  let a := s.directory.active
  if s.slotVerifies false a then some (a, false)
  else if s.setting 3 % 2 = 1 && s.slotVerifies false (!a) then some (!a, true)
  else none

/-- SEQ of the next log entry after a power-up: one more than the highest in either area (R409). -/
def State.resumeSeq (s : State) : Nat :=
  let top (l : List LogEntry) : Nat := match l.getLast? with
    | some e => e.seq + 1
    | none => 0
  max (top s.aldeah.area0) (top s.aldeah.area1)

/-- The Aldeah image of a slot runs. -/
def State.startAldeah (s : State) (slotB fallback : Bool) : State :=
  let s := s.modAldeah fun a => { a with up := true, slotB := slotB, settings := s.chosenSettings, nextSeq := s.resumeSeq }
  let s := (s.setRegBit Off.gstat 27 slotB).setRegBit Off.gstat 26 fallback
  s.setRegBit Off.gstat 28 s.chosenSettings.isNone

/-- The links as the settings name them. -/
def State.settleLinks (s : State) : State :=
  let word := s.useSetting 0x14 0xFFFF
  (List.range 8).foldl (fun s l => s.enableLink l (nbit word l) (nbit word (8 + l))) s

/-- The registers that Aldeah writes from the settings in use (R405). -/
def State.applySettings (s : State) : State :=
  let s := s.setReg (routerBase + Off.volId) (s.useSetting 0xC 0x1FFF)
  let s := s.settleLinks
  let s := s.setReg (govBase + Off.govBudget) (s.useSetting 0x18 (s.reg (govBase + Off.govBudget)))
  let s := s.setRegField (govBase + Off.govTherm) 16 8 (s.useSetting 0x1C 100)
  (List.range s.units).foldl (fun s t => s.setReg (towerBase t + Off.twrScrubRate) (s.useSetting 0x20 1697)) s

/-- The logical cores of a Spire bound to the physical cores of the factory (R19). -/
def State.bindSpire (s : State) (sp : Nat) : State :=
  let n := Config.coresPerSpire s.variant
  (s.boundCores sp).zipIdx.foldl (fun s x => s.modCore (n * sp + x.2) fun k => { k with phys := some x.1 }) s

/-- Every logical core bound to a physical core, from the repair map in OTP (R19, R399), with its default microcode. -/
def State.factoryBinding (s : State) : State :=
  let s := (List.range (Config.cores s.variant)).foldl (fun s c => s.modCore c fun k => { k with ucodeB := s.directory.ucode }) s
  (List.range 4).foldl State.bindSpire s

/-! ## The journal (R441) -/

/-- The logical core of a Spire that a physical core holds. -/
def State.coreAt (s : State) (sp phys : Nat) : Option Nat :=
  (List.range (Config.cores s.variant)).find? fun c => decide (s.spireOf c = sp) && decide ((s.core c).phys = some phys)

/-- The logical floor that lies on a physical floor. -/
def Tower.logicalFloor (tw : Tower) (pf : Nat) : Option Nat := (List.range 16).find? fun f => decide (tw.physFloor f = pf)

/-- One entry of the journal applied. A ROW entry does not hold the code word that failed: 64 stands for it. GROUP entries do
not outlast the power cycle. -/
def State.applyEntry (s : State) (e : JournalEntry) : State :=
  match e.kind with
  | 1 =>
    let s := match s.coreAt e.unit (e.place % 256) with
      | some c => s.modCore c fun k => { k with phys := some (e.place / 256 % 256) }
      | none => s
    { s with spares := mset 0 s.spares e.unit (mget 0 s.spares e.unit + 1) }
  | 2 => s.modTower e.unit fun tw => { tw with spareFor := some e.place }
  | 3 => s.modTower e.unit fun tw => { tw with rowRepairs := tw.rowRepairs ++ [⟨e.floor, e.bank, e.place % 2 ^ 16, 64⟩] }
  | 4 => s.modTower e.unit fun tw => { tw with colRepairs := tw.colRepairs ++ [⟨e.floor, e.bank, 0, e.place % 2 ^ 16⟩] }
  | 5 => s.modTower e.unit fun tw => match tw.logicalFloor e.floor with
    | some f => tw.retire f e.bank e.place
    | none => tw
  | 6 => s.modTower e.unit fun tw =>
    if nbit e.place 5 then { tw with tsvFail := tw.tsvFail ||| 2 ^ (e.place % 32) }
    else { tw with chanFail := tw.chanFail ||| 2 ^ (e.place % 32) }
  | _ => s

/-- The factory's floor map, then the journal's entries in their order. -/
def State.applyMaps (s : State) : State :=
  let s := (List.range s.units).foldl (fun s t =>
    s.modTower t fun tw => { tw with skip := (s.otp.get (0x140 + 4 * t)).toNat, ucodeB := s.directory.ucode }) s
  s.journal.foldl State.applyEntry s

/-! ## Failures of start-up (Table 12-2) -/

/-- A floor that fails: the spare floor replaces it, or its group is out of service. -/
def State.failFloor (s : State) (t floor step : Nat) : State :=
  if s.spareFree t then
    let old := (s.tower t).physFloor floor
    let (s, ok) := (s.modTower t fun tw => tw.useSpare floor).writeJournal 2 t 16 255 floor
    s.logError { errOf .floorEvac 15 1 t with physHi := old, detail := repairDetail 0 ok }
  else s.groupOut t step

/-- A core that fails: a spare takes its index, or its group is out of service. Groups outside LBIST_MASK are not tested. -/
def State.failCore (s : State) (c : Nat) : State :=
  let g := Config.groupOfCore c
  if !s.coreExists c || !nbit (s.useSetting 0x10 0xFFF) g then s
  else if s.sparesLeft (s.spireOf c) = 0 then s.groupOut g 8
  else s.replaceCore c

/-- The outcome of a failure. A group already out of service stays so. -/
def State.bootFailure (s : State) (f : BootFailure) : State :=
  let on (g : Nat) (f : State → State) : State := if g < s.units && !(s.group g).outOfService then f s else s
  match f with
  | .core c => on (Config.groupOfCore c) fun s => s.failCore c
  | .floor t floor step => on t fun s => if floor < 16 then s.failFloor t floor step else s
  | .keep t step => on t fun s => s.groupOut t step
  | .repairMap t => on t fun s => s.groupOut t 7
  | .landing => s.fatalStop

/-- Whether any group passed. -/
def State.anyGroup (s : State) : Bool := (List.range s.units).any fun g => !(s.group g).outOfService

/-- The regulator faults latched before this power-up, logged as SUPPLY_FAIL (R459); the voltage at the fault is not known. -/
def State.logLatched (s : State) : State :=
  let s := s.mod.faults.foldl (fun s page => (s.aldeahTakes (s.powerRec .supplyFail page 2 (s.draw 20 page % 2 ^ 32))).tick) s
  s.modMod fun m => { m with faults := [] }

/-! ## The port (R368, R394, R454) -/

/-- The highest rate of the port in GT/s (R405). -/
def State.maxRate (s : State) : Nat := s.useSetting 0x2C 64

/-- The port trains at x16 and the highest rate, while PERST# is released (DESIGN CHOICE, log 26). -/
def State.trainPort (s : State) : State :=
  if s.mod.modPg && !s.mod.perst && s.aldeah.up then { s with port := { s.port with width := 16, rate := s.maxRate, trained := 16 } } else s

/-- PERST_RELEASE (R454). -/
def execPerstRelease (s : State) : Result := done ((s.modMod fun m => { m with perst := false }).trainPort)

/-- PERST_ASSERT (R398): after READY, a PF FLR with no drain window; the port is held in reset. -/
def execPerstAssert (s : State) : Result :=
  if s.mod.perst then done s
  else
    let s := if s.ready && !s.stopped && !s.pfFlr then s.flrPf false else s
    done ({ s with port := {} }.modMod fun m => { m with perst := true })

/-- The rates of the PCI Express specification in GT/s, 2 for 2.5. -/
def portRates : List Nat := [2, 5, 8, 16, 32, 64]

/-- PCIE_LINK_CHANGE (Table 11-1, R368): the port trains again at a width and rate, or by L0p its width changes to x8, x4 or x2, and
back. -/
def execPcieLinkChange (width rate : Nat) (l0p : Bool) (s : State) : Result :=
  if !s.mod.modPg || s.mod.perst || !s.aldeah.up then done s
  else if l0p then
    if s.port.width ≠ 0 && ([2, 4, 8].contains width || width = s.port.trained) && width ≤ s.port.trained then
      done { s with port := { s.port with width := width } }
    else done s
  else if [0, 1, 2, 4, 8, 16].contains width && portRates.contains rate && rate ≤ s.maxRate then
    done { s with port := { s.port with width := width, rate := if width = 0 then 0 else rate, trained := width } }
  else done s

/-! ## Power-up (R453, R454) -/

/-- GSTAT.GROUP_OUT. -/
def State.groupOutMask (s : State) : Nat :=
  (List.range s.units).foldl (fun m g => if (s.group g).outOfService then m + 2 ^ g else m) 0

/-- The BOOT entry of a start-up that reached a step (Table 12-9). -/
def State.logBoot (s : State) (step : Nat) : State :=
  let b := s.aldeah.slotB
  s.logEntry 2 (logBody
    [b2n b, s.slotVersion false b, s.slotSvn false b, step, s.groupOutMask, b2n (s.regBit Off.gstat 28)]) true

/-- Steps 1 to 9 of Table 12-1 with their failures; a start-up that cannot reach READY logs how far it came. -/
def State.startUp (s : State) (failures : List BootFailure) : State :=
  match s.bootSlot with
  | none => (s.modAldeah fun a => { a with recovery := true }).setRegField Off.gstat 20 4 2
  | some (slotB, fallback) =>
    let s := ((s.startAldeah slotB fallback).applySettings).factoryBinding.applyMaps.logLatched
    let s := (failures.foldl State.bootFailure s).setRegField Off.gstat 20 4 9
    let s := if s.anyGroup then s else s.fatalStop
    (if s.stopped then s.logBoot 9 else s).trainPort

/-- POWER_GOOD (R393, R453): every rail is within its limits. -/
def execPowerGood (failures : List BootFailure) (s : State) : Result :=
  if s.mod.rising && !s.mod.modPg then
    done ({ s.modMod (fun m => { m with rising := false, modPg := true }) with boots := s.boots + 1 }.startUp failures)
  else done s

/-- READY (R393, R397). -/
def execReady (s : State) : Result :=
  if s.runs && !s.ready && s.aldeah.up then
    done (((s.setRegField Off.gstat 20 4 10).setRegBit Off.gstat 31 true).logBoot 10)
  else done s

/-- The rails rise once the bulk is charged and PWR_EN is asserted and heeded (Table 14-4). -/
def State.raiseRails (s : State) : State :=
  let m := s.mod
  if m.bulk && m.pwrEn && !m.ignore && !m.needFall && !m.modPg then s.modMod fun m => { m with rising := true } else s

/-- PWR_EN_ASSERT (R454). -/
def execPwrEnAssert (s : State) : Result := done ((s.modMod fun m => { m with pwrEn := true }).raiseRails)

/-- BULK_CHARGED (Table 14-4, step 2). -/
def execBulkCharged (s : State) : Result := done ((s.modMod fun m => { m with bulk := true }).raiseRails)

/-- PWR_EN_IGNORE_END (R457). -/
def execPwrEnIgnoreEnd (s : State) : Result := done ((s.modMod fun m => { m with ignore := false }).raiseRails)

/-! ## Power-down (R455 to R457) -/

/-- The rails are off: what remains is the flash, OTP and journal, what the host and other devices have received, the signals
and their latches. -/
def State.powerDown (s : State) : State :=
  { variant := s.variant, pending := s.pending, free := s.free, ticks := s.ticks, hostMem := s.hostMem, hostRead := s.hostRead, otp := s.otp,
    flash := s.flash, journal := s.journal, boots := s.boots,
    aldeah := { area0 := s.aldeah.area0, area1 := s.aldeah.area1, sent := s.aldeah.sent },
    landing := { msgs := s.landing.msgs, aer := s.landing.aer },
    mod := { s.mod with rising := false, modPg := false, smbAlert := false, ignore := true } }

/-- Power-down where the rails are up or rising. -/
def State.turnOff (s : State) : State := if s.mod.modPg || s.mod.rising then s.powerDown else s

/-- PWR_EN_DEASSERT (R455, R457, R458): THERM_ALERT# is released too. -/
def execPwrEnDeassert (s : State) : Result :=
  done (s.turnOff.modMod fun m => { m with pwrEn := false, needFall := false, thermAlert := false })

/-- VIN_OVERVOLTAGE (R452, R457): the input switch opens, and PWR_EN must fall before the next power-up. -/
def execVinOvervoltage (volts : Nat) (s : State) : Result :=
  if volts ≤ 64 then done s else done (s.turnOff.modMod fun m => { m with bulk := false, needFall := m.pwrEn })

/-- HOLD_UP_LOSS (R452, R456): the input is below the hold-up limit of 26 V. -/
def execHoldUpLoss (volts : Nat) (s : State) : Result :=
  if volts < 26 then done (s.turnOff.modMod fun m => { m with bulk := false }) else done s

/-- SUPPLY_FAIL (R452): the input below 40 V for 10 ms, above the hold-up limit. -/
def execSupplyFail (millivolts : Nat) (s : State) : Result :=
  if s.mod.modPg && 26000 ≤ millivolts && millivolts < 40000 then
    done (s.logError (s.powerRec .supplyFail 0 2 millivolts)).fatalStop
  else done s

/-- JUNCTION_OVERTEMP (R459): a comparator of a Spire or of the Landing. -/
def execJunctionOvertemp (site celsius : Nat) (s : State) : Result :=
  if s.mod.modPg && 125 ≤ celsius && (site < 48 || (104 ≤ site && site < 112)) then
    done (s.powerDown.modMod fun m => { m with thermAlert := true })
  else done s

/-- REGULATOR_FAULT (R459): the regulator latches its fault and every rail turns off. -/
def execRegulatorFault (page : Nat) (s : State) : Result :=
  if s.mod.modPg || s.mod.rising then done (s.powerDown.modMod fun m => { m with faults := m.faults ++ [page] }) else done s

/-- REFCLK_LOSS (R454): the root PLL loses lock; which structure DETAIL names is free. -/
def execRefclkLoss (s : State) : Result :=
  if s.mod.modPg then
    done ((s.logError { errOf .sharedUe 15 6 0 with detail := s.draw 20 0 % 2 ^ 32, cycles := s.landing.mclk.toNat }).tick.fatalStop)
  else done s

/-- ALERT_RESPONSE (R458): SMB_ALERT# is released. -/
def execAlertResponse (s : State) : Result :=
  if s.mod.modPg then done (s.modMod fun m => { m with smbAlert := false }) else done s

end Sys2Proof.Machine
end

