-- ==== Sys2Proof/Machine/QueueOps.lean ====
section
/-! DEFINITION. The operations of the Q slot (R128 to R133) and what other agents do to a core's queues: the timeout of a
stall (R100), the Cupola flows (R99) and the passage of tiles between neighbours (R98). -/

namespace Sys2Proof.Machine

/-- Q-slot BIND (R128 to R130): a queue end takes a new binding. -/
def execBind (lw : LongWord) (qend : BitVec 5) (kind fmt : BitVec 4) (depthM1 : BitVec 6) (param : BitVec 7) (rb : BitVec 5) (s : State) : Result :=
  done (s.issue { lw with q := some (.bind qend kind fmt depthM1 param rb) })

/-- Q-slot QMOV (R131): the head of QA moves to QB. -/
def execQmov (lw : LongWord) (qa qb : BitVec 5) (s : State) : Result :=
  done (s.issue { lw with q := some (.qmov qa qb) })

/-- Q-slot QDUP (R131): the head of QA moves to QB and QC. -/
def execQdup (lw : LongWord) (qa qb qc : BitVec 5) (s : State) : Result :=
  done (s.issue { lw with q := some (.qdup qa qb qc) })

/-- Q-slot QDROP (R131): the head of QA is dropped. -/
def execQdrop (lw : LongWord) (qa : BitVec 5) (s : State) : Result :=
  done (s.issue { lw with q := some (.qdrop qa) })

/-- Q-slot TPUSH (R131, R132): a tile of the tile store is pushed. -/
def execTpush (lw : LongWord) (qb ra : BitVec 5) (rowsM1 colsM1 : BitVec 6) (s : State) : Result :=
  done (s.issue { lw with q := some (.tpush qb ra rowsM1 colsM1) })

/-- Q-slot TPOP (R131, R132): the head of QA goes to the tile store and its tag to RD. -/
def execTpop (lw : LongWord) (qa ra rd : BitVec 5) (s : State) : Result :=
  done (s.issue { lw with q := some (.tpop qa ra rd) })

/-- Q-slot QLIVE (R131, R133): a range of the tile store is declared live, or the live set emptied. -/
def execQlive (lw : LongWord) (ra rb : BitVec 5) (s : State) : Result :=
  done (s.issue { lw with q := some (.qlive ra rb) })

/-- QUEUE_TIMEOUT (R100, R141): the core takes the queue-timeout trap for the stall it is in, unless CTIMEOUT disables it. -/
def execQueueTimeout (core : Nat) (s : State) : Result :=
  if !s.runs then done s else
  let c := s.core core
  if c.ctimeout = 0 || c.halted then done s
  else match c.stall with
    | some (.queue _ slots len) | some (.channel _ slots len) => done (s.takeTrap core .queueTimeout 0 slots len none)
    | _ => done s

/-- A tile read from scratch by a CUPOLA_IN flow (R99). -/
def State.cupolaTile (s : State) (core p : Nat) (q : Queue) : State × Tile :=
  let (s, r) := s.readRun (.core core) p (q.flowBase + q.flowDone * q.flowStride) (tileBytes q.fmt)
  (s, ⟨q.fmt, r.data, mkTag (decide (r.poison ≠ [])) (decide (q.flowDone + 1 = q.flowCount)) 64 64⟩)

/-- CUPOLA_IN_PUSH (R99): the flow's next tile goes from scratch to the queue once the queue has room. -/
def execCupolaInPush (core queue : Nat) (s : State) : Result :=
  if !s.runs then done s else
  let q := (s.core core).queue queue
  match (s.core core).task with
  | some t =>
    if q.kind = .cupolaIn && q.room && decide (q.flowDone < q.flowCount) then
      let (s, tile) := s.cupolaTile core t.part q
      let c := (s.core core).push queue tile.data tile.tag
      done (s.setCore core (c.setQueue queue { c.queue queue with flowDone := q.flowDone + 1 }))
    else done s
  | none => done s

/-- The core's earlier accesses to the words of the oldest tile of a CUPOLA_OUT queue performed (R268); none where one of them, or a
tile that it pushed earlier to another queue, must come first. -/
def State.settleTile (s : State) (core p : Nat) (q : Queue) : Option State :=
  let stamp := q.stamps.headD 0
  let a := q.flowBase + q.flowWritten * q.flowStride
  let n := tileBytes q.fmt
  if (s.core core).tileBefore stamp a n then none
  else s.settleBy p core (s.core core).inflight.length fun x => decide (x.stamp ≤ stamp) && s.meets p a n x

/-- CUPOLA_OUT_WRITE (R99): the flow takes the oldest tile and writes it whole to scratch, poisoned where it is poisoned. -/
def execCupolaOutWrite (core queue : Nat) (s : State) : Result :=
  if !s.runs then done s else
  let q := (s.core core).queue queue
  match (s.core core).task with
  | some t =>
    if q.kind = .cupolaOut && decide (q.count ≠ 0) then match s.settleTile core t.part q with
    | none => done s
    | some s =>
      let tile := (s.core core).headTile queue
      let n := tileBytes q.fmt
      let poison := if tagPoison tile.tag then List.range (n / 32 + 2) else []
      let (s, _) := s.writeRun (.core core) t.part (q.flowBase + q.flowWritten * q.flowStride)
        (tile.data.bytes 0 n) poison false
      let c := (s.core core).pop queue
      done (s.setCore core (c.setQueue queue { c.queue queue with flowWritten := q.flowWritten + 1 }))
    else done s
  | none => done s

/-- Whether the queue that a NEIGHBOUR_OUT queue feeds takes a tile: bound NEIGHBOUR_IN towards the core, with room. -/
def State.neighbourReady (s : State) (core : Nat) (q : Queue) : Bool :=
  let r := (s.core q.peer).queue q.remote
  decide (r.kind = .neighbourIn) && decide (r.peer = core) && r.room

/-- NEIGHBOUR_TILE_ARRIVAL (R98): the oldest tile crosses the Spire fabric into the neighbour's queue. -/
def execNeighbourTileArrival (core queue : Nat) (s : State) : Result :=
  if !s.runs then done s else
  let q := (s.core core).queue queue
  if q.kind = .neighbourOut && decide (q.count ≠ 0) && s.neighbourReady core q then
    let tile := (s.core core).headTile queue
    let s := s.modCore core fun c => c.pop queue
    done (s.modCore q.peer fun c => c.push q.remote tile.data tile.tag)
  else done s

end Sys2Proof.Machine
end

