-- ==== Sys2Proof/Machine/ServingOps.lean ====
section
/-! DEFINITION. The serving sequencer's commands (R249 to R261): submission, steps and their results, prompt chunks,
cancellation and eviction; and the host's writes of counters and semaphores (R277, R285). -/

namespace Sys2Proof.Machine

/-! ## Submission (R248, R249, R252) -/

/-- Whether every table that a sequence directory names lies in the partition. -/
def State.tablesInside (s : State) (p dir : Nat) : Nat → State × Bool
  | 0 => (s, true)
  | n + 1 => match s.srvRead p dir 8 with
    | (s, none) => (s, false)
    | (s, some v) => match s.region p (field v 0 48) with
      | .banked _ _ => s.tablesInside p (dir + 8) n
      | _ => (s, false)

/-- Whether a model is resident: WARM or HOT (R315). -/
def State.modelResident (s : State) (p m : Nat) : State × Bool :=
  match s.readModel p m with
  | (s, .ok x) => (s, x.ok && (decide (x.state = 2) || decide (x.state = 3)))
  | (s, .error _) => (s, false)

/-- Whether a submission is accepted (R252). -/
def State.submitOk (s : State) (p e : Nat) : State × Bool :=
  let (s, model) := s.modelResident p (reqModel e)
  let (s, inside) := s.tablesInside p (reqSeqDir e) (reqLayers e)
  let (s, tables) := s.kvTables p (reqSeqDir e) (min 1 (reqLayers e))
  let long := tables.any fun t => match t with
    | some t => decide (t.p = 128)
    | none => false
  (s, reqReservedOk e && model && inside && decide (1 ≤ reqMaxCand e) && decide (reqMaxCand e ≤ 16) &&
    !(decide (reqClass e = 0) && long))

/-- One table of a fork (R249): the source's pages below the fork, shared; the tokens it starts with. -/
def State.forkTable (s : State) (p at_ : Nat) (src dst : Option KvTable) : State × Nat :=
  match src, dst with
  | some a, some b =>
    let n := min at_ a.flushed
    let s := (List.range (ceilDiv n a.p)).foldl (fun s j => match s.srvRead p (a.entryAddr j) 8 with
      | (s, some e) => (s.srvWrite p (b.entryAddr j) 8 (putField e 30 1 1)).raiseRef p b.tower e
      | (s, none) => s) s
    (s.setTable p b n n, n)
  | _, _ => (s, 0)

/-- The tables of a fork, the layers in order: the tokens that every layer starts with. -/
def State.forkTables (s : State) (p at_ : Nat) : List (Option KvTable × Option KvTable) → Nat → State × Nat
  | [], n => (s, n)
  | x :: r, n =>
    let (s, k) := s.forkTable p at_ x.1 x.2
    s.forkTables p at_ r (min n k)

/-- The source entry of a fork, if the submission starts as one. -/
def State.forkSource (s : State) (p i e : Nat) : State × Option Nat :=
  if reqClass e = 0 || reqForkOf e = 0xFFFF || reqForkOf e = i || (s.srvReq p (reqForkOf e)).isNone then (s, none)
  else match s.readReq p (reqForkOf e) with
    | (s, some x) =>
      (s, if reqModel x = reqModel e && reqVariant x = reqVariant e && reqForkAt e ≤ reqCommitted x then some x else none)
    | (s, none) => (s, none)

/-- Copy token ids from one log to another, from token `j` on (R249). -/
def State.copyTokens (s : State) (p src dst : Nat) : Nat → Nat → State
  | 0, _ => s
  | n + 1, j =>
    let s := match s.srvRead p (src + 4 * j) 4 with
      | (s, some v) => s.srvWrite p (dst + 4 * j) 4 v
      | (s, none) => s
    s.copyTokens p src dst n (j + 1)

/-- What a request starts with: the pages of matched prompt blocks or of a fork; the tokens it has. A fork takes the source's tokens
from there up to FORK_AT into its own log, to be recomputed as prompt text (R249, DESIGN CHOICE, log 165). -/
def State.startTokens (s : State) (p i e : Nat) : State × Nat :=
  if reqClass e = 0 then
    if s.pfxLog2 p = 0 then (s, 0)
    else
      let (s, tables) := s.reqTables p e
      let (s, nodes) := s.matchBlocks p e tables (reqPromptLen e / 64) 0 (rootKey e)
      let n := 64 * nodes.length
      let s := if nodes = [] then s else tables.foldl (fun s t => match t with
        | some t => s.setTable p t n n
        | none => s) s
      (s.modReq p i fun r => { r with nodes := nodes }, n)
  else match s.forkSource p i e with
    | (s, none) => (s, 0)
    | (s, some x) =>
      let (s, src) := s.reqTables p x
      let (s, dst) := s.reqTables p e
      let at_ := reqForkAt e
      let (s, n) := s.forkTables p at_ (src.zip dst) at_
      let s := s.copyTokens p (reqTokenLog x) (reqTokenLog e) (min at_ (reqLogCap e) - n) n
      (s.modReq p i fun r => { r with fork := at_, target := max r.target at_ }, n)

/-- A submission accepted: ADMIT_SEQ, QUEUED, and what it starts with. -/
def State.admitReq (s : State) (p i e : Nat) : State :=
  let s := s.modSrv p fun v =>
    { v with admitSeq := v.admitSeq + 1, reqs := v.reqs ++ [{ req := i, target := reqPromptLen e }] }
  let (s, n) := s.startTokens p i e
  let s := s.putReq p i 0x50 8 ((s.part p).srv.admitSeq - 1)
  let s := ((s.putReq p i 0x40 4 0).putReq p i 0x44 4 n).putReq p i 0x4A 2 0
  s.setReqState p i 1

/-- A write of SRV_SUBMIT. -/
def State.submit (s : State) (p i : Nat) : State :=
  if s.serves p && s.working p && i < s.reqCount p then
    let s := s.servePools p
    match s.readReq p i with
    | (s, none) => s
    | (s, some e) =>
      if reqState e ≠ 0 || (s.srvReq p i).isSome then s
      else match s.submitOk p e with
        | (s, true) => s.admitReq p i e
        | (s, false) => s.setDone p i .refused
  else s

/-- SRV_SUBMIT (R252). -/
def execSrvSubmit (fn : Fn) (part : Nat) (index : BitVec 12) (s : State) : Result :=
  done (s.onWrite fn (partBase part + Off.srvSubmit) fun s => s.submit part index.toNat)

/-! ## Cancellation (R259) -/

/-- Whether a partition is wide: seven or more towers. -/
def State.wide (s : State) (p : Nat) : Bool := decide (7 ≤ (s.towersOf p).length)

/-- Whether a request holds pages or staged entries. -/
def State.holdsKv (s : State) (p e : Nat) : State × Bool :=
  let (s, tables) := s.reqTables p e
  (s, decide (reqCommitted e ≠ 0) || tables.any fun t => match t with
    | some t => decide ((s.tower t.tower).staged t.addr ≠ [])
    | none => false)

/-- A cancel takes effect at a step boundary (Table 07-10). -/
def State.cancelNow (s : State) (p i : Nat) : State :=
  match s.readReq p i with
  | (s, none) => s
  | (s, some e) =>
    if (s.srvReq p i).isNone || reqState e = 4 then s
    else match s.holdsKv p e with
      | (s, holds) => if holds && s.wide p then s.setReqState p i 4 else s.endReq p i e .aborted 16

/-- Apply the cancels that wait, but for requests whose chunk is in progress. -/
def State.applyCancels (s : State) (p : Nat) : State :=
  let due := (s.part p).srv.cancels.filter fun i => !s.inChunk p i
  let s := s.modSrv p fun v => { v with cancels := v.cancels.filter fun i => !due.contains i }
  due.foldl (fun s i => s.cancelNow p i) s

/-- Whether a request holds nothing yet (Table 07-10): QUEUED, or PROMPT before its first chunk. -/
def State.bare (s : State) (p i : Nat) : State × Bool :=
  match s.readReq p i with
  | (s, none) => (s, false)
  | (s, some e) =>
    let (s, holds) := s.holdsKv p e
    (s, !holds && !s.inChunk p i && (decide (reqState e = 1) || decide (reqState e = 2)))

/-- A write of SRV_CANCEL: a request that holds nothing ends at once; another waits for the step boundary, which is at once between
steps. -/
def State.cancel (s : State) (p i : Nat) : State :=
  if s.working p && (s.srvReq p i).isSome then
    match s.bare p i with
    | (s, true) => s.cancelNow p i
    | (s, false) =>
      let s := s.modSrv p fun v => { v with cancels := v.cancels ++ [i] }
      if (s.part p).srv.step.isNone then s.applyCancels p else s
  else s

/-- SRV_CANCEL (R259). -/
def execSrvCancel (fn : Fn) (part : Nat) (index : BitVec 12) (s : State) : Result :=
  done (s.onWrite fn (partBase part + Off.srvCancel) fun s => s.cancel part index.toNat)

/-- A write of SRV_RELEASE: a DONE entry becomes FREE. -/
def State.releaseEntry (s : State) (p i : Nat) : State :=
  if i < s.reqCount p && !s.stopped then
    match s.readReq p i with
    | (s, some e) => if reqState e = 5 then s.setReqState p i 0 else s
    | (s, none) => s
  else s

/-- SRV_RELEASE (R253). -/
def execSrvRelease (fn : Fn) (part : Nat) (index : BitVec 12) (s : State) : Result :=
  done (s.onWrite fn (partBase part + Off.srvRelease) fun s => s.releaseEntry part index.toNat)

/-! ## SRV_CTL (R261, R307) -/

/-- Whether `n` bytes from `a` lie in one region of a partition's own memory. -/
def State.ownMemory (s : State) (p a n : Nat) : Bool :=
  (match s.region p a with
   | .hashed | .banked _ _ | .scratch _ _ => true
   | _ => false) && decide (s.regionKey p a = s.regionKey p (a + n - 1))

/-- Whether the bases and counts let serving start. -/
def State.srvBasesOk (s : State) (p : Nat) : Bool :=
  let req := s.reqAddr p 0
  let pool := s.pregPair p Off.srvPoolBaseLo Off.srvPoolBaseHi
  let pfx := s.bucketAddr p 0
  let step := s.pregPair p Off.srvStepBaseLo Off.srvStepBaseHi
  let n := max 1 (s.reqCount p)
  decide (req % 128 = 0) && s.ownMemory p req (128 * n) && decide (pool % 64 = 0) && decide (pool < 2 ^ 37) &&
  (decide (s.pfxLog2 p = 0) || (decide (pfx % 8 = 0) && s.ownMemory p pfx (8 * 2 ^ s.pfxLog2 p))) &&
  decide (step % 256 = 0) && s.ownMemory p step (256 * n)

/-- Whether an enabled job that shares a core with the generation job has a zero context area (R307). -/
def State.rivalBlocked (s : State) (p gen : Nat) : Bool :=
  jobList.any fun j => decide ((s.job p j).state ≠ .disabled) && s.rivals p j gen && decide (s.ctxBase p j = 0)

/-- A write of SRV_CTL. -/
def State.writeSrvCtl (s : State) (p v : Nat) : State :=
  let a := partBase p + Off.srvCtl
  let on := s.serves p
  let s := s.setRegField a 16 16 (field v 16 16)
  let s := if on then s else s.setRegField a 4 12 (field v 4 12)
  let s := if nbit v 3 && !s.stopped then s.flushTree p else s
  if !nbit v 0 then s.setRegBit a 0 false
  else if on then s
  else if s.srvBasesOk p && !s.rivalBlocked p (field v 4 6) then
    let s := (s.towersOf p).foldl (fun s t => match s.srvPool p t with
      | (s, some (_, rec)) => s.modSrv p fun v => { v with seen := mset 0 v.seen t (poolFreeHead rec) }
      | (s, none) => s) s
    s.setRegBit a 0 true
  else s.setRegBit (partBase p + Off.srvStat) 0 true

/-- SRV_CTL_WRITE (R261). -/
def execSrvCtlWrite (fn : Fn) (part : Nat) (value : Word) (s : State) : Result :=
  done (s.onWrite fn (partBase part + Off.srvCtl) fun s => s.writeSrvCtl part value.toNat)

/-- PFX_FLUSH (R261): every node with REFS 0 is dropped. -/
def execPfxFlush (fn : Fn) (part : Nat) (s : State) : Result :=
  done (s.onWrite fn (partBase part + Off.srvCtl) fun s => if s.stopped then s else s.flushTree part)

/-! ## Eviction (R250, R251) -/

/-- The entries of the live requests. -/
def State.liveEntries (s : State) (p : Nat) : List SrvReq → State × List (Nat × Nat)
  | [] => (s, [])
  | r :: l =>
    let (s, e) := s.readReq p r.req
    let (s, m) := s.liveEntries p l
    match e with
    | some e => (s, (r.req, e) :: m)
    | none => (s, m)

/-- The live requests. -/
def State.live (s : State) (p : Nat) : State × List (Nat × Nat) := s.liveEntries p (s.part p).srv.reqs

/-- The requests of a model in GENERATE whose rings have room for a step (R254). -/
def State.stepReady (s : State) (p m : Nat) : State × List (Nat × Nat) :=
  let (s, l) := s.live p
  (s, l.filter fun x => decide (reqState x.2 = 3) && decide (reqModel x.2 = m) && decide (ringRoom x.2 ≥ reqMaxCand x.2 + 1))

/-- The towers of the tables that a step of a request fills a page of, one for each. -/
def fillTowers (e : Nat) (tables : List (Option KvTable)) : List Nat :=
  tables.filterMap fun t => match t with
    | some t => if t.committed % t.p + reqMaxCand e ≥ t.p then some t.tower else none
    | none => none

/-- The towers that the pages of the next step come from, one for each page. -/
def State.pagesDue (s : State) (p : Nat) : List (Nat × Nat) → State × List Nat
  | [] => (s, [])
  | x :: r =>
    let (s, t) := s.reqTables p x.2
    let (s, l) := s.pagesDue p r
    (s, fillTowers x.2 t ++ l)

/-- Whether a tower's free ring holds fewer pages than the next step needs. -/
def State.shortOfPages (s : State) (p : Nat) (reqs : List (Nat × Nat)) : State × Bool :=
  let (s, due) := s.pagesDue p reqs
  (s.towersOf p).foldl (fun (x : State × Bool) t =>
    let (s, n) := x.1.freePages p t
    (s, x.2 || decide (n < (due.filter fun d => decide (d = t)).length))) (s, false)

/-- Whether request `x` goes before `y` in an eviction: lower PRIORITY, then later ADMIT_SEQ. -/
def evictFirst (x y : Nat × Nat) : Bool :=
  decide (reqPriority x.2 < reqPriority y.2) ||
  (decide (reqPriority x.2 = reqPriority y.2) && decide (reqAdmitSeq y.2 < reqAdmitSeq x.2))

/-- The request of a list that an eviction takes first. -/
def firstVictim (l : List (Nat × Nat)) : Option (Nat × Nat) :=
  l.foldl (fun m x => match m with
    | some y => if evictFirst x y then some x else some y
    | none => some x) none

/-- The request of a list that an eviction takes last. -/
def lastVictim (l : List (Nat × Nat)) : Option (Nat × Nat) :=
  l.foldl (fun m x => match m with
    | some y => if evictFirst y x then some x else some y
    | none => some x) none

/-- The page boundary that the loss of its last page cuts a request back to. -/
def State.pageBelow (s : State) (p e : Nat) : State × Nat :=
  let (s, tables) := s.kvTables p (reqSeqDir e) (min 1 (reqLayers e))
  match tables with
  | some t :: _ => (s, t.p * ((reqCommitted e - 1) / t.p))
  | _ => (s, 0)

/-- EVICTIONS raised, saturating. -/
def State.countEviction (s : State) (p i e : Nat) : State := s.putReq p i 0x4A 2 (min 65535 (reqEvictions e + 1))

/-- A live request that cannot be given its pages although every other has been cut back (R251): one whose command ran out of KV
space, or the only one that the next step is short for. -/
def hopeless (live reqs : List (Nat × Nat)) (needy : List Nat) (short : Bool) : Option (Nat × Nat) :=
  let able := live.filter fun x => decide (reqCommitted x.2 ≠ 0)
  let alone := short && (decide (reqs.length = 1) || decide (able = []))
  firstVictim ((live.filter (fun x => needy.contains x.1) ++ if alone then reqs else []).filter fun x =>
    able.all fun y => decide (y.1 = x.1))

/-- Evict until the next step of a model has its pages, and for the requests of `needy` once: nodes first, then the pages of live
requests from the tail, one page of every layer at a time; a request that nothing can help ends with NO_KV_SPACE. `cut` lists the
requests cut back already, whose EVICTIONS has been raised. -/
def State.evict (s : State) (p m : Nat) (needy cut : List Nat) : Nat → State
  | 0 => s
  | f + 1 =>
    let (s, reqs) := s.stepReady p m
    let (s, short) := s.shortOfPages p reqs
    if !short && needy = [] then s
    else match s.idleNode p with
      | (s, some a) => (s.dropNode p a).evict p m [] cut f
      | (s, none) =>
        let (s, l) := s.live p
        match hopeless l reqs needy short with
        | some x => (s.endReq p x.1 x.2 .noKvSpace 0).evict p m (needy.filter fun i => decide (i ≠ x.1)) cut f
        | none => match firstVictim (l.filter fun x => decide (reqCommitted x.2 ≠ 0)) with
          | some x =>
            let (s, b) := s.pageBelow p x.2
            let s := s.cutBack p x.1 x.2 b
            let s := if cut.contains x.1 then s else s.countEviction p x.1 x.2
            s.evict p m [] (x.1 :: cut) f
          | none => s

/-- More evictions than a partition has pages. -/
def evictFuel : Nat := 2 ^ 32

/-- The evictions of a step boundary, for the requests whose commands ran out of KV space and for the next step of a model (R250). -/
def State.evictAt (s : State) (p m : Nat) : State :=
  let needy := (s.part p).srv.short.filter fun i => (s.srvReq p i).isSome
  (s.modSrv p fun v => { v with short := [] }).evict p m needy [] evictFuel

/-! ## Steps (R254) -/

/-- The address of step record `i`. -/
def State.stepAddr (s : State) (p i : Nat) : Nat := s.pregPair p Off.srvStepBaseLo Off.srvStepBaseHi + 256 * i

/-- Write the input fields of a request's step record (Table 07-8). -/
def State.writeStep (s : State) (p i e kind pos ntok : Nat) : State :=
  (s.writeRun (.serving p) p (s.stepAddr p i)
    (leBytes 2 (reqMaxCand e + 256 * kind) ++ leBytes 2 0 ++ leBytes 4 pos ++ leBytes 4 ntok ++ leBytes 4 i ++
     leBytes 8 (reqSeqDir e) ++ leBytes 8 (reqTokenLog e + 4 * pos)) [] false).1

/-- A ring entry that the sequencer writes: a well-formed RUN of the model. What its other fields hold the spec does not say:
they are free. -/
def State.stepEntry (s : State) (m : Nat) : List Byte :=
  let d (i n : Nat) : Nat := s.draw 18 i % n
  leBytes 4 (2 ^ 24 + d 0 16 * 2 ^ 20 + d 1 16 * 2 ^ 16 / 2 ^ 17 * 2 ^ 17 + d 2 65536) ++ leBytes 4 (m + 256 * d 3 4) ++
  leBytes 8 (128 * d 4 (2 ^ 41)) ++ leBytes 4 (d 5 (2 ^ 32)) ++ leBytes 4 (d 6 (2 ^ 32)) ++ leBytes 8 (64 * d 7 (2 ^ 42)) ++
  leBytes 8 (32 * d 8 (2 ^ 43)) ++ leBytes 24 0

/-- Whether a ring takes another entry. -/
def State.ringTakes (s : State) (p j : Nat) : Bool := decide (s.pendingEntries p j < 2 ^ s.ringLog2 p j)

/-- Submit a command of a model on a ring. -/
def State.submitEntry (s : State) (p j m : Nat) : State :=
  let tail := s.reg (jobBase p j + Off.pringTail)
  let (s, _) := s.storeRun p (s.ringBase p j + 64 * (tail % 2 ^ s.ringLog2 p j)) (s.stepEntry m)
  s.tick.writeTail p j (BitVec.ofNat 32 (tail + 1))

/-- Whether the command that was submitted last when PRING_TAIL stood at `tail` is over. -/
def State.entryOver (s : State) (p j tail : Nat) : Bool :=
  let after := (s.reg (jobBase p j + Off.pringTail) + 2 ^ 32 - tail) % 2 ^ 32
  decide (s.pendingEntries p j < after) || (decide (s.pendingEntries p j = after) && (s.job p j).cmd.isNone)

/-- Begin a step of a model: its records and its job. -/
def State.beginStep (s : State) (p m : Nat) (reqs : List (Nat × Nat)) : State :=
  let s := reqs.foldl (fun s x =>
    (s.writeStep p x.1 x.2 0 (reqCommitted x.2) 0).modReq p x.1 fun r => { r with degraded := false }) s
  let s := s.submitEntry p (s.genRing p) m
  let tail := s.reg (jobBase p (s.genRing p) + Off.pringTail)
  s.modSrv p fun v => { v with steps := v.steps + 1, step := some { model := m, reqs := reqs.map (·.1), tail := tail } }

/-- Whether a task of the generation job waits for a core. -/
def State.genWaits (s : State) (p : Nat) : Bool :=
  decide (s.pendingEntries p (s.genRing p) ≠ 0) ||
  match (s.job p (s.genRing p)).cmd with
  | some r => decide (r.placed < r.ntasks)
  | none => false

/-- The prompt chunk in tokens: values of PCHUNK below 64 act as 64. -/
def State.chunkTokens (s : State) (p : Nat) : Nat := max 64 (s.regField (partBase p + Off.srvCtl) 16 16)

/-- Submit the next prompt chunk of a request; a MUTED request past its prompt takes a generation step there (R259). -/
def State.beginChunk (s : State) (p i e : Nat) : State :=
  let target := match s.srvReq p i with
    | some r => r.target
    | none => 0
  let pos := reqCommitted e
  let gen : Bool := decide (reqState e = 4) && decide (target ≤ pos) && decide (reqGenerated e ≠ 0)
  let ntok := if gen then 0 else min (s.chunkTokens p) (target - pos)
  let s := (s.writeStep p i e (if gen then 0 else 1) pos ntok).modReq p i fun r => { r with degraded := false }
  let s := s.submitEntry p (s.promptRing p) (reqModel e)
  let tail := s.reg (jobBase p (s.promptRing p) + Off.pringTail)
  let s := s.modSrv p fun v => { v with chunks := v.chunks ++ [{ req := i, pos := pos, ntok := ntok, tail := tail }] }
  if reqState e = 1 then s.setReqState p i 2 else s

/-- Submit prompt chunks by PRIORITY and then ADMIT_SEQ while the ring has room. -/
def State.beginChunks (s : State) (p : Nat) : Nat → List (Nat × Nat) → State
  | 0, _ => s
  | f + 1, l => match lastVictim l with
    | none => s
    | some x =>
      if s.ringTakes p (s.promptRing p) then
        (s.beginChunk p x.1 x.2).beginChunks p f (l.filter fun y => decide (y.1 ≠ x.1))
      else s

/-- The requests of a model that wait for a prompt chunk. -/
def State.chunkReady (s : State) (p m : Nat) : State × List (Nat × Nat) :=
  let (s, l) := s.live p
  (s, l.filter fun x => decide (reqModel x.2 = m) && !s.inChunk p x.1 &&
    (decide (reqState x.2 = 1) || decide (reqState x.2 = 2) || decide (reqState x.2 = 4)))

/-- The prompt chunks of a serving step, unless a generation task waits for a core. -/
def State.promptPart (s : State) (p m : Nat) : State :=
  if s.genWaits p then s
  else
    let (s, l) := s.chunkReady p m
    s.beginChunks p l.length l

/-- The generation part of a serving step: evictions at the boundary, then the step. -/
def State.genPart (s : State) (p m : Nat) : State :=
  if (s.part p).srv.step.isSome then s
  else
    let s := s.evictAt p m
    let (s, reqs) := s.stepReady p m
    if reqs ≠ [] && s.ringTakes p (s.genRing p) then s.beginStep p m reqs else s

/-- SERVING_STEP (R254): the next step of a model, if none is in progress, and prompt chunks. -/
def execServingStep (part model : Nat) (s : State) : Result :=
  if s.serves part && s.working part && !(s.part part).ucodeHold then
    done (((s.servePools part).genPart part model).promptPart part model)
  else done s

/-! ## Results -/

/-- The tokens of a step record that a request takes: at most `n`, up to END_TOKEN. -/
def takeTokens (fin : Nat) : Nat → List (Nat × Nat) → List (Nat × Nat)
  | 0, _ => []
  | _, [] => []
  | n + 1, x :: r => if x.1 = fin then [x] else x :: takeTokens fin n r

/-- The FLAGS of the `k`-th of `n` entries of a step (Table 07-9); `first` holds RECOMPUTED where the step's first entry carries it. -/
def entryFlags (e k n : Nat) (token : Nat) (ended first degraded : Bool) : Nat :=
  b2n (ended && decide (k + 1 = n)) + 2 * b2n (decide (token = reqEndToken e)) +
  4 * b2n (decide (reqGenerated e + k + 1 ≥ reqMaxNew e)) + 8 * b2n (first && decide (k = 0)) + 32 * b2n degraded

/-- Append tokens to a request's log, as far as it holds them. -/
def State.appendLog (s : State) (p i e : Nat) (l : List (Nat × Nat)) : State :=
  let base := s.promptLen p i e + reqGenerated e
  l.zipIdx.foldl (fun s x =>
    if base + x.2 < reqLogCap e then s.srvWrite p (reqTokenLog e + 4 * (base + x.2)) 4 x.1.1 else s) s

/-- A request takes the tokens that its program emitted: stream entries, token log, GENERATED and COMMITTED, and the end of
the request with END_TOKEN or MAX_NEW (R253, R254). A MUTED request writes no stream entry but its LAST one. -/
def State.emit (s : State) (p i e committed : Nat) (toks : List (Nat × Nat)) : State :=
  let muted : Bool := decide (reqState e = 4)
  let toks := takeTokens (reqEndToken e) (reqMaxNew e - reqGenerated e) toks
  let g := reqGenerated e + toks.length
  let ended : Bool := decide (g ≥ reqMaxNew e) || toks.any fun x => decide (x.1 = reqEndToken e)
  let (first, degraded) := match s.srvReq p i with
    | some r => (r.recomputed committed, r.degraded)
    | none => (false, false)
  let rows := toks.zipIdx.map fun x =>
    streamBytes x.1.1 (reqGenerated e + x.2) 0 (entryFlags e x.2 toks.length x.1.1 ended first degraded)
      (if reqLogprob e then x.1.2 else 0)
  let s := (s.appendLog p i e toks).putReq p i 0x40 4 g
  let s := s.putReq p i 0x44 4 committed
  let e2 := putField (putField e 512 32 g) 544 32 committed
  if muted then if ended then s.endReq p i e2 .aborted 16 else s
  else
    let s := if toks = [] then s else (s.pushStream p i e rows).modReq p i fun r => { r with mark := false }
    if !ended then s.setReqState p i 3
    else if toks = [] then s.endReq p i e2 .ok 4
    else (s.releaseReq p i e2).setDone p i .ok

/-- The page boundary that a poisoned step cuts a request back to: no token above COMMITTED or beyond the pages of a table
survives. -/
def State.safeBoundary (s : State) (p e : Nat) : State × Nat :=
  let (s, tables) := s.reqTables p e
  (s, tables.foldl (fun b t => match t with
    | some t => t.p * (min b t.flushed / t.p)
    | none => b) (reqCommitted e))

/-- The reserved bits of a step record (Table 07-8). -/
def stepReservedOk (n : Nat) : Bool :=
  [(16, 16), (112, 16), (176, 16), (240, 16), (264, 8), (280, 8), (288, 224)].all fun f => decide (field n f.1 f.2 = 0)

/-- RESULT and the emitted tokens of a step record, with their log-probabilities: at most MAX_CAND; none of a record that cannot be
read or has a reserved bit set (R11). -/
def State.readStep (s : State) (p i e : Nat) : State × Option (Nat × List (Nat × Nat)) :=
  match s.srvRead p (s.stepAddr p i) 256 with
  | (s, none) => (s, none)
  | (s, some n) =>
    (s, if stepReservedOk n then
        some (field n 256 8, (List.range (min (field n 272 8) (reqMaxCand e))).map fun k =>
          (field n (512 + 32 * k) 32, field n (1024 + 16 * k) 16))
      else none)

/-- Note for a request whether a tower command of the ring entry that its step or chunk was carried DEGRADED: one that names a table
of the request, or one that names no table (R258, DESIGN CHOICE, log 166). -/
def State.noteStep (s : State) (p i e ring tail : Nat) : State :=
  let (s, tables) := s.reqTables p e
  let own := tables.filterMap fun t => t.map fun k => k.addr
  let hit := (s.part p).srv.degraded.any fun d => decide (d.1 = ring) && decide (d.2.1 = tail) &&
    (match d.2.2 with
     | some a => own.contains a
     | none => true)
  s.modReq p i fun r => { r with degraded := hit }

/-- Forget what was noted of the tower commands of a ring entry. -/
def State.dropNotes (s : State) (p ring tail : Nat) : State :=
  s.modSrv p fun v => { v with degraded := v.degraded.filter fun d => !(decide (d.1 = ring) && decide (d.2.1 = tail)) }

/-- The result of a request's step (R254, R255): `ok` takes the tokens, POISON recomputes, NO_KV_SPACE asks for an eviction, and
any other RESULT ends the request. -/
def State.applyResult (s : State) (p i e : Nat) (r : Option (Nat × List (Nat × Nat)))
    (ok : State → List (Nat × Nat) → State) : State :=
  match r with
  | some (0, toks) => ok s toks
  | some (3, _) =>
    let (s, b) := s.safeBoundary p e
    s.cutBack p i e b
  | some (11, _) => s.modSrv p fun v => { v with short := v.short ++ [i] }
  | _ => s.endReq p i e .uncorrected 0

/-- The result of a generation step of a request. -/
def State.stepResult (s : State) (p tail i : Nat) : State :=
  match s.readReq p i with
  | (s, none) => s
  | (s, some e) =>
    if (s.srvReq p i).isNone then s
    else
      let (s, r) := (s.noteStep p i e (s.genRing p) tail).readStep p i e
      s.applyResult p i e r fun s toks => s.emit p i e (reqCommitted e + toks.length) toks

/-- STEP_RESULT (R254): the generation job is complete. -/
def execStepResult (part : Nat) (s : State) : Result :=
  if !s.runs then done s else
  match (s.part part).srv.step with
  | none => done s
  | some st =>
    if s.working part && s.entryOver part (s.genRing part) st.tail then
      let s := st.reqs.foldl (fun s i => s.stepResult part st.tail i) (s.servePools part)
      let s := (s.dropNotes part (s.genRing part) st.tail).modSrv part fun v => { v with step := none }
      done ((s.applyCancels part).evictAt part st.model)
    else done s

/-- The last chunk of a request (R248, R253): new nodes of the prefix tree, and the first token unless it recomputed. -/
def State.lastChunk (s : State) (p i e committed : Nat) (toks : List (Nat × Nat)) : State :=
  if reqGenerated e ≠ 0 then
    let s := s.putReq p i 0x44 4 committed
    if reqState e = 4 then s else s.setReqState p i 3
  else
    let s := if reqClass e = 0 && s.pfxLog2 p ≠ 0 then
        let (s, tables) := s.reqTables p e
        s.insertBlocks p i e tables (reqPromptLen e / 64) 0 (rootKey e) none
      else s
    s.emit p i e committed toks

/-- Whether a chunk is a MUTED request's generation step (R259). -/
def SrvChunk.generates (c : SrvChunk) (e : Nat) : Bool :=
  decide (c.ntok = 0) && decide (reqState e = 4) && decide (reqGenerated e ≠ 0)

/-- The target of a live request. -/
def State.targetOf (s : State) (p i : Nat) : Nat :=
  match s.srvReq p i with
  | some r => r.target
  | none => 0

/-- The stream entries that the result of a chunk will write (R257). -/
def State.chunkRows (s : State) (p : Nat) (c : SrvChunk) (e : Nat) (r : Option (Nat × List (Nat × Nat))) : Nat :=
  match r with
  | some (0, toks) =>
    if reqState e = 4 || decide (reqGenerated e ≠ 0) || decide (c.pos + c.ntok < s.targetOf p c.req) then 0
    else (takeTokens (reqEndToken e) (reqMaxNew e) toks).length
  | _ => 0

/-- The result of a prompt chunk, or of a MUTED request's generation step. -/
def State.chunkResult (s : State) (p : Nat) (c : SrvChunk) (e : Nat) (r : Option (Nat × List (Nat × Nat))) : State :=
  s.applyResult p c.req e r fun s toks =>
    if c.generates e then s.emit p c.req e (reqCommitted e + toks.length) toks
    else if c.pos + c.ntok < s.targetOf p c.req then s.putReq p c.req 0x44 4 (c.pos + c.ntok)
    else s.lastChunk p c.req e (c.pos + c.ntok) toks

/-- The chunk of a request is over: its result, or for a request that was cut back since, nothing but what it left in the tables
(R250). -/
def State.endChunk (s : State) (p : Nat) (c : SrvChunk) (e : Nat) (r : Option (Nat × List (Nat × Nat))) : State :=
  let s := s.modSrv p fun v => { v with chunks := v.chunks.filter fun x => decide (x.req ≠ c.req) }
  let s := if c.cut then s.cutTables p c.req e (reqCommitted e) else s.chunkResult p c e r
  s.dropNotes p (s.promptRing p) c.tail

/-- PROMPT_CHUNK_DONE (R248, R253): a chunk's command is complete. It waits for room in the ring for the entries that it
brings. -/
def execPromptChunkDone (part request : Nat) (s : State) : Result :=
  if !s.runs then done s else
  match (s.part part).srv.chunks.find? fun c => decide (c.req = request) with
  | none => done s
  | some c =>
    if s.working part && s.entryOver part (s.promptRing part) c.tail then
      match (s.servePools part).readReq part request with
      | (_, none) => done s
      | (s1, some e) =>
        let (s1, r) := (s1.noteStep part request e (s1.promptRing part) c.tail).readStep part request e
        if !c.cut && decide (ringRoom e < s1.chunkRows part c e r) then done s
        else
          let s := s1.endChunk part c e r
          if (s.part part).srv.step.isSome then done s
          else done ((s.applyCancels part).evictAt part (reqModel e))
    else done s

/-- LAST_ENTRY_WRITE (R258): CIDX leaves room for a LAST entry that was held. -/
def execLastEntryWrite (part request : Nat) (s : State) : Result :=
  match (s.part part).srv.held.find? fun h => decide (h.req = request) with
  | none => done s
  | some h => match s.readReq part request with
    | (_, none) => done s
    | (s1, some e) =>
      if s.working part && ringRoom e ≥ 1 then
        let s := s1.modSrv part fun v => { v with held := v.held.filter fun x => decide (x.req ≠ request) }
        done ((s.pushStream part request e [lastBytes e h.status h.flags]).setDone part request h.status)
      else done s

/-! ## Counters and semaphores -/

/-- CNT_ADD (R277): AMOUNT is added to an arrival counter. -/
def execCntAdd (fn : Fn) (part : Nat) (index : BitVec 12) (amount : BitVec 48) (s : State) : Result :=
  done (s.onWrite fn (partBase part + Off.cntAdd) fun s => s.addCounter part index.toNat amount.toNat)

/-- SEM_WRITE (R285): a host write to a semaphore; SEMACQs that wait are tested again after it. -/
def execSemWrite (fn : Fn) (part : Nat) (sem : Nat) (value : Word) (s : State) : Result :=
  done (s.onWrite fn (partBase part + Off.sem + 4 * sem) fun s =>
    s.setSem part sem (semHostWrite (s.sem part sem) value.toNat))

end Sys2Proof.Machine
end

