-- ==== Sys2Proof/Machine/Registers.lean ====
section
/-! DEFINITION. Host writes to registers (R7, R9, R369, R394): each register's own behaviour, and the access codes for the
rest. -/

namespace Sys2Proof.Machine

/-! ## Reaching a register (R3, R7, R369) -/

/-- The PF BAR0 offset of an offset of a function's BAR0: a VF's BAR0 holds its partition block. -/
def fnOffset (fn : Fn) (o : Nat) : Option Nat :=
  match fn with
  | .pf => if o < 2 ^ 29 then some o else none
  | .vf n => if 1 ≤ n ∧ o < 0x80000 then some (partBase (n - 1) + o) else none

/-- Whether a register of the row covers byte `o` of its block. -/
def rowCovers (o : Nat) (r : RegRow) : Bool :=
  decide (r.off ≤ o) && decide ((o - r.off) / r.stride < r.count) && decide ((o - r.off) % r.stride < r.width / 8)

/-- Whether some register covers one of the bytes of an access. -/
def touches (b : Block) (o n : Nat) : Bool := (List.range n).any fun i => (rowsOf b).any (rowCovers (o + i))

/-- What an access does: one aligned access of a register's own width is good, one of offsets that no table lists is ignored,
and the result of any other is undefined (R7). -/
inductive AccessKind where
  | register | nothing | undefined
  deriving DecidableEq, Repr

/-- The kind of an access of 4 or, `wide`, 8 bytes. -/
def accessKind (b : Block) (o : Nat) (wide : Bool) : AccessKind :=
  let n := if wide then 8 else 4
  if o % n ≠ 0 then .undefined
  else match findRow b o with
    | some (r, _) => if r.width = 8 * n then .register else .undefined
    | none => if touches b o n then .undefined else .nothing

/-- A register written under its access codes alone (Table 00-3). -/
def State.plainWrite (s : State) (a v : Nat) : State :=
  match locate a with
  | some (b, _, o) => match findRow b o with
    | some (r, _) => s.setReg a (applyAccess r.rw r.w1c (s.reg a) v)
    | none => s
  | none => s

/-! ## MSI-X (R377; PRESUMED, log 12) -/

/-- A write to a word of an entry of an MSI-X table: a vector that is no longer masked and is pending sends its message. -/
def State.writeMsix (s : State) (a vec word v : Nat) : State :=
  let s := s.plainWrite a v
  if word = 3 && !nbit v 0 && s.landing.msixPending.contains vec then
    (s.modLanding fun l => { l with msixPending := l.msixPending.filter fun x => decide (x ≠ vec) }).signal vec
  else s

/-! ## The blocks of PF BAR0 -/

/-- A write in the global block. -/
def State.writeGlobal (s : State) (o v : Nat) : State :=
  if o = Off.gctl then
    let s := if nbit v 1 then s.lockDebug else s
    if nbit v 0 && s.aldeah.up then s.copyLog else s
  else if Off.cupGran ≤ o && o < Off.cupGran + 256 then s.writeGranule ((o - Off.cupGran) / 4) v
  else if Off.msixPfAddrLo ≤ o && o < Off.msixPfPba then
    s.writeMsix o ((o - Off.msixPfAddrLo) / 16) ((o - Off.msixPfAddrLo) % 16 / 4) v
  else s.plainWrite o v

/-- A write in the mailbox. -/
def State.writeMailbox (s : State) (o v : Nat) : State :=
  if o = Off.mbxDoorbell then s.doorbell (v % 2 ^ 13) else s.plainWrite (mboxBase + o) v

/-- A write in the error and reliability block. -/
def State.writeErr (s : State) (o v : Nat) : State :=
  let t := s.plainWrite (errBase + o) v
  if o = Off.errStat then s.writeErrStat v
  else if o = Off.errCoreTest && nbit v 31 then t.testCore (nbit v 30) (field v 0 9)
  else if o = Off.errGroupTest && nbit v 31 then t.testGroup (field v 0 4)
  else t

/-- A write in the governor's block. -/
def State.writeGov (s : State) (o v : Nat) : State :=
  if Off.govGrpCfg ≤ o && o < Off.govGrpCfg + 48 then s.writeGrpCfg ((o - Off.govGrpCfg) / 4) v
  else if o = Off.govTherm then s.setRegField (govBase + o) 16 8 (max 80 (min 100 (field v 16 8)))
  else s.plainWrite (govBase + o) v

/-- A write in the serving registers: while ENABLE is 1 only SRV_CTL, SRV_SUBMIT, SRV_CANCEL and SRV_RELEASE are written, and
SRV_PFX_KEY by the PF alone (R261). -/
def State.writeServing (s : State) (fn : Fn) (p o v : Nat) : State :=
  let a := partBase p + o
  if o = Off.srvCtl then s.writeSrvCtl p v
  else if o = Off.srvSubmit then s.submit p (field v 0 12)
  else if o = Off.srvCancel then s.cancel p (field v 0 12)
  else if o = Off.srvRelease then s.releaseEntry p (field v 0 12)
  else if s.serves p || (decide (Off.srvPfxKey ≤ o) && decide (fn ≠ .pf)) then s
  else if o = Off.srvReqCount then s.setReg a (min 4096 (field v 0 13))
  else if o = Off.srvPfxBuckets then s.setReg a (min 20 (field v 0 5))
  else s.plainWrite a v

/-- A write in a job block: its ring, core set, channels and context area only while the job is DISABLED (R300). -/
def State.writeJobReg (s : State) (p j k v : Nat) : State :=
  let a := jobBase p j + k
  if k = Off.pringTail then s.writeTail p j (BitVec.ofNat 32 v)
  else if k = Off.pjobCtl then s.writePjobCtl p j v
  else if k = Off.pjobStat then s.plainWrite a v
  else if (s.job p j).state = .disabled then s.plainWrite a v
  else s

/-- A write in a partition block (Table 11-3). -/
def State.writePart (s : State) (fn : Fn) (p o v : Nat) : State :=
  let a := partBase p + o
  if o = Off.pctl then (if fn = .pf then s.writePctl p v else s)
  else if Off.srvCtl ≤ o && o < 0x350 then s.writeServing fn p o v
  else if o = Off.cntAdd then s.addCounter p (field v 0 12) (field v 16 48)
  else if o = Off.phdmaKick then s.kickHost p (field v 63 1) (field v 56 4) (field v 0 48)
  else if o = Off.pallocCount then s.setReg a (min 65536 (field v 0 17))
  else if o = Off.plinkx then (if (s.towersOf p).contains (field v 0 4) then s.setReg a (field v 0 4) else s)
  else if 0x2000 ≤ o && o < 0x4000 then s.writeJobReg p ((o - 0x2000) / 0x80) (0x2000 + (o - 0x2000) % 0x80) v
  else if Off.sem ≤ o && o < Off.sem + 0x4000 then
    s.setSem p ((o - Off.sem) / 4) (semHostWrite (s.sem p ((o - Off.sem) / 4)) v)
  else if Off.msixVfAddrLo ≤ o && o < Off.msixVfAddrLo + 0x400 then
    s.writeMsix a (4096 + 64 * p + (o - Off.msixVfAddrLo) / 16) ((o - Off.msixVfAddrLo) % 16 / 4) v
  else s.plainWrite a v

/-- A write in a DMA engine's block: CH_OWNER.PART is writable on the host engines alone (Table 10-14). -/
def State.writeDma (s : State) (e o v : Nat) : State :=
  let a := dmaBase e + o
  if o < 0x1000 then s.plainWrite a v
  else
    let c := (o - 0x1000) / 0x40
    let k := 0x1000 + (o - 0x1000) % 0x40
    if k = Off.chKick then s.kick e c (field v 0 48)
    else if k = Off.chCtl then
      let s := s.plainWrite a v
      if nbit v 31 then s.abortChannel e c .aborted else s
    else if k = Off.chOwner && e < 12 then s
    else s.plainWrite a v

/-- A write in a link's block. -/
def State.writeLink (s : State) (l o v : Nat) : State :=
  if o = Off.volLctl then
    let s := s.enableLink l (nbit v 0) (nbit v 1)
    let s := if nbit v 30 then s.clearLink l else s
    if nbit v 31 then s.retrainLink l else s
  else s.plainWrite (linkBase l + o) v

/-- A write in a tower's block. -/
def State.writeTowerReg (s : State) (t o v : Nat) : State :=
  let a := towerBase t + o
  if o = Off.twrCtl then
    let s := if nbit v 1 then s.clearCounts t else s
    if nbit v 0 then s.startSanitise t else s
  else if o = Off.twrPin then s.writePin t v
  else if o = Off.twrMigrate then
    let s := s.plainWrite a v
    if nbit v 31 then s.startMigration t (field v 6 16) (field v 0 6) else s
  else if o = Off.tseqCtl then
    let s := s.plainWrite a v
    if nbit v 1 then s.purgeTower t else s
  else if o = Off.twrEvac then
    let s := s.plainWrite a v
    if nbit v 31 then s.startEvac t (field v 0 4) else s
  else if Off.frameTable ≤ o then s.writeFrames t ((o - Off.frameTable) / 4) v
  else s.plainWrite a v

/-- A write to the register at a PF BAR0 offset. -/
def State.writeRegister (s : State) (fn : Fn) (a v : Nat) : State :=
  match locate a with
  | none => s
  | some (.global, _, o) => s.writeGlobal o v
  | some (.mailbox, _, o) => s.writeMailbox o v
  | some (.err, _, o) => s.writeErr o v
  | some (.gov, _, o) => s.writeGov o v
  | some (.part, p, o) => s.writePart fn p o v
  | some (.dma, e, o) => s.writeDma e o v
  | some (.link, l, o) => s.writeLink l o v
  | some (.router, _, o) => if o = Off.volId then s.writeVolId (field v 0 13) else s.plainWrite a v
  | some (.tower, t, o) => s.writeTowerReg t o v

/-! ## Accesses that R7 leaves undefined -/

/-- The registers that cover the bytes of an access, by their offsets in the block. -/
def touched (b : Block) (o n : Nat) : List Nat :=
  ((List.range n).filterMap fun i => ((rowsOf b).find? (rowCovers (o + i))).map fun r =>
    r.off + (o + i - r.off) / r.stride * r.stride).eraseDups

/-- Whether what a register holds reaches no partition but the one that its block belongs to: those of the partition, tower and
tower DMA blocks, the mailbox, GFEAT_SEL and the PF's MSI-X table. -/
def staysInside (b : Block) (u o : Nat) : Bool :=
  match b with
  | .part | .tower | .mailbox => true
  | .dma => decide (u < 12)
  | .global => decide (o = Off.gfeatSel) || decide (Off.msixPfAddrLo ≤ o)
  | _ => false

/-- The result of an undefined write (R7): each register that it touches is left alone or takes a write of a free value, as a
free choice decides; it never affects another partition (DESIGN CHOICE, log 40). -/
def State.undefinedWrite (s : State) (fn : Fn) (a n : Nat) : State :=
  match locate a with
  | none => s
  | some (b, u, o) =>
    ((touched b o n).foldl (fun t r =>
      if staysInside b u r && decide (s.draw 23 r % 2 = 0) then t.writeRegister fn (a - o + r) (s.draw 24 r % 2 ^ 64) else t) s).tick

/-! ## The configuration space (R367, R370, R372; PRESUMED, log 55) -/

/-- A register of the port takes a value. -/
def Port.configure (q : Port) (fn : Fn) (r : ConfigReg) (v : Nat) : Port :=
  match r with
  | .vfEnable => { q with vfEnable := nbit v 0 }
  | .bar2Size => if 12 ≤ v && v ≤ 21 then { q with bar2 := 2 ^ (20 + v) } else q
  | .vfBar2Size => if 12 ≤ v && v ≤ 18 then { q with vfBar2 := 2 ^ (20 + v) } else q
  | .maxPayload => if v ≤ 2 then { q with maxPayload := 2 ^ (7 + v) } else q
  | .maxRead => if v ≤ 5 then { q with maxRead := 2 ^ (7 + v) } else q
  | .timeout => if [1, 2, 5, 6, 9, 10, 13, 14].contains v then { q with timeout := v } else q
  | .linkIde => { q with linkIde := nbit v 0 }
  | .selectiveIde =>
    let rest := q.ideStreams.filter fun n => decide (n ≠ fnNumber fn)
    { q with ideStreams := if nbit v 0 then fnNumber fn :: rest else rest }

/-- A host write to a register of a function's configuration space, which works at every width (R368). All but the Selective IDE
stream of a VF are the PF's. -/
def State.writeConfig (s : State) (fn : Fn) (r : ConfigReg) (v : Nat) : State :=
  let own : Bool := match fn with
    | .pf => !s.pfFlr
    | .vf n => decide (r = .selectiveIde) && s.answers (.vf n)
  if s.portUp && own then { s with port := s.port.configure fn r v } else s

/-! ## REGISTER_WRITE -/

/-- A host write of 4 or 8 bytes to a function's BAR0 (R7, R9). One to the unlocked debug block stops: the spec does not hold its
layout (R417). -/
def State.writeBar0 (s : State) (fn : Fn) (offset : Nat) (wide : Bool) (value : DWord) : Result :=
  match fnOffset fn offset with
  | none => done s
  | some a =>
    if 0x10000000 ≤ a then
      if fn = .pf && s.answers fn && s.regBit Off.gstat 25 then .fault .debugBlock else done s
    else if !s.takes fn a then done s
    else match locate a with
      | none => done s
      | some (b, _, o) => match accessKind b o wide with
        | .undefined => done (s.undefinedWrite fn a (if wide then 8 else 4))
        | .nothing => done s
        | .register => done (s.writeRegister fn a (if wide then value.toNat else value.toNat % 2 ^ 32))

/-- REGISTER_WRITE (R9): a host write of 4 or, `wide`, 8 bytes to a register of a function's BAR0, or of its configuration space. -/
def execRegisterWrite (fn : Fn) (place : RegPlace) (wide : Bool) (value : DWord) (s : State) : Result :=
  match place with
  | .bar0 offset => s.writeBar0 fn offset wide value
  | .config r => done (s.writeConfig fn r value.toNat)

end Sys2Proof.Machine
end

