-- ==== Sys2Proof/Machine/Scalar.lean ====
section
/-! DEFINITION. The operations of the S slot (R123 to R127). Each command issues the long word that it carries, with its
operation in the S slot: the operation's own effect is that of `sEffect` on its slot. -/

namespace Sys2Proof.Machine

/-- A long word with no slot bit set (R82): it waits for its flags, clears them and does nothing else. -/
def execEmptyLongWord (core : Nat) (wait : BitVec 8) (hint : BitVec 2) (s : State) : Result :=
  done (s.issue { core := core, wait := wait, hint := hint })

/-- S-slot ADD (R124): RD gets RA plus RB, modulo 2^32. -/
def execAdd (lw : LongWord) (rd ra rb : BitVec 5) (s : State) : Result :=
  done (s.issue { lw with s := some (.alu .add rd ra rb) })

/-- S-slot SUB (R124): RD gets RA minus RB. -/
def execSub (lw : LongWord) (rd ra rb : BitVec 5) (s : State) : Result :=
  done (s.issue { lw with s := some (.alu .sub rd ra rb) })

/-- S-slot AND (R124): RD gets the bitwise and. -/
def execAnd (lw : LongWord) (rd ra rb : BitVec 5) (s : State) : Result :=
  done (s.issue { lw with s := some (.alu .and rd ra rb) })

/-- S-slot OR (R124): RD gets the bitwise or. -/
def execOr (lw : LongWord) (rd ra rb : BitVec 5) (s : State) : Result :=
  done (s.issue { lw with s := some (.alu .or rd ra rb) })

/-- S-slot XOR (R124): RD gets the bitwise exclusive or. -/
def execXor (lw : LongWord) (rd ra rb : BitVec 5) (s : State) : Result :=
  done (s.issue { lw with s := some (.alu .xor rd ra rb) })

/-- S-slot SLL (R124): RD gets RA shifted left by RB[4:0]. -/
def execSll (lw : LongWord) (rd ra rb : BitVec 5) (s : State) : Result :=
  done (s.issue { lw with s := some (.alu .sll rd ra rb) })

/-- S-slot SRL (R124): RD gets RA shifted right by RB[4:0], zeros entering. -/
def execSrl (lw : LongWord) (rd ra rb : BitVec 5) (s : State) : Result :=
  done (s.issue { lw with s := some (.alu .srl rd ra rb) })

/-- S-slot SRA (R124): RD gets RA shifted right by RB[4:0], sign bits entering. -/
def execSra (lw : LongWord) (rd ra rb : BitVec 5) (s : State) : Result :=
  done (s.issue { lw with s := some (.alu .sra rd ra rb) })

/-- S-slot SLT (R124): RD gets 1 where RA is below RB, signed. -/
def execSlt (lw : LongWord) (rd ra rb : BitVec 5) (s : State) : Result :=
  done (s.issue { lw with s := some (.alu .slt rd ra rb) })

/-- S-slot SLTU (R124): RD gets 1 where RA is below RB, unsigned. -/
def execSltu (lw : LongWord) (rd ra rb : BitVec 5) (s : State) : Result :=
  done (s.issue { lw with s := some (.alu .sltu rd ra rb) })

/-- S-slot MUL (R124): RD gets the low 32 bits of the product. -/
def execMul (lw : LongWord) (rd ra rb : BitVec 5) (s : State) : Result :=
  done (s.issue { lw with s := some (.alu .mul rd ra rb) })

/-- S-slot MULHU (R124): RD gets the high 32 bits of the unsigned product. -/
def execMulhu (lw : LongWord) (rd ra rb : BitVec 5) (s : State) : Result :=
  done (s.issue { lw with s := some (.alu .mulhu rd ra rb) })

/-- S-slot MULH (R124): RD gets the high 32 bits of the signed product. -/
def execMulh (lw : LongWord) (rd ra rb : BitVec 5) (s : State) : Result :=
  done (s.issue { lw with s := some (.alu .mulh rd ra rb) })

/-- S-slot ADDI (R124, R125): RD gets RA plus the sign-extended immediate. -/
def execAddi (lw : LongWord) (rd ra : BitVec 5) (imm : BitVec 16) (s : State) : Result :=
  done (s.issue { lw with s := some (.aluImm .addi rd ra imm) })

/-- S-slot ANDI (R124, R125): RD gets RA and the zero-extended immediate. -/
def execAndi (lw : LongWord) (rd ra : BitVec 5) (imm : BitVec 16) (s : State) : Result :=
  done (s.issue { lw with s := some (.aluImm .andi rd ra imm) })

/-- S-slot ORI (R124, R125): RD gets RA or the zero-extended immediate. -/
def execOri (lw : LongWord) (rd ra : BitVec 5) (imm : BitVec 16) (s : State) : Result :=
  done (s.issue { lw with s := some (.aluImm .ori rd ra imm) })

/-- S-slot XORI (R124, R125): RD gets RA exclusive-or the zero-extended immediate. -/
def execXori (lw : LongWord) (rd ra : BitVec 5) (imm : BitVec 16) (s : State) : Result :=
  done (s.issue { lw with s := some (.aluImm .xori rd ra imm) })

/-- S-slot SLLI (R124, R125): RD gets RA shifted left by the immediate. -/
def execSlli (lw : LongWord) (rd ra : BitVec 5) (imm : BitVec 16) (s : State) : Result :=
  done (s.issue { lw with s := some (.aluImm .slli rd ra imm) })

/-- S-slot SRLI (R124, R125): RD gets RA shifted right by the immediate, zeros entering. -/
def execSrli (lw : LongWord) (rd ra : BitVec 5) (imm : BitVec 16) (s : State) : Result :=
  done (s.issue { lw with s := some (.aluImm .srli rd ra imm) })

/-- S-slot SRAI (R124, R125): RD gets RA shifted right by the immediate, sign bits entering. -/
def execSrai (lw : LongWord) (rd ra : BitVec 5) (imm : BitVec 16) (s : State) : Result :=
  done (s.issue { lw with s := some (.aluImm .srai rd ra imm) })

/-- S-slot SLTI (R124, R125): RD gets 1 where RA is below the sign-extended immediate, signed. -/
def execSlti (lw : LongWord) (rd ra : BitVec 5) (imm : BitVec 16) (s : State) : Result :=
  done (s.issue { lw with s := some (.aluImm .slti rd ra imm) })

/-- S-slot LUI (R124): RD gets the immediate in its upper half. -/
def execLui (lw : LongWord) (rd : BitVec 5) (imm : BitVec 16) (s : State) : Result :=
  done (s.issue { lw with s := some (.lui rd imm) })

/-- S-slot LDB (R124, R77): RD gets a sign-extended byte of data memory. -/
def execLdb (lw : LongWord) (rd ra : BitVec 5) (imm : BitVec 16) (s : State) : Result :=
  done (s.issue { lw with s := some (.load .ldb rd ra imm) })

/-- S-slot LDBU (R124, R77): RD gets a zero-extended byte of data memory. -/
def execLdbu (lw : LongWord) (rd ra : BitVec 5) (imm : BitVec 16) (s : State) : Result :=
  done (s.issue { lw with s := some (.load .ldbu rd ra imm) })

/-- S-slot LDH (R124, R77): RD gets a sign-extended half of data memory. -/
def execLdh (lw : LongWord) (rd ra : BitVec 5) (imm : BitVec 16) (s : State) : Result :=
  done (s.issue { lw with s := some (.load .ldh rd ra imm) })

/-- S-slot LDHU (R124, R77): RD gets a zero-extended half of data memory. -/
def execLdhu (lw : LongWord) (rd ra : BitVec 5) (imm : BitVec 16) (s : State) : Result :=
  done (s.issue { lw with s := some (.load .ldhu rd ra imm) })

/-- S-slot LD (R124, R77): RD gets a word of data memory. -/
def execLd (lw : LongWord) (rd ra : BitVec 5) (imm : BitVec 16) (s : State) : Result :=
  done (s.issue { lw with s := some (.load .ld rd ra imm) })

/-- S-slot STB (R124, R77): a byte of RV goes to data memory. -/
def execStb (lw : LongWord) (rv ra : BitVec 5) (imm : BitVec 16) (s : State) : Result :=
  done (s.issue { lw with s := some (.store .stb rv ra imm) })

/-- S-slot STH (R124, R77): a half of RV goes to data memory. -/
def execSth (lw : LongWord) (rv ra : BitVec 5) (imm : BitVec 16) (s : State) : Result :=
  done (s.issue { lw with s := some (.store .sth rv ra imm) })

/-- S-slot ST (R124, R77): a word of RV goes to data memory. -/
def execSt (lw : LongWord) (rv ra : BitVec 5) (imm : BitVec 16) (s : State) : Result :=
  done (s.issue { lw with s := some (.store .st rv ra imm) })

/-- S-slot BEQ (R124, R125): a branch taken where its comparison holds. -/
def execBeq (lw : LongWord) (ra rb : BitVec 5) (off : BitVec 16) (s : State) : Result :=
  done (s.issue { lw with s := some (.branch .beq ra rb off) })

/-- S-slot BNE (R124, R125): a branch taken where its comparison holds. -/
def execBne (lw : LongWord) (ra rb : BitVec 5) (off : BitVec 16) (s : State) : Result :=
  done (s.issue { lw with s := some (.branch .bne ra rb off) })

/-- S-slot BLT (R124, R125): a branch taken where its comparison holds. -/
def execBlt (lw : LongWord) (ra rb : BitVec 5) (off : BitVec 16) (s : State) : Result :=
  done (s.issue { lw with s := some (.branch .blt ra rb off) })

/-- S-slot BGE (R124, R125): a branch taken where its comparison holds. -/
def execBge (lw : LongWord) (ra rb : BitVec 5) (off : BitVec 16) (s : State) : Result :=
  done (s.issue { lw with s := some (.branch .bge ra rb off) })

/-- S-slot BLTU (R124, R125): a branch taken where its comparison holds. -/
def execBltu (lw : LongWord) (ra rb : BitVec 5) (off : BitVec 16) (s : State) : Result :=
  done (s.issue { lw with s := some (.branch .bltu ra rb off) })

/-- S-slot BGEU (R124, R125): a branch taken where its comparison holds. -/
def execBgeu (lw : LongWord) (ra rb : BitVec 5) (off : BitVec 16) (s : State) : Result :=
  done (s.issue { lw with s := some (.branch .bgeu ra rb off) })

/-- S-slot JAL (R124): RD gets the next PC and the PC moves by the offset. -/
def execJal (lw : LongWord) (rd : BitVec 5) (off : BitVec 21) (s : State) : Result :=
  done (s.issue { lw with s := some (.jal rd off) })

/-- S-slot JALR (R124): RD gets the next PC and the PC becomes RA plus the immediate. -/
def execJalr (lw : LongWord) (rd ra : BitVec 5) (imm : BitVec 16) (s : State) : Result :=
  done (s.issue { lw with s := some (.jalr rd ra imm) })

/-- S-slot CSRR (R126): RD gets the CSR. -/
def execCsrr (lw : LongWord) (rd : BitVec 5) (index : BitVec 12) (s : State) : Result :=
  done (s.issue { lw with s := some (.csr .csrr rd 0 index) })

/-- S-slot CSRW (R126): RD gets the CSR, and the CSR is written with RA, each field under its access code. -/
def execCsrw (lw : LongWord) (rd ra : BitVec 5) (index : BitVec 12) (s : State) : Result :=
  done (s.issue { lw with s := some (.csr .csrw rd ra index) })

/-- S-slot CSRS (R126): RD gets the CSR, and the RW bits that RA names are set. -/
def execCsrs (lw : LongWord) (rd ra : BitVec 5) (index : BitVec 12) (s : State) : Result :=
  done (s.issue { lw with s := some (.csr .csrs rd ra index) })

/-- S-slot CSRC (R126): RD gets the CSR, and the RW bits that RA names are cleared. -/
def execCsrc (lw : LongWord) (rd ra : BitVec 5) (index : BitVec 12) (s : State) : Result :=
  done (s.issue { lw with s := some (.csr .csrc rd ra index) })

/-- S-slot END (R75): no further long word of the task issues. -/
def execEndTask (lw : LongWord) (s : State) : Result :=
  done (s.issue { lw with s := some .endTask })

/-- S-slot TRET (R112, R127): trap mode is left. -/
def execTret (lw : LongWord) (skip : Bool) (s : State) : Result :=
  done (s.issue { lw with s := some (.tret skip) })

/-- S-slot ICINV (R127): instruction-cache lines of the range are dropped. -/
def execIcinv (lw : LongWord) (ra rb : BitVec 5) (s : State) : Result :=
  done (s.issue { lw with s := some (.icinv ra rb) })

end Sys2Proof.Machine
end

