-- ==== Sys2Proof/Machine/TowerSlot.lean ====
section
/-! DEFINITION. The operations of the T slot (R151 to R153). Each command issues the long word that it carries, with its
operation in the T slot: `tEffect` puts the tower command in the home tower's queue. -/

namespace Sys2Proof.Machine

/-- T-slot TATTN (R151 to R153): the command enters the home tower's queue with its parameter block. -/
def execTattn (lw : LongWord) (rp qret : BitVec 5) (retEn : Bool) (flag : FlagSel) (s : State) : Result :=
  done (s.issue { lw with t := some { cmd := .tattn, rp := rp, qret := qret, retEn := retEn, flag := flag } })

/-- T-slot TGEMV (R151 to R153): the command enters the home tower's queue with its parameter block. -/
def execTgemv (lw : LongWord) (rp qret : BitVec 5) (retEn : Bool) (flag : FlagSel) (s : State) : Result :=
  done (s.issue { lw with t := some { cmd := .tgemv, rp := rp, qret := qret, retEn := retEn, flag := flag } })

/-- T-slot TAPPEND (R151 to R153): the command enters the home tower's queue with its parameter block. -/
def execTappend (lw : LongWord) (rp qret : BitVec 5) (retEn : Bool) (flag : FlagSel) (s : State) : Result :=
  done (s.issue { lw with t := some { cmd := .tappend, rp := rp, qret := qret, retEn := retEn, flag := flag } })

/-- T-slot TCOMMIT (R151 to R153): the command enters the home tower's queue with its parameter block. -/
def execTcommit (lw : LongWord) (rp qret : BitVec 5) (retEn : Bool) (flag : FlagSel) (s : State) : Result :=
  done (s.issue { lw with t := some { cmd := .tcommit, rp := rp, qret := qret, retEn := retEn, flag := flag } })

/-- T-slot TDISCARD (R151 to R153): the command enters the home tower's queue with its parameter block. -/
def execTdiscard (lw : LongWord) (rp qret : BitVec 5) (retEn : Bool) (flag : FlagSel) (s : State) : Result :=
  done (s.issue { lw with t := some { cmd := .tdiscard, rp := rp, qret := qret, retEn := retEn, flag := flag } })

/-- T-slot TFLUSHKV (R151 to R153): the command enters the home tower's queue with its parameter block. -/
def execTflushkv (lw : LongWord) (rp qret : BitVec 5) (retEn : Bool) (flag : FlagSel) (s : State) : Result :=
  done (s.issue { lw with t := some { cmd := .tflushkv, rp := rp, qret := qret, retEn := retEn, flag := flag } })

/-- T-slot TFILL (R151 to R153): the command enters the home tower's queue with its parameter block. -/
def execTfill (lw : LongWord) (rp qret : BitVec 5) (retEn : Bool) (flag : FlagSel) (s : State) : Result :=
  done (s.issue { lw with t := some { cmd := .tfill, rp := rp, qret := qret, retEn := retEn, flag := flag } })

/-- T-slot TCOPY (R151 to R153): the command enters the home tower's queue with its parameter block. -/
def execTcopy (lw : LongWord) (rp qret : BitVec 5) (retEn : Bool) (flag : FlagSel) (s : State) : Result :=
  done (s.issue { lw with t := some { cmd := .tcopy, rp := rp, qret := qret, retEn := retEn, flag := flag } })

/-- T-slot TXFORM (R151 to R153): the command enters the home tower's queue with its parameter block. -/
def execTxform (lw : LongWord) (rp qret : BitVec 5) (retEn : Bool) (flag : FlagSel) (s : State) : Result :=
  done (s.issue { lw with t := some { cmd := .txform, rp := rp, qret := qret, retEn := retEn, flag := flag } })

/-- T-slot TREDUCE (R151 to R153): the command enters the home tower's queue with its parameter block. -/
def execTreduce (lw : LongWord) (rp qret : BitVec 5) (retEn : Bool) (flag : FlagSel) (s : State) : Result :=
  done (s.issue { lw with t := some { cmd := .treduce, rp := rp, qret := qret, retEn := retEn, flag := flag } })

/-- T-slot TSCRUB (R151 to R153): the command enters the home tower's queue with its parameter block. -/
def execTscrub (lw : LongWord) (rp qret : BitVec 5) (retEn : Bool) (flag : FlagSel) (s : State) : Result :=
  done (s.issue { lw with t := some { cmd := .tscrub, rp := rp, qret := qret, retEn := retEn, flag := flag } })

end Sys2Proof.Machine
end

