-- ==== Sys2Proof/Machine/Vector.lean ====
section
/-! DEFINITION. The operations of the V slot (R142 to R145). Each command issues the long word that it carries, with its
operation in the V slot: the operation's own effect is that of `vEffect`, whose result is `vecTile`'s. -/

namespace Sys2Proof.Machine

/-- V-slot VADD (R143): pushes A plus B. -/
def execVadd (lw : LongWord) (qd qa qb : BitVec 5) (keepA keepB : Bool) (round : BitVec 2) (ovf : Bool) (s : State) : Result :=
  done (s.issue { lw with v := some {
    op := .vadd, qd := qd, qa := qa, qb := qb, sr := 0, keepA := keepA, keepB := keepB, round := round, ovf := ovf } })

/-- V-slot VSUB (R143): pushes A minus B. -/
def execVsub (lw : LongWord) (qd qa qb : BitVec 5) (keepA keepB : Bool) (round : BitVec 2) (ovf : Bool) (s : State) : Result :=
  done (s.issue { lw with v := some {
    op := .vsub, qd := qd, qa := qa, qb := qb, sr := 0, keepA := keepA, keepB := keepB, round := round, ovf := ovf } })

/-- V-slot VMUL (R143): pushes A times B. -/
def execVmul (lw : LongWord) (qd qa qb : BitVec 5) (keepA keepB : Bool) (round : BitVec 2) (ovf : Bool) (s : State) : Result :=
  done (s.issue { lw with v := some {
    op := .vmul, qd := qd, qa := qa, qb := qb, sr := 0, keepA := keepA, keepB := keepB, round := round, ovf := ovf } })

/-- V-slot VMAX (R143): pushes the larger of A and B. -/
def execVmax (lw : LongWord) (qd qa qb : BitVec 5) (keepA keepB : Bool) (round : BitVec 2) (ovf : Bool) (s : State) : Result :=
  done (s.issue { lw with v := some {
    op := .vmax, qd := qd, qa := qa, qb := qb, sr := 0, keepA := keepA, keepB := keepB, round := round, ovf := ovf } })

/-- V-slot VMIN (R143): pushes the smaller of A and B. -/
def execVmin (lw : LongWord) (qd qa qb : BitVec 5) (keepA keepB : Bool) (round : BitVec 2) (ovf : Bool) (s : State) : Result :=
  done (s.issue { lw with v := some {
    op := .vmin, qd := qd, qa := qa, qb := qb, sr := 0, keepA := keepA, keepB := keepB, round := round, ovf := ovf } })

/-- V-slot VADDS (R143): pushes A plus SR. -/
def execVadds (lw : LongWord) (qd qa sr : BitVec 5) (keepA : Bool) (round : BitVec 2) (ovf : Bool) (s : State) : Result :=
  done (s.issue { lw with v := some {
    op := .vadds, qd := qd, qa := qa, qb := 0, sr := sr, keepA := keepA, keepB := false, round := round, ovf := ovf } })

/-- V-slot VMULS (R143): pushes A times SR. -/
def execVmuls (lw : LongWord) (qd qa sr : BitVec 5) (keepA : Bool) (round : BitVec 2) (ovf : Bool) (s : State) : Result :=
  done (s.issue { lw with v := some {
    op := .vmuls, qd := qd, qa := qa, qb := 0, sr := sr, keepA := keepA, keepB := false, round := round, ovf := ovf } })

/-- V-slot VFMAS (R143): pushes A times SR plus B, rounded once. -/
def execVfmas (lw : LongWord) (qd qa qb sr : BitVec 5) (keepA keepB : Bool) (round : BitVec 2) (ovf : Bool) (s : State) : Result :=
  done (s.issue { lw with v := some {
    op := .vfmas, qd := qd, qa := qa, qb := qb, sr := sr, keepA := keepA, keepB := keepB, round := round, ovf := ovf } })

/-- V-slot VSUBR (R143): pushes A minus column 0 of B. -/
def execVsubr (lw : LongWord) (qd qa qb : BitVec 5) (keepA keepB : Bool) (round : BitVec 2) (ovf : Bool) (s : State) : Result :=
  done (s.issue { lw with v := some {
    op := .vsubr, qd := qd, qa := qa, qb := qb, sr := 0, keepA := keepA, keepB := keepB, round := round, ovf := ovf } })

/-- V-slot VMULR (R143): pushes A times column 0 of B. -/
def execVmulr (lw : LongWord) (qd qa qb : BitVec 5) (keepA keepB : Bool) (round : BitVec 2) (ovf : Bool) (s : State) : Result :=
  done (s.issue { lw with v := some {
    op := .vmulr, qd := qd, qa := qa, qb := qb, sr := 0, keepA := keepA, keepB := keepB, round := round, ovf := ovf } })

/-- V-slot VRMAX (R143): pushes the row maxima of A. -/
def execVrmax (lw : LongWord) (qd qa : BitVec 5) (keepA : Bool) (round : BitVec 2) (ovf : Bool) (s : State) : Result :=
  done (s.issue { lw with v := some {
    op := .vrmax, qd := qd, qa := qa, qb := 0, sr := 0, keepA := keepA, keepB := false, round := round, ovf := ovf } })

/-- V-slot VRSUM (R143): pushes the row sums of A. -/
def execVrsum (lw : LongWord) (qd qa : BitVec 5) (keepA : Bool) (round : BitVec 2) (ovf : Bool) (s : State) : Result :=
  done (s.issue { lw with v := some {
    op := .vrsum, qd := qd, qa := qa, qb := 0, sr := 0, keepA := keepA, keepB := false, round := round, ovf := ovf } })

/-- V-slot VCVT (R143): pushes A converted. -/
def execVcvt (lw : LongWord) (qd qa : BitVec 5) (keepA : Bool) (round : BitVec 2) (ovf : Bool) (s : State) : Result :=
  done (s.issue { lw with v := some {
    op := .vcvt, qd := qd, qa := qa, qb := 0, sr := 0, keepA := keepA, keepB := false, round := round, ovf := ovf } })

/-- V-slot VCAUSAL (R143): pushes A with minus infinity right of the diagonal that SR sets. -/
def execVcausal (lw : LongWord) (qd qa sr : BitVec 5) (keepA : Bool) (round : BitVec 2) (ovf : Bool) (s : State) : Result :=
  done (s.issue { lw with v := some {
    op := .vcausal, qd := qd, qa := qa, qb := 0, sr := sr, keepA := keepA, keepB := false, round := round, ovf := ovf } })

/-- V-slot VEXP (R143): pushes the exponential of A, approximated. -/
def execVexp (lw : LongWord) (qd qa : BitVec 5) (keepA : Bool) (round : BitVec 2) (ovf : Bool) (s : State) : Result :=
  done (s.issue { lw with v := some {
    op := .vexp, qd := qd, qa := qa, qb := 0, sr := 0, keepA := keepA, keepB := false, round := round, ovf := ovf } })

/-- V-slot VRCP (R143): pushes the reciprocal of A, approximated. -/
def execVrcp (lw : LongWord) (qd qa : BitVec 5) (keepA : Bool) (round : BitVec 2) (ovf : Bool) (s : State) : Result :=
  done (s.issue { lw with v := some {
    op := .vrcp, qd := qd, qa := qa, qb := 0, sr := 0, keepA := keepA, keepB := false, round := round, ovf := ovf } })

/-- V-slot VRSQ (R143): pushes the reciprocal square root of A, approximated. -/
def execVrsq (lw : LongWord) (qd qa : BitVec 5) (keepA : Bool) (round : BitVec 2) (ovf : Bool) (s : State) : Result :=
  done (s.issue { lw with v := some {
    op := .vrsq, qd := qd, qa := qa, qb := 0, sr := 0, keepA := keepA, keepB := false, round := round, ovf := ovf } })

/-- V-slot VGELU (R143): pushes GELU of A, approximated. -/
def execVgelu (lw : LongWord) (qd qa : BitVec 5) (keepA : Bool) (round : BitVec 2) (ovf : Bool) (s : State) : Result :=
  done (s.issue { lw with v := some {
    op := .vgelu, qd := qd, qa := qa, qb := 0, sr := 0, keepA := keepA, keepB := false, round := round, ovf := ovf } })

/-- V-slot VSILU (R143): pushes SiLU of A, approximated. -/
def execVsilu (lw : LongWord) (qd qa : BitVec 5) (keepA : Bool) (round : BitVec 2) (ovf : Bool) (s : State) : Result :=
  done (s.issue { lw with v := some {
    op := .vsilu, qd := qd, qa := qa, qb := 0, sr := 0, keepA := keepA, keepB := false, round := round, ovf := ovf } })

/-- V-slot VRELU (R143): pushes A with negative values at zero. -/
def execVrelu (lw : LongWord) (qd qa : BitVec 5) (keepA : Bool) (round : BitVec 2) (ovf : Bool) (s : State) : Result :=
  done (s.issue { lw with v := some {
    op := .vrelu, qd := qd, qa := qa, qb := 0, sr := 0, keepA := keepA, keepB := false, round := round, ovf := ovf } })

end Sys2Proof.Machine
end

