-- ==== Sys2Proof/Machine/Dispatch.lean ====
section
/-! DEFINITION. One arm per command: a direct call of its meaning, or its rejection by name. -/

namespace Sys2Proof.Machine

def exec (i : Instr) (s : State) : Host.Outcome State Fault Refusal :=
  match i with
  | .registerWrite fn place wide value => Sys2Proof.Machine.execRegisterWrite fn place wide value s
  | .cupGranWrite fn k value => Sys2Proof.Machine.execCupGranWrite fn k value s
  | .granuleChangeDone k => Sys2Proof.Machine.execGranuleChangeDone k s
  | .cupolaScratchAccess granule word access upset => Sys2Proof.Machine.execCupolaScratchAccess granule word access upset s
  | .cupolaEviction spire part line => Sys2Proof.Machine.execCupolaEviction spire part line s
  | .ratioChangeRequest group ratio => Sys2Proof.Machine.execRatioChangeRequest group ratio s
  | .ratioChangeDone group => Sys2Proof.Machine.execRatioChangeDone group s
  | .taskPlace part job => Sys2Proof.Machine.execTaskPlace part job s
  | .emptyLongWord core wait hint => Sys2Proof.Machine.execEmptyLongWord core wait hint s
  | .add lw rd ra rb => Sys2Proof.Machine.execAdd lw rd ra rb s
  | .sub lw rd ra rb => Sys2Proof.Machine.execSub lw rd ra rb s
  | .and lw rd ra rb => Sys2Proof.Machine.execAnd lw rd ra rb s
  | .or lw rd ra rb => Sys2Proof.Machine.execOr lw rd ra rb s
  | .xor lw rd ra rb => Sys2Proof.Machine.execXor lw rd ra rb s
  | .sll lw rd ra rb => Sys2Proof.Machine.execSll lw rd ra rb s
  | .srl lw rd ra rb => Sys2Proof.Machine.execSrl lw rd ra rb s
  | .sra lw rd ra rb => Sys2Proof.Machine.execSra lw rd ra rb s
  | .slt lw rd ra rb => Sys2Proof.Machine.execSlt lw rd ra rb s
  | .sltu lw rd ra rb => Sys2Proof.Machine.execSltu lw rd ra rb s
  | .mul lw rd ra rb => Sys2Proof.Machine.execMul lw rd ra rb s
  | .mulhu lw rd ra rb => Sys2Proof.Machine.execMulhu lw rd ra rb s
  | .mulh lw rd ra rb => Sys2Proof.Machine.execMulh lw rd ra rb s
  | .addi lw rd ra imm => Sys2Proof.Machine.execAddi lw rd ra imm s
  | .andi lw rd ra imm => Sys2Proof.Machine.execAndi lw rd ra imm s
  | .ori lw rd ra imm => Sys2Proof.Machine.execOri lw rd ra imm s
  | .xori lw rd ra imm => Sys2Proof.Machine.execXori lw rd ra imm s
  | .slli lw rd ra imm => Sys2Proof.Machine.execSlli lw rd ra imm s
  | .srli lw rd ra imm => Sys2Proof.Machine.execSrli lw rd ra imm s
  | .srai lw rd ra imm => Sys2Proof.Machine.execSrai lw rd ra imm s
  | .slti lw rd ra imm => Sys2Proof.Machine.execSlti lw rd ra imm s
  | .lui lw rd imm => Sys2Proof.Machine.execLui lw rd imm s
  | .ldb lw rd ra imm => Sys2Proof.Machine.execLdb lw rd ra imm s
  | .ldbu lw rd ra imm => Sys2Proof.Machine.execLdbu lw rd ra imm s
  | .ldh lw rd ra imm => Sys2Proof.Machine.execLdh lw rd ra imm s
  | .ldhu lw rd ra imm => Sys2Proof.Machine.execLdhu lw rd ra imm s
  | .ld lw rd ra imm => Sys2Proof.Machine.execLd lw rd ra imm s
  | .stb lw rv ra imm => Sys2Proof.Machine.execStb lw rv ra imm s
  | .sth lw rv ra imm => Sys2Proof.Machine.execSth lw rv ra imm s
  | .st lw rv ra imm => Sys2Proof.Machine.execSt lw rv ra imm s
  | .beq lw ra rb off => Sys2Proof.Machine.execBeq lw ra rb off s
  | .bne lw ra rb off => Sys2Proof.Machine.execBne lw ra rb off s
  | .blt lw ra rb off => Sys2Proof.Machine.execBlt lw ra rb off s
  | .bge lw ra rb off => Sys2Proof.Machine.execBge lw ra rb off s
  | .bltu lw ra rb off => Sys2Proof.Machine.execBltu lw ra rb off s
  | .bgeu lw ra rb off => Sys2Proof.Machine.execBgeu lw ra rb off s
  | .jal lw rd off => Sys2Proof.Machine.execJal lw rd off s
  | .jalr lw rd ra imm => Sys2Proof.Machine.execJalr lw rd ra imm s
  | .csrr lw rd index => Sys2Proof.Machine.execCsrr lw rd index s
  | .csrw lw rd ra index => Sys2Proof.Machine.execCsrw lw rd ra index s
  | .csrs lw rd ra index => Sys2Proof.Machine.execCsrs lw rd ra index s
  | .csrc lw rd ra index => Sys2Proof.Machine.execCsrc lw rd ra index s
  | .endTask lw => Sys2Proof.Machine.execEndTask lw s
  | .taskEnd core => Sys2Proof.Machine.execTaskEnd core s
  | .tret lw skip => Sys2Proof.Machine.execTret lw skip s
  | .icinv lw ra rb => Sys2Proof.Machine.execIcinv lw ra rb s
  | .bind lw qend kind fmt depthM1 param rb => Sys2Proof.Machine.execBind lw qend kind fmt depthM1 param rb s
  | .qmov lw qa qb => Sys2Proof.Machine.execQmov lw qa qb s
  | .qdup lw qa qb qc => Sys2Proof.Machine.execQdup lw qa qb qc s
  | .qdrop lw qa => Sys2Proof.Machine.execQdrop lw qa s
  | .tpush lw qb ra rowsM1 colsM1 => Sys2Proof.Machine.execTpush lw qb ra rowsM1 colsM1 s
  | .tpop lw qa ra rd => Sys2Proof.Machine.execTpop lw qa ra rd s
  | .qlive lw ra rb => Sys2Proof.Machine.execQlive lw ra rb s
  | .queueTimeout core => Sys2Proof.Machine.execQueueTimeout core s
  | .cupolaInPush core queue => Sys2Proof.Machine.execCupolaInPush core queue s
  | .cupolaOutWrite core queue => Sys2Proof.Machine.execCupolaOutWrite core queue s
  | .neighbourTileArrival core queue => Sys2Proof.Machine.execNeighbourTileArrival core queue s
  | .fld lw size rd ra => Sys2Proof.Machine.execFld lw size rd ra s
  | .fldDone core index => Sys2Proof.Machine.execFldDone core index s
  | .fst lw size rv ra cntEn counter => Sys2Proof.Machine.execFst lw size rv ra cntEn counter s
  | .fstDone core index => Sys2Proof.Machine.execFstDone core index s
  | .atom lw size aop scope rd ra rb => Sys2Proof.Machine.execAtom lw size aop scope rd ra rb s
  | .atomicPerform core index => Sys2Proof.Machine.execAtomicPerform core index s
  | .atomDone core index => Sys2Proof.Machine.execAtomDone core index s
  | .fence lw flag scope => Sys2Proof.Machine.execFence lw flag scope s
  | .fenceDone core index => Sys2Proof.Machine.execFenceDone core index s
  | .semacq lw flag scope sem => Sys2Proof.Machine.execSemacq lw flag scope sem s
  | .semacqGrant part sem => Sys2Proof.Machine.execSemacqGrant part sem s
  | .semrel lw flag scope sem => Sys2Proof.Machine.execSemrel lw flag scope sem s
  | .semrelDone core index => Sys2Proof.Machine.execSemrelDone core index s
  | .cntwait lw flag ra counter => Sys2Proof.Machine.execCntwait lw flag ra counter s
  | .cntwaitDone core index => Sys2Proof.Machine.execCntwaitDone core index s
  | .dmak lw flag ra channel => Sys2Proof.Machine.execDmak lw flag ra channel s
  | .tflush lw flag ra rb => Sys2Proof.Machine.execTflush lw flag ra rb s
  | .tflushDone core index => Sys2Proof.Machine.execTflushDone core index s
  | .tinval lw flag ra rb => Sys2Proof.Machine.execTinval lw flag ra rb s
  | .tinvalDone core index => Sys2Proof.Machine.execTinvalDone core index s
  | .lcfg lw flag ra => Sys2Proof.Machine.execLcfg lw flag ra s
  | .lcfgDone core => Sys2Proof.Machine.execLcfgDone core s
  | .start lw ra => Sys2Proof.Machine.execStart lw ra s
  | .sequencerTile core => Sys2Proof.Machine.execSequencerTile core s
  | .sliceEnd core => Sys2Proof.Machine.execSliceEnd core s
  | .sequencerTrap core => Sys2Proof.Machine.execSequencerTrap core s
  | .vadd lw qd qa qb keepA keepB round ovf => Sys2Proof.Machine.execVadd lw qd qa qb keepA keepB round ovf s
  | .vsub lw qd qa qb keepA keepB round ovf => Sys2Proof.Machine.execVsub lw qd qa qb keepA keepB round ovf s
  | .vmul lw qd qa qb keepA keepB round ovf => Sys2Proof.Machine.execVmul lw qd qa qb keepA keepB round ovf s
  | .vmax lw qd qa qb keepA keepB round ovf => Sys2Proof.Machine.execVmax lw qd qa qb keepA keepB round ovf s
  | .vmin lw qd qa qb keepA keepB round ovf => Sys2Proof.Machine.execVmin lw qd qa qb keepA keepB round ovf s
  | .vadds lw qd qa sr keepA round ovf => Sys2Proof.Machine.execVadds lw qd qa sr keepA round ovf s
  | .vmuls lw qd qa sr keepA round ovf => Sys2Proof.Machine.execVmuls lw qd qa sr keepA round ovf s
  | .vfmas lw qd qa qb sr keepA keepB round ovf => Sys2Proof.Machine.execVfmas lw qd qa qb sr keepA keepB round ovf s
  | .vsubr lw qd qa qb keepA keepB round ovf => Sys2Proof.Machine.execVsubr lw qd qa qb keepA keepB round ovf s
  | .vmulr lw qd qa qb keepA keepB round ovf => Sys2Proof.Machine.execVmulr lw qd qa qb keepA keepB round ovf s
  | .vrmax lw qd qa keepA round ovf => Sys2Proof.Machine.execVrmax lw qd qa keepA round ovf s
  | .vrsum lw qd qa keepA round ovf => Sys2Proof.Machine.execVrsum lw qd qa keepA round ovf s
  | .vcvt lw qd qa keepA round ovf => Sys2Proof.Machine.execVcvt lw qd qa keepA round ovf s
  | .vcausal lw qd qa sr keepA round ovf => Sys2Proof.Machine.execVcausal lw qd qa sr keepA round ovf s
  | .vexp lw qd qa keepA round ovf => Sys2Proof.Machine.execVexp lw qd qa keepA round ovf s
  | .vrcp lw qd qa keepA round ovf => Sys2Proof.Machine.execVrcp lw qd qa keepA round ovf s
  | .vrsq lw qd qa keepA round ovf => Sys2Proof.Machine.execVrsq lw qd qa keepA round ovf s
  | .vgelu lw qd qa keepA round ovf => Sys2Proof.Machine.execVgelu lw qd qa keepA round ovf s
  | .vsilu lw qd qa keepA round ovf => Sys2Proof.Machine.execVsilu lw qd qa keepA round ovf s
  | .vrelu lw qd qa keepA round ovf => Sys2Proof.Machine.execVrelu lw qd qa keepA round ovf s
  | .mmac lw qa qb acc keepA keepB zero => Sys2Proof.Machine.execMmac lw qa qb acc keepA keepB zero s
  | .mdrain lw qc acc zero round ovf => Sys2Proof.Machine.execMdrain lw qc acc zero round ovf s
  | .mzero lw acc => Sys2Proof.Machine.execMzero lw acc s
  | .mlda lw qa acc keepA => Sys2Proof.Machine.execMlda lw qa acc keepA s
  | .mtr lw qa qc keepA => Sys2Proof.Machine.execMtr lw qa qc keepA s
  | .tattn lw rp qret retEn flag => Sys2Proof.Machine.execTattn lw rp qret retEn flag s
  | .tgemv lw rp qret retEn flag => Sys2Proof.Machine.execTgemv lw rp qret retEn flag s
  | .tappend lw rp qret retEn flag => Sys2Proof.Machine.execTappend lw rp qret retEn flag s
  | .tcommit lw rp qret retEn flag => Sys2Proof.Machine.execTcommit lw rp qret retEn flag s
  | .tdiscard lw rp qret retEn flag => Sys2Proof.Machine.execTdiscard lw rp qret retEn flag s
  | .tflushkv lw rp qret retEn flag => Sys2Proof.Machine.execTflushkv lw rp qret retEn flag s
  | .tfill lw rp qret retEn flag => Sys2Proof.Machine.execTfill lw rp qret retEn flag s
  | .tcopy lw rp qret retEn flag => Sys2Proof.Machine.execTcopy lw rp qret retEn flag s
  | .txform lw rp qret retEn flag => Sys2Proof.Machine.execTxform lw rp qret retEn flag s
  | .treduce lw rp qret retEn flag => Sys2Proof.Machine.execTreduce lw rp qret retEn flag s
  | .tscrub lw rp qret retEn flag => Sys2Proof.Machine.execTscrub lw rp qret retEn flag s
  | .tcmdHeadCheck tower => Sys2Proof.Machine.execTcmdHeadCheck tower s
  | .tcmdStart tower => Sys2Proof.Machine.execTcmdStart tower s
  | .tcmdComplete tower index => Sys2Proof.Machine.execTcmdComplete tower index s
  | .tcmdReturnPush tower index => Sys2Proof.Machine.execTcmdReturnPush tower index s
  | .tcmdWatchdog tower index => Sys2Proof.Machine.execTcmdWatchdog tower index s
  | .tseqPurge tower => Sys2Proof.Machine.execTseqPurge tower s
  | .tseqBusyLoRead tower => Sys2Proof.Machine.execTseqBusyLoRead tower s
  | .towerAccess tower wordAddr engineId access upset => Sys2Proof.Machine.execTowerAccess tower wordAddr engineId access upset s
  | .narrowWrite tower wordAddr engineId offset bytes upset => Sys2Proof.Machine.execNarrowWrite tower wordAddr engineId offset bytes upset s
  | .colRepairDone tower floor bank word => Sys2Proof.Machine.execColRepairDone tower floor bank word s
  | .ceWindowExpire tower frame => Sys2Proof.Machine.execCeWindowExpire tower frame s
  | .frameTableWrite tower index value => Sys2Proof.Machine.execFrameTableWrite tower index value s
  | .clrCounts tower => Sys2Proof.Machine.execClrCounts tower s
  | .sanitise tower => Sys2Proof.Machine.execSanitise tower s
  | .sanitiseDone tower => Sys2Proof.Machine.execSanitiseDone tower s
  | .twrPinWrite tower mask => Sys2Proof.Machine.execTwrPinWrite tower mask s
  | .twrMigrate tower frame destBand => Sys2Proof.Machine.execTwrMigrate tower frame destBand s
  | .migrationDone tower => Sys2Proof.Machine.execMigrationDone tower s
  | .refresh tower floor bank => Sys2Proof.Machine.execRefresh tower floor bank s
  | .tempReading tower celsius => Sys2Proof.Machine.execTempReading tower celsius s
  | .patrolScrubRow tower => Sys2Proof.Machine.execPatrolScrubRow tower s
  | .hostBar2Write fn offset bytes poisoned => Sys2Proof.Machine.execHostBar2Write fn offset bytes poisoned s
  | .hostBar2Read fn offset length => Sys2Proof.Machine.execHostBar2Read fn offset length s
  | .srvSubmit fn part index => Sys2Proof.Machine.execSrvSubmit fn part index s
  | .srvCancel fn part index => Sys2Proof.Machine.execSrvCancel fn part index s
  | .srvRelease fn part index => Sys2Proof.Machine.execSrvRelease fn part index s
  | .srvCtlWrite fn part value => Sys2Proof.Machine.execSrvCtlWrite fn part value s
  | .pfxFlush fn part => Sys2Proof.Machine.execPfxFlush fn part s
  | .servingStep part model => Sys2Proof.Machine.execServingStep part model s
  | .stepResult part => Sys2Proof.Machine.execStepResult part s
  | .promptChunkDone part request => Sys2Proof.Machine.execPromptChunkDone part request s
  | .lastEntryWrite part request => Sys2Proof.Machine.execLastEntryWrite part request s
  | .cntAdd fn part index amount => Sys2Proof.Machine.execCntAdd fn part index amount s
  | .semWrite fn part sem value => Sys2Proof.Machine.execSemWrite fn part sem value s
  | .jobEnable fn part job value => Sys2Proof.Machine.execJobEnable fn part job value s
  | .jobDisable fn part job value => Sys2Proof.Machine.execJobDisable fn part job value s
  | .pringTail fn part job tail => Sys2Proof.Machine.execPringTail fn part job tail s
  | .ringEntryFetch part job => Sys2Proof.Machine.execRingEntryFetch part job s
  | .commandComplete part job => Sys2Proof.Machine.execCommandComplete part job s
  | .jobResident part job => Sys2Proof.Machine.execJobResident part job s
  | .sliceExpiry part job => Sys2Proof.Machine.execSliceExpiry part job s
  | .urgentPreempt part job => Sys2Proof.Machine.execUrgentPreempt part job s
  | .contextSaveDone part job => Sys2Proof.Machine.execContextSaveDone part job s
  | .clear fn part job => Sys2Proof.Machine.execClear fn part job s
  | .kill fn part job => Sys2Proof.Machine.execKill fn part job s
  | .killDrainEnd part job => Sys2Proof.Machine.execKillDrainEnd part job s
  | .donation part job sem => Sys2Proof.Machine.execDonation part job sem s
  | .modelLoadDone part job => Sys2Proof.Machine.execModelLoadDone part job s
  | .governorEpoch hottest => Sys2Proof.Machine.execGovernorEpoch hottest s
  | .brake cause => Sys2Proof.Machine.execBrake cause s
  | .brakeRelease cause => Sys2Proof.Machine.execBrakeRelease cause s
  | .thermalTrip site celsius => Sys2Proof.Machine.execThermalTrip site celsius s
  | .g1Entry group => Sys2Proof.Machine.execG1Entry group s
  | .g2Entry group => Sys2Proof.Machine.execG2Entry group s
  | .g3Entry group => Sys2Proof.Machine.execG3Entry group s
  | .g4Entry group => Sys2Proof.Machine.execG4Entry group s
  | .govGrpCfgWrite fn group value => Sys2Proof.Machine.execGovGrpCfgWrite fn group value s
  | .groupWake group => Sys2Proof.Machine.execGroupWake group s
  | .g4ExitDone group => Sys2Proof.Machine.execG4ExitDone group s
  | .pjobAcctLoRead fn part job => Sys2Proof.Machine.execPjobAcctLoRead fn part job s
  | .chKick fn engine channel chain => Sys2Proof.Machine.execChKick fn engine channel chain s
  | .phdmaKick fn part engine channel chain => Sys2Proof.Machine.execPhdmaKick fn part engine channel chain s
  | .abort fn engine channel => Sys2Proof.Machine.execAbort fn engine channel s
  | .chDescLoRead fn engine channel => Sys2Proof.Machine.execChDescLoRead fn engine channel s
  | .chProgLoRead fn engine channel => Sys2Proof.Machine.execChProgLoRead fn engine channel s
  | .dmaChannelSelect engine => Sys2Proof.Machine.execDmaChannelSelect engine s
  | .dmaDescriptorFetch engine => Sys2Proof.Machine.execDmaDescriptorFetch engine s
  | .dmaBurst engine => Sys2Proof.Machine.execDmaBurst engine s
  | .rateGapEnd engine channel => Sys2Proof.Machine.execRateGapEnd engine channel s
  | .dmaTransferEnd engine => Sys2Proof.Machine.execDmaTransferEnd engine s
  | .dmaCopy engine => Sys2Proof.Machine.execDmaCopy engine s
  | .compress engine => Sys2Proof.Machine.execCompress engine s
  | .expand engine => Sys2Proof.Machine.execExpand engine s
  | .link engine => Sys2Proof.Machine.execLink engine s
  | .kn4 engine => Sys2Proof.Machine.execKn4 engine s
  | .tableLoad engine => Sys2Proof.Machine.execTableLoad engine s
  | .tensor engine => Sys2Proof.Machine.execTensor engine s
  | .toQueue engine => Sys2Proof.Machine.execToQueue engine s
  | .fromQueue engine => Sys2Proof.Machine.execFromQueue engine s
  | .cblockExpand engine => Sys2Proof.Machine.execCblockExpand engine s
  | .pctlEnable fn part value => Sys2Proof.Machine.execPctlEnable fn part value s
  | .pctlDisable fn part value => Sys2Proof.Machine.execPctlDisable fn part value s
  | .reset fn part value => Sys2Proof.Machine.execReset fn part value s
  | .flr fn how => Sys2Proof.Machine.execFlr fn how s
  | .disableDrainEnd part => Sys2Proof.Machine.execDisableDrainEnd part s
  | .flrFlushReadDone part => Sys2Proof.Machine.execFlrFlushReadDone part s
  | .cleaningDone part => Sys2Proof.Machine.execCleaningDone part s
  | .gfeatSelWrite fn key index => Sys2Proof.Machine.execGfeatSelWrite fn key index s
  | .detectDone link lanes => Sys2Proof.Machine.execDetectDone link lanes s
  | .equaliseDone link => Sys2Proof.Machine.execEqualiseDone link s
  | .laneMapDone link ownGood => Sys2Proof.Machine.execLaneMapDone link ownGood s
  | .creditInitDone link => Sys2Proof.Machine.execCreditInitDone link s
  | .trainTimeout link => Sys2Proof.Machine.execTrainTimeout link s
  | .train link info => Sys2Proof.Machine.execTrain link info s
  | .idle link flit => Sys2Proof.Machine.execIdle link flit s
  | .data link flit => Sys2Proof.Machine.execData link flit s
  | .ackReport link => Sys2Proof.Machine.execAckReport link s
  | .replayTimeout link => Sys2Proof.Machine.execReplayTimeout link s
  | .write link flit => Sys2Proof.Machine.execWrite link flit s
  | .cblock link flit => Sys2Proof.Machine.execCblock link flit s
  | .read link flit => Sys2Proof.Machine.execRead link flit s
  | .atomic link flit => Sys2Proof.Machine.execAtomic link flit s
  | .resp link flit => Sys2Proof.Machine.execResp link flit s
  | .wack link flit => Sys2Proof.Machine.execWack link flit s
  | .err link flit => Sys2Proof.Machine.execErr link flit s
  | .laneFail link lane => Sys2Proof.Machine.execLaneFail link lane s
  | .retrain fn link => Sys2Proof.Machine.execRetrain fn link s
  | .retrainFail link => Sys2Proof.Machine.execRetrainFail link s
  | .volLctlClrCounts fn link => Sys2Proof.Machine.execVolLctlClrCounts fn link s
  | .volIdWrite fn id => Sys2Proof.Machine.execVolIdWrite fn id s
  | .powerGood failures => Sys2Proof.Machine.execPowerGood failures s
  | .ready => Sys2Proof.Machine.execReady s
  | .perstAssert => Sys2Proof.Machine.execPerstAssert s
  | .perstRelease => Sys2Proof.Machine.execPerstRelease s
  | .mbxDoorbell fn length => Sys2Proof.Machine.execMbxDoorbell fn length s
  | .mbxResponse => Sys2Proof.Machine.execMbxResponse s
  | .getInfo => Sys2Proof.Machine.execGetInfo s
  | .readSensors => Sys2Proof.Machine.execReadSensors s
  | .readLog => Sys2Proof.Machine.execReadLog s
  | .writeSettings => Sys2Proof.Machine.execWriteSettings s
  | .otpWrite => Sys2Proof.Machine.execOtpWrite s
  | .fwStage => Sys2Proof.Machine.execFwStage s
  | .fwActivate => Sys2Proof.Machine.execFwActivate s
  | .fwActivateFallback => Sys2Proof.Machine.execFwActivateFallback s
  | .pldmFirmwareUpdate path request => Sys2Proof.Machine.execPldmFirmwareUpdate path request s
  | .ucodeApply => Sys2Proof.Machine.execUcodeApply s
  | .ucodeIdlePoint part => Sys2Proof.Machine.execUcodeIdlePoint part s
  | .ucodeTimeout part => Sys2Proof.Machine.execUcodeTimeout part s
  | .repairPersist => Sys2Proof.Machine.execRepairPersist s
  | .debugChallenge => Sys2Proof.Machine.execDebugChallenge s
  | .debugUnlock => Sys2Proof.Machine.execDebugUnlock s
  | .debugLock fn => Sys2Proof.Machine.execDebugLock fn s
  | .logSync fn => Sys2Proof.Machine.execLogSync fn s
  | .logFlashCopy => Sys2Proof.Machine.execLogFlashCopy s
  | .sensorSample values => Sys2Proof.Machine.execSensorSample values s
  | .spdmRequest path request => Sys2Proof.Machine.execSpdmRequest path request s
  | .mctpRequest path message => Sys2Proof.Machine.execMctpRequest path message s
  | .aldeahWatchdog => Sys2Proof.Machine.execAldeahWatchdog s
  | .aldeahReset cause => Sys2Proof.Machine.execAldeahReset cause s
  | .errorRecordLeave => Sys2Proof.Machine.execErrorRecordLeave s
  | .errStatWrite fn value => Sys2Proof.Machine.execErrStatWrite fn value s
  | .errCoreTest cause core => Sys2Proof.Machine.execErrCoreTest cause core s
  | .coreDrained core => Sys2Proof.Machine.execCoreDrained core s
  | .coreBistDone core pass => Sys2Proof.Machine.execCoreBistDone core pass s
  | .errGroupTest fn group => Sys2Proof.Machine.execErrGroupTest fn group s
  | .groupTestDone group failedStep => Sys2Proof.Machine.execGroupTestDone group failedStep s
  | .twrEvac fn tower floor => Sys2Proof.Machine.execTwrEvac fn tower floor s
  | .evacuationDone tower => Sys2Proof.Machine.execEvacuationDone tower s
  | .chanFold tower channel kind => Sys2Proof.Machine.execChanFold tower channel kind s
  | .pwrEnAssert => Sys2Proof.Machine.execPwrEnAssert s
  | .bulkCharged => Sys2Proof.Machine.execBulkCharged s
  | .pwrEnDeassert => Sys2Proof.Machine.execPwrEnDeassert s
  | .pwrEnIgnoreEnd => Sys2Proof.Machine.execPwrEnIgnoreEnd s
  | .vinOvervoltage volts => Sys2Proof.Machine.execVinOvervoltage volts s
  | .supplyFail millivolts => Sys2Proof.Machine.execSupplyFail millivolts s
  | .holdUpLoss volts => Sys2Proof.Machine.execHoldUpLoss volts s
  | .junctionOvertemp site celsius => Sys2Proof.Machine.execJunctionOvertemp site celsius s
  | .regulatorFault page => Sys2Proof.Machine.execRegulatorFault page s
  | .refclkLoss => Sys2Proof.Machine.execRefclkLoss s
  | .alertResponse => Sys2Proof.Machine.execAlertResponse s
  | .aldeahRestartDone => Sys2Proof.Machine.execAldeahRestartDone s
  | .volLctlEnable fn link enable allowX4 => Sys2Proof.Machine.execVolLctlEnable fn link enable allowX4 s
  | .pcieLinkChange width rate l0p => Sys2Proof.Machine.execPcieLinkChange width rate l0p s

end Sys2Proof.Machine
end

