-- ==== Sys2Proof/Machine/Readback.lean ====
section
/-! DEFINITION. What a read of a register returns (R7, R369): the value held for it, with the fields that the device
keeps elsewhere put in. Reads change nothing but the latches, which are commands of their own. -/

namespace Sys2Proof.Machine

def pstateNum : PState → Nat
  | .g0 => 0 | .g1 => 1 | .g2 => 2 | .g3 => 3 | .g4 => 4

def partStateNum : PartState → Nat
  | .disabled => 0 | .enabled => 1 | .draining => 2 | .cleaning => 3 | .flr => 4

def jobStateNum : JobState → Nat
  | .disabled => 0 | .idle => 1 | .ready => 2 | .resident => 3 | .preempted => 4 | .faulted => 5 | .killing => 6
  | .loading => 7

def chStateNum : ChState → Nat
  | .idle => 0 | .running => 1 | .parked => 2 | .paused => 3 | .halted => 4

/-! ## Degraded operation (R368) -/

/-- Whether the port has trained below x16, which an L0p change is not, or runs below 64 GT/s (R368). -/
def State.portDegraded (s : State) : Bool :=
  decide (s.port.width ≠ 0) && (decide (s.port.rate < 64) || decide (s.port.trained < 16))

/-- PSTAT.DEGRADED (Table 11-4). -/
def State.partDegraded (s : State) (p : Nat) : Bool :=
  s.portDegraded || (s.towersOf p).any fun t => (s.tower t).evac.isSome

/-- GSTAT.DEGRADED (R418). -/
def State.degraded (s : State) : Bool :=
  decide (s.groupOutMask ≠ 0) || s.portDegraded || (List.range s.units).any s.partDegraded

/-! ## Discovery (R379, Table 11-9) -/

/-- The value of a key and index for the PF. -/
def State.globalKey (s : State) (key index : Nat) : Nat :=
  match key with
  | 0x40 => s.units
  | 0x41 => s.units
  | 0x42 => 8
  | 0x43 => match s.variant with
    | .kq12 => 1
    | .kq08 => 0
  | 0x44 => s.port.width
  | 0x45 => s.port.rate
  | 0x46 => if s.coreExists index then s.spireOf index * 256 + s.physCore index else 0
  | 0x47 => s.regField (routerBase + Off.volId) 0 13
  | k => if s.coreExists index then s.discovery index k else 0

/-- The value of a key and index for partition `p`: indices outside its home cores read zero. -/
def State.partKey (s : State) (p key index : Nat) : Nat :=
  if (s.towersOf p).any (fun g => (homeCores g).contains index) then s.globalKey key index else 0

/-! ## The blocks -/

/-- A mask of the units of a list of numbers that lie in a run of 32. -/
def maskOf (l : List Nat) (first : Nat) : Nat :=
  (List.range 32).foldl (fun m i => if l.contains (first + i) then m + 2 ^ i else m) 0

/-- CUP_GRANk (Table 01-10). -/
def granuleBits (g : Granule) : Nat :=
  b2n g.scratch * 2 ^ 31 + b2n g.busy * 2 ^ 30 + b2n g.err * 2 ^ 29 + g.part % 16

def State.readGlobal (s : State) (o v : Nat) : Nat :=
  if o = Off.gstat then v + b2n s.degraded * 2 ^ 29 + s.groupOutMask
  else if o = Off.gfeatVal then s.globalKey (s.regField Off.gfeatSel 0 8) (s.regField Off.gfeatSel 16 16)
  else if Off.cupGran ≤ o && o < Off.cupGran + 256 then granuleBits (s.granule ((o - Off.cupGran) / 4))
  else if Off.msixPfPba ≤ o && o < Off.msixPfPba + 256 then maskOf s.landing.msixPending (8 * (o - Off.msixPfPba))
  else v

def State.readGov (s : State) (o v : Nat) : Nat :=
  if Off.govGrpCfg ≤ o && o < Off.govGrpCfg + 48 then
    let g := s.group ((o - Off.govGrpCfg) / 4)
    putField (putField v 9 3 (pstateNum g.pstate)) 7 2 g.ratio
  else if Off.govGrant ≤ o && o < Off.govGrant + 48 then (s.group ((o - Off.govGrant) / 4)).grant % 2 ^ 16
  else if Off.govPurse ≤ o && o < Off.govPurse + 48 then
    (BitVec.ofInt 32 (s.group ((o - Off.govPurse) / 4)).purse).toNat
  else if Off.govPrice ≤ o && o < Off.govPrice + 64 then
    let c := (o - Off.govPrice) / 4
    corePrice c * 2 ^ 24 + towerPrice c * 2 ^ 16 + dmaPrice c * 2 ^ 8
  else v

/-- PJOB_STAT and the accounts (Table 09-12); FAULT_STATUS is a status code. -/
def State.readJobReg (s : State) (p j k v : Nat) : Nat :=
  let b := s.job p j
  if k = Off.pjobStat then
    v + jobStateNum b.state * 2 ^ 29 + b2n b.donated * 2 ^ 26 + b2n b.held * 2 ^ 25 + (min b.age 15) * 2 ^ 21 +
      statusCode b.faultStatus
  else if k = Off.pjobAcctLo then b.account.toNat % 2 ^ 32
  else if k = Off.pjobAcctHi then b.acctHi.toNat
  else v

/-- A register of a partition block. The serving sequencer's key reads as zero (R246), and its evictions and flushes end in
the command that begins them. -/
def State.readPart (s : State) (p o v : Nat) : Nat :=
  if o = Off.pstat then v + partStateNum (s.part p).state * 2 ^ 29 + b2n (s.partDegraded p) * 2 ^ 27
  else if o = Off.pfeatVal then
    s.partKey p (s.regField (partBase p + Off.pfeatSel) 0 8) (s.regField (partBase p + Off.pfeatSel) 16 16)
  else if o = Off.plinkx then s.linkx p
  else if o = Off.srvStat then v + ((s.part p).srv.reqs.length + (s.part p).srv.held.length) * 2 ^ 16
  else if Off.srvPfxKey ≤ o && o < Off.srvPfxKey + 16 then 0
  else if 0x2000 ≤ o && o < 0x4000 then s.readJobReg p ((o - 0x2000) / 0x80) (0x2000 + (o - 0x2000) % 0x80) v
  else if Off.arrivalCnt ≤ o && o < Off.arrivalCnt + 0x8000 then (s.counter p ((o - Off.arrivalCnt) / 8)).toNat
  else if Off.sem ≤ o && o < Off.sem + 0x4000 then (s.sem p ((o - Off.sem) / 4)).toNat
  else if Off.msixVfPba ≤ o && o < Off.msixVfPba + 8 then
    maskOf s.landing.msixPending (4096 + 64 * p + 8 * (o - Off.msixVfPba))
  else v

/-- A register of a DMA engine (Table 10-14). -/
def State.readDmaReg (s : State) (e o v : Nat) : Nat :=
  let d := s.engine e
  if o = Off.dmaStat then b2n d.busy.isSome * 16 + d.last % 16
  else if Off.slotStat ≤ o && o < Off.slotStat + 16 then
    let n := (o - Off.slotStat) / 4
    let x := mget {} d.slots n
    b2n x.loaded * 2 ^ 31 + b2n x.loading * 2 ^ 30 + min (d.slotRefs n) 16383 * 2 ^ 16 + x.gen % 2 ^ 16
  else if 0x1000 ≤ o then
    let n := (o - 0x1000) / 0x40
    let c := s.chan e n
    let k := 0x1000 + (o - 0x1000) % 0x40
    if k = Off.chStat then v + chStateNum c.state * 2 ^ 29 + c.flags % 256 * 2 ^ 8 + statusCode c.status
    else if k = Off.chOwner then
      let v := putField v 22 6 ((s.channelJob e n).getD 63)
      if e < 12 then putField v 28 4 (s.owner e) else v
    else if k = Off.chDescLo then c.descAddr % 2 ^ 32
    else if k = Off.chDescHi then c.descHi
    else if k = Off.chProgLo then c.prog % 2 ^ 32
    else if k = Off.chProgHi then c.progHi
    else v
  else v

/-- The towers' registers of Tables 05-12 to 05-20. -/
def Tower.readKeep (tw : Tower) (o v : Nat) : Nat :=
  if o = Off.twrStat then
    tw.owner % 16 * 2 ^ 28 + v % 2 ^ 28 + b2n tw.sanitiseBusy * 8 + b2n tw.migration.isSome * 4 + b2n tw.hot * 2 +
      b2n tw.spareFor.isSome
  else if o = Off.twrTemp then tw.hotFloor % 32 * 2 ^ 8 + tw.tempC % 256
  else if o = Off.twrScrubPos then tw.scrubPasses % 64 * 2 ^ 26 + tw.scrubPos
  else if o = Off.twrCeCount then tw.ceCount
  else if o = Off.twrUeCount then tw.ueCount
  else v

/-- The sequencer's registers of Tables 06-12 to 06-16: commands that ended before they started, or whose work is done, are not
running. -/
def Tower.readSeq (tw : Tower) (halt : Bool) (o v : Nat) : Nat :=
  let running := (tw.running.filter fun r => r.working).length
  if o = Off.tseqStat then
    tw.queue.length * 2 ^ 25 + running * 2 ^ 22 + b2n (halt && decide (running = 0)) * 2 + b2n tw.evac.isSome
  else if o = Off.tseqDoneCount then tw.doneCount.toNat
  else if o = Off.tseqOverrunCount then tw.overrunCount.toNat
  else if o = Off.tseqLastOverrun then tw.lastOverrun.toNat
  else if o = Off.tseqBusyLo then tw.busy.toNat % 2 ^ 32
  else if o = Off.tseqBusyHi then tw.busyHi.toNat
  else v

/-- The repair registers of Table 13-12 and the frame table (Table 05-5). -/
def Tower.readRepair (tw : Tower) (o v : Nat) : Nat :=
  if o = Off.twrRepairStat then min tw.rowRepairs.length 65535 * 2 ^ 16 + min tw.colRepairs.length 65535
  else if o = Off.twrChanFail then tw.chanFail
  else if o = Off.twrTsvFail then tw.tsvFail
  else if Off.twrRetired ≤ o && o < Off.twrRetired + 0x2000 then (mget 0 tw.retired ((o - Off.twrRetired) / 4)).toNat
  else if Off.frameTable ≤ o then
    let i := (o - Off.frameTable) / 4
    frameBits (mget {} tw.frames (2 * i)) + frameBits (mget {} tw.frames (2 * i + 1)) * 2 ^ 16
  else v

def State.readTowerReg (s : State) (t o v : Nat) : Nat :=
  let tw := s.tower t
  if o < 0x1000 then tw.readKeep o v
  else if o < 0x2000 then tw.readSeq (s.regBit (towerBase t + Off.tseqCtl) 0) o v
  else tw.readRepair o v

/-- What a read of the register at a PF BAR0 offset returns: zero where no register, or no such unit, is (R3, R7). -/
def State.readReg (s : State) (a : Nat) : Nat :=
  if !s.regExists a then 0
  else
    let v := s.reg a
    match locate a with
    | some (.global, _, o) => s.readGlobal o v
    | some (.gov, _, o) => s.readGov o v
    | some (.part, p, o) => s.readPart p o v
    | some (.dma, e, o) => s.readDmaReg e o v
    | some (.tower, t, o) => s.readTowerReg t o v
    | _ => v

/-- What a host read of 4 or, `wide`, 8 bytes of a function's BAR0 returns: bytes of 0xFF while the function does not answer (R375),
zero before READY but in the blocks that R394 names, and bytes that the spec does not give for an access that R7 leaves undefined or
for the unlocked debug block (R417). -/
def State.readBar0 (s : State) (fn : Fn) (offset : Nat) (wide : Bool) : List Byte :=
  let n := if wide then 8 else 4
  let free : List Byte := (List.range n).map fun i => BitVec.ofNat 8 (s.draw 29 (offset + i))
  match fnOffset fn offset with
  | none => List.replicate n 0xFF
  | some a =>
    if !s.answers fn then List.replicate n 0xFF
    else if 0x10000000 ≤ a then (if s.regBit Off.gstat 25 then free else List.replicate n 0)
    else if decide (fn = .pf) && !s.ready && decide (errBase ≤ a) then List.replicate n 0
    else match locate a with
      | none => List.replicate n 0
      | some (b, _, o) => match accessKind b o wide with
        | .register => leBytes n (s.readReg a)
        | .nothing => List.replicate n 0
        | .undefined => free

end Sys2Proof.Machine
end

