-- ==== Sys2Proof/WellFormed.lean ====
section
/-! DEFINITION. Which commands are well formed: every unit, index and payload that a command names lies in the range that the
spec gives the larger part, the KQ12. A command about a unit that the variant lacks is well formed and has no effect (R3). -/

namespace Sys2Proof

/-- A logical core (R18). -/
def okCore (n : Nat) : Bool := decide (n < 288)
/-- A partition, a tower or a home group (R20, R21). -/
def okUnit (n : Nat) : Bool := decide (n < 12)
/-- A Spire (R18). -/
def okSpire (n : Nat) : Bool := decide (n < 4)
/-- A job of a partition (R299). -/
def okJob (n : Nat) : Bool := decide (n < 64)
/-- A DMA engine: one a tower, and two host engines (R334). -/
def okEngine (n : Nat) : Bool := decide (n < 14)
/-- A channel of a DMA engine (R334). -/
def okChannel (n : Nat) : Bool := decide (n < 16)
/-- A Volath link (R380). -/
def okLink (n : Nat) : Bool := decide (n < 8)
/-- A scratch granule (R24). -/
def okGranule (n : Nat) : Bool := decide (n < 64)
/-- A queue end of a core (R90). -/
def okQueue (n : Nat) : Bool := decide (n < 32)
/-- A semaphore of a partition (R280). -/
def okSem (n : Nat) : Bool := decide (n < 4096)
/-- An entry of the request table (R252). -/
def okRequest (n : Nat) : Bool := decide (n < 4096)
/-- A model of the model table (R315). -/
def okModel (n : Nat) : Bool := decide (n < 256)
/-- 32-byte words of a scratch granule of 32 MiB (R24). -/
def granuleWords : Nat := 1048576

/-- A function of the device: the PF, or a VF 1 to 12 (R367). -/
def fnOk : Fn → Bool
  | .pf => true
  | .vf n => decide (1 ≤ n) && decide (n ≤ 12)

/-- Bits that the array can flip in a code word of 36 bytes; a region of Table 13-4a. -/
def Upset.wf : Upset → Bool
  | .none | .staged _ _ _ => true
  | .soft l | .hard l => decide (l ≠ []) && l.all fun b => decide (b < 288)
  | .unit region _ => decide (region < 8)

/-- A part of a 32-byte word: some of its bytes and not all of them (R169). -/
def narrowOk (offset : Nat) (bytes : List Byte) : Bool :=
  decide (bytes ≠ []) && decide (bytes.length < 32) && decide (offset + bytes.length ≤ 32)

/-- An access of a whole word carries 32 bytes (R265). -/
def WordAccess.wf : WordAccess → Bool
  | .read => true
  | .write bytes _ => decide (bytes.length = 32)
  | .narrow offset bytes => narrowOk offset bytes

/-- A long word stands on a core (R82). -/
def LongWord.wf (w : LongWord) : Bool := okCore w.core

/-- A flit's payload (Table 11-10). -/
def Flit.wf (f : Flit) : Bool := decide (f.payload.length ≤ 224)

/-- A TRAIN flit gives a physical lane 0 to 8 and the credits of four channels (R387). -/
def TrainInfo.wf (i : TrainInfo) : Bool := decide (i.physLane.toNat ≤ 8) && decide (i.credits.length = 4)

/-- The unit and the step of a start-up failure (Table 12-2). -/
def BootFailure.wf : BootFailure → Bool
  | .core c => okCore c
  | .floor t f step => okUnit t && decide (f < 16) && decide (step ≤ 10)
  | .keep t step => okUnit t && decide (step ≤ 10)
  | .repairMap t => okUnit t
  | .landing => true

/-- The function of an in-band path (R410, R416). -/
def MgmtPath.wf : MgmtPath → Bool
  | .inBand fn => fnOk fn
  | .outOfBand => true

/-- Well-formed commands. -/
def Instr.wf : Instr → Bool
  | .registerWrite fn place .. => fnOk fn && match place with
    | .bar0 offset => decide (offset < 2 ^ 29)
    | .config _ => true
  | .cupGranWrite fn k .. => fnOk fn && okGranule k
  | .granuleChangeDone k => okGranule k
  | .cupolaScratchAccess granule word access upset =>
    okGranule granule && decide (word < granuleWords) && access.wf && upset.wf
  | .cupolaEviction spire part .. => okSpire spire && okUnit part
  | .ratioChangeRequest group .. | .ratioChangeDone group | .g1Entry group | .g2Entry group | .g3Entry group
  | .g4Entry group | .groupWake group | .g4ExitDone group | .groupTestDone group .. => okUnit group
  | .taskPlace part job | .ringEntryFetch part job | .commandComplete part job | .jobResident part job
  | .sliceExpiry part job | .urgentPreempt part job | .contextSaveDone part job | .killDrainEnd part job
  | .modelLoadDone part job => okUnit part && okJob job
  | .emptyLongWord core .. | .taskEnd core | .queueTimeout core | .fldDone core .. | .fstDone core ..
  | .atomicPerform core .. | .atomDone core .. | .fenceDone core .. | .semrelDone core .. | .cntwaitDone core ..
  | .tflushDone core .. | .tinvalDone core .. | .lcfgDone core | .sequencerTile core | .sliceEnd core
  | .sequencerTrap core | .coreDrained core | .coreBistDone core .. => okCore core
  | .add lw .. | .sub lw .. | .and lw .. | .or lw .. | .xor lw .. | .sll lw .. | .srl lw .. | .sra lw ..
  | .slt lw .. | .sltu lw .. | .mul lw .. | .mulhu lw .. | .mulh lw .. | .addi lw .. | .andi lw .. | .ori lw ..
  | .xori lw .. | .slli lw .. | .srli lw .. | .srai lw .. | .slti lw .. | .lui lw .. | .ldb lw .. | .ldbu lw ..
  | .ldh lw .. | .ldhu lw .. | .ld lw .. | .stb lw .. | .sth lw .. | .st lw .. | .beq lw .. | .bne lw ..
  | .blt lw .. | .bge lw .. | .bltu lw .. | .bgeu lw .. | .jal lw .. | .jalr lw .. | .csrr lw .. | .csrw lw ..
  | .csrs lw .. | .csrc lw .. | .endTask lw | .tret lw .. | .icinv lw .. | .bind lw .. | .qmov lw ..
  | .qdup lw .. | .qdrop lw .. | .tpush lw .. | .tpop lw .. | .qlive lw .. | .fld lw .. | .fst lw ..
  | .atom lw .. | .fence lw .. | .semacq lw .. | .semrel lw .. | .cntwait lw .. | .dmak lw .. | .tflush lw ..
  | .tinval lw .. | .lcfg lw .. | .start lw .. | .vadd lw .. | .vsub lw .. | .vmul lw .. | .vmax lw ..
  | .vmin lw .. | .vadds lw .. | .vmuls lw .. | .vfmas lw .. | .vsubr lw .. | .vmulr lw .. | .vrmax lw ..
  | .vrsum lw .. | .vcvt lw .. | .vcausal lw .. | .vexp lw .. | .vrcp lw .. | .vrsq lw .. | .vgelu lw ..
  | .vsilu lw .. | .vrelu lw .. | .mmac lw .. | .mdrain lw .. | .mzero lw .. | .mlda lw .. | .mtr lw ..
  | .tattn lw .. | .tgemv lw .. | .tappend lw .. | .tcommit lw .. | .tdiscard lw .. | .tflushkv lw ..
  | .tfill lw .. | .tcopy lw .. | .txform lw .. | .treduce lw .. | .tscrub lw .. => lw.wf
  | .cupolaInPush core queue | .cupolaOutWrite core queue | .neighbourTileArrival core queue =>
    okCore core && okQueue queue
  | .semacqGrant part sem => okUnit part && okSem sem
  | .tcmdHeadCheck tower | .tcmdStart tower | .tcmdComplete tower .. | .tcmdReturnPush tower ..
  | .tcmdWatchdog tower .. | .tseqPurge tower | .tseqBusyLoRead tower | .clrCounts tower | .sanitise tower
  | .sanitiseDone tower | .twrPinWrite tower .. | .twrMigrate tower .. | .migrationDone tower
  | .tempReading tower .. | .patrolScrubRow tower | .evacuationDone tower => okUnit tower
  | .towerAccess tower wordAddr _ access upset => okUnit tower && decide (wordAddr < 2 ^ 32) && access.wf && upset.wf
  | .narrowWrite tower wordAddr _ offset bytes upset =>
    okUnit tower && decide (wordAddr < 2 ^ 32) && narrowOk offset bytes && upset.wf
  | .colRepairDone tower floor bank word =>
    okUnit tower && decide (floor ≤ 16) && decide (bank < 64) && decide (word < 64)
  | .ceWindowExpire tower frame => okUnit tower && decide (frame < 65536)
  | .frameTableWrite tower index .. => okUnit tower && decide (index < 32768)
  | .refresh tower floor bank => okUnit tower && decide (floor ≤ 16) && decide (bank < 64)
  | .hostBar2Write fn _ bytes .. => fnOk fn && decide (bytes ≠ [])
  | .hostBar2Read fn _ length => fnOk fn && decide (0 < length)
  | .srvSubmit fn part .. | .srvCancel fn part .. | .srvRelease fn part .. | .srvCtlWrite fn part ..
  | .pfxFlush fn part | .cntAdd fn part .. | .pctlEnable fn part .. | .pctlDisable fn part ..
  | .reset fn part .. => fnOk fn && okUnit part
  | .servingStep part model => okUnit part && okModel model
  | .stepResult part | .disableDrainEnd part | .flrFlushReadDone part | .cleaningDone part
  | .ucodeIdlePoint part | .ucodeTimeout part => okUnit part
  | .promptChunkDone part request | .lastEntryWrite part request => okUnit part && okRequest request
  | .semWrite fn part sem .. => fnOk fn && okUnit part && okSem sem
  | .jobEnable fn part job .. | .jobDisable fn part job .. | .pringTail fn part job .. | .clear fn part job
  | .kill fn part job | .pjobAcctLoRead fn part job => fnOk fn && okUnit part && okJob job
  | .donation part job sem => okUnit part && okJob job && okSem sem
  | .governorEpoch .. | .brake .. | .brakeRelease .. | .ready | .perstAssert | .perstRelease | .mbxResponse
  | .getInfo | .readSensors | .readLog | .writeSettings | .otpWrite | .fwStage | .fwActivate
  | .fwActivateFallback | .ucodeApply | .repairPersist | .debugChallenge | .debugUnlock | .logFlashCopy
  | .sensorSample .. | .aldeahWatchdog | .aldeahReset .. | .errorRecordLeave | .pwrEnAssert | .bulkCharged
  | .pwrEnDeassert | .pwrEnIgnoreEnd | .vinOvervoltage .. | .supplyFail .. | .holdUpLoss .. | .refclkLoss
  | .alertResponse | .aldeahRestartDone => true
  | .thermalTrip site .. | .junctionOvertemp site .. => decide (site < 128)
  | .govGrpCfgWrite fn group .. => fnOk fn && okUnit group
  | .chKick fn engine channel .. | .abort fn engine channel | .chDescLoRead fn engine channel
  | .chProgLoRead fn engine channel => fnOk fn && okEngine engine && okChannel channel
  | .phdmaKick fn part engine channel .. => fnOk fn && okUnit part && okEngine engine && okChannel channel
  | .dmaChannelSelect engine | .dmaDescriptorFetch engine | .dmaBurst engine | .dmaTransferEnd engine
  | .dmaCopy engine | .compress engine | .expand engine | .link engine | .kn4 engine | .tableLoad engine
  | .tensor engine | .toQueue engine | .fromQueue engine | .cblockExpand engine => okEngine engine
  | .rateGapEnd engine channel => okEngine engine && okChannel channel
  | .flr fn .. | .gfeatSelWrite fn .. | .volIdWrite fn .. | .mbxDoorbell fn .. | .debugLock fn | .logSync fn
  | .errStatWrite fn .. | .errGroupTest fn .. => fnOk fn
  | .errCoreTest cause _ => match cause with
    | .go fn _ => fnOk fn
    | .coreUe _ => true
  | .detectDone l .. | .equaliseDone l | .laneMapDone l .. | .creditInitDone l | .trainTimeout l | .ackReport l
  | .replayTimeout l | .retrainFail l => okLink l
  | .train l info => okLink l && info.wf
  | .idle l flit | .data l flit | .write l flit | .cblock l flit | .read l flit | .atomic l flit | .resp l flit
  | .wack l flit | .err l flit => okLink l && flit.wf
  | .laneFail l lane => okLink l && decide (lane < 9)
  | .retrain fn l | .volLctlClrCounts fn l | .volLctlEnable fn l .. => fnOk fn && okLink l
  | .powerGood failures => failures.all BootFailure.wf
  | .pldmFirmwareUpdate path .. | .spdmRequest path .. | .mctpRequest path .. => path.wf
  | .twrEvac fn tower .. => fnOk fn && okUnit tower
  | .chanFold tower channel .. => okUnit tower && decide (channel < 32)
  | .regulatorFault page => decide (page < 32)
  | .pcieLinkChange width rate .. => [0, 1, 2, 4, 8, 16].contains width && [2, 5, 8, 16, 32, 64].contains rate

end Sys2Proof
end

