-- ==== Sys2Proof/Safety.lean ====
section
/-! DEFINITION. The terms that the claims use: what no command may change, what every step keeps, and when a long word
issues. -/

namespace Sys2Proof

/-- The long word that an operation of a core offers for issue: the one it carries, with the operation in its slot (R82). -/
def Instr.word : Instr → Option LongWord
  | .emptyLongWord core wait hint => some { core := core, wait := wait, hint := hint }
  | .add lw rd ra rb => some { lw with s := some (.alu .add rd ra rb) }
  | .sub lw rd ra rb => some { lw with s := some (.alu .sub rd ra rb) }
  | .and lw rd ra rb => some { lw with s := some (.alu .and rd ra rb) }
  | .or lw rd ra rb => some { lw with s := some (.alu .or rd ra rb) }
  | .xor lw rd ra rb => some { lw with s := some (.alu .xor rd ra rb) }
  | .sll lw rd ra rb => some { lw with s := some (.alu .sll rd ra rb) }
  | .srl lw rd ra rb => some { lw with s := some (.alu .srl rd ra rb) }
  | .sra lw rd ra rb => some { lw with s := some (.alu .sra rd ra rb) }
  | .slt lw rd ra rb => some { lw with s := some (.alu .slt rd ra rb) }
  | .sltu lw rd ra rb => some { lw with s := some (.alu .sltu rd ra rb) }
  | .mul lw rd ra rb => some { lw with s := some (.alu .mul rd ra rb) }
  | .mulhu lw rd ra rb => some { lw with s := some (.alu .mulhu rd ra rb) }
  | .mulh lw rd ra rb => some { lw with s := some (.alu .mulh rd ra rb) }
  | .addi lw rd ra imm => some { lw with s := some (.aluImm .addi rd ra imm) }
  | .andi lw rd ra imm => some { lw with s := some (.aluImm .andi rd ra imm) }
  | .ori lw rd ra imm => some { lw with s := some (.aluImm .ori rd ra imm) }
  | .xori lw rd ra imm => some { lw with s := some (.aluImm .xori rd ra imm) }
  | .slli lw rd ra imm => some { lw with s := some (.aluImm .slli rd ra imm) }
  | .srli lw rd ra imm => some { lw with s := some (.aluImm .srli rd ra imm) }
  | .srai lw rd ra imm => some { lw with s := some (.aluImm .srai rd ra imm) }
  | .slti lw rd ra imm => some { lw with s := some (.aluImm .slti rd ra imm) }
  | .lui lw rd imm => some { lw with s := some (.lui rd imm) }
  | .ldb lw rd ra imm => some { lw with s := some (.load .ldb rd ra imm) }
  | .ldbu lw rd ra imm => some { lw with s := some (.load .ldbu rd ra imm) }
  | .ldh lw rd ra imm => some { lw with s := some (.load .ldh rd ra imm) }
  | .ldhu lw rd ra imm => some { lw with s := some (.load .ldhu rd ra imm) }
  | .ld lw rd ra imm => some { lw with s := some (.load .ld rd ra imm) }
  | .stb lw rv ra imm => some { lw with s := some (.store .stb rv ra imm) }
  | .sth lw rv ra imm => some { lw with s := some (.store .sth rv ra imm) }
  | .st lw rv ra imm => some { lw with s := some (.store .st rv ra imm) }
  | .beq lw ra rb off => some { lw with s := some (.branch .beq ra rb off) }
  | .bne lw ra rb off => some { lw with s := some (.branch .bne ra rb off) }
  | .blt lw ra rb off => some { lw with s := some (.branch .blt ra rb off) }
  | .bge lw ra rb off => some { lw with s := some (.branch .bge ra rb off) }
  | .bltu lw ra rb off => some { lw with s := some (.branch .bltu ra rb off) }
  | .bgeu lw ra rb off => some { lw with s := some (.branch .bgeu ra rb off) }
  | .jal lw rd off => some { lw with s := some (.jal rd off) }
  | .jalr lw rd ra imm => some { lw with s := some (.jalr rd ra imm) }
  | .csrr lw rd index => some { lw with s := some (.csr .csrr rd 0 index) }
  | .csrw lw rd ra index => some { lw with s := some (.csr .csrw rd ra index) }
  | .csrs lw rd ra index => some { lw with s := some (.csr .csrs rd ra index) }
  | .csrc lw rd ra index => some { lw with s := some (.csr .csrc rd ra index) }
  | .endTask lw => some { lw with s := some .endTask }
  | .tret lw skip => some { lw with s := some (.tret skip) }
  | .icinv lw ra rb => some { lw with s := some (.icinv ra rb) }
  | .bind lw qend kind fmt depthM1 param rb => some { lw with q := some (.bind qend kind fmt depthM1 param rb) }
  | .qmov lw qa qb => some { lw with q := some (.qmov qa qb) }
  | .qdup lw qa qb qc => some { lw with q := some (.qdup qa qb qc) }
  | .qdrop lw qa => some { lw with q := some (.qdrop qa) }
  | .tpush lw qb ra rowsM1 colsM1 => some { lw with q := some (.tpush qb ra rowsM1 colsM1) }
  | .tpop lw qa ra rd => some { lw with q := some (.tpop qa ra rd) }
  | .qlive lw ra rb => some { lw with q := some (.qlive ra rb) }
  | .fld lw size rd ra => some { lw with d := some (.fld size rd ra) }
  | .fst lw size rv ra cntEn counter => some { lw with d := some (.fst size rv ra cntEn counter) }
  | .atom lw size aop scope rd ra rb => some { lw with d := some (.atom size aop scope rd ra rb) }
  | .fence lw flag scope => some { lw with d := some (.fence flag scope) }
  | .semacq lw flag scope sem => some { lw with d := some (.semacq flag scope sem) }
  | .semrel lw flag scope sem => some { lw with d := some (.semrel flag scope sem) }
  | .cntwait lw flag ra counter => some { lw with d := some (.cntwait flag ra counter) }
  | .dmak lw flag ra channel => some { lw with d := some (.dmak flag ra channel) }
  | .tflush lw flag ra rb => some { lw with d := some (.tflush flag ra rb) }
  | .tinval lw flag ra rb => some { lw with d := some (.tinval flag ra rb) }
  | .lcfg lw flag ra => some { lw with d := some (.lcfg flag ra) }
  | .start lw ra => some { lw with d := some (.start ra) }
  | .vadd lw qd qa qb keepA keepB round ovf =>
    some { lw with v := some ⟨.vadd, qd, qa, qb, 0, keepA, keepB, round, ovf⟩ }
  | .vsub lw qd qa qb keepA keepB round ovf =>
    some { lw with v := some ⟨.vsub, qd, qa, qb, 0, keepA, keepB, round, ovf⟩ }
  | .vmul lw qd qa qb keepA keepB round ovf =>
    some { lw with v := some ⟨.vmul, qd, qa, qb, 0, keepA, keepB, round, ovf⟩ }
  | .vmax lw qd qa qb keepA keepB round ovf =>
    some { lw with v := some ⟨.vmax, qd, qa, qb, 0, keepA, keepB, round, ovf⟩ }
  | .vmin lw qd qa qb keepA keepB round ovf =>
    some { lw with v := some ⟨.vmin, qd, qa, qb, 0, keepA, keepB, round, ovf⟩ }
  | .vadds lw qd qa sr keepA round ovf =>
    some { lw with v := some ⟨.vadds, qd, qa, 0, sr, keepA, false, round, ovf⟩ }
  | .vmuls lw qd qa sr keepA round ovf =>
    some { lw with v := some ⟨.vmuls, qd, qa, 0, sr, keepA, false, round, ovf⟩ }
  | .vfmas lw qd qa qb sr keepA keepB round ovf =>
    some { lw with v := some ⟨.vfmas, qd, qa, qb, sr, keepA, keepB, round, ovf⟩ }
  | .vsubr lw qd qa qb keepA keepB round ovf =>
    some { lw with v := some ⟨.vsubr, qd, qa, qb, 0, keepA, keepB, round, ovf⟩ }
  | .vmulr lw qd qa qb keepA keepB round ovf =>
    some { lw with v := some ⟨.vmulr, qd, qa, qb, 0, keepA, keepB, round, ovf⟩ }
  | .vrmax lw qd qa keepA round ovf =>
    some { lw with v := some ⟨.vrmax, qd, qa, 0, 0, keepA, false, round, ovf⟩ }
  | .vrsum lw qd qa keepA round ovf =>
    some { lw with v := some ⟨.vrsum, qd, qa, 0, 0, keepA, false, round, ovf⟩ }
  | .vcvt lw qd qa keepA round ovf =>
    some { lw with v := some ⟨.vcvt, qd, qa, 0, 0, keepA, false, round, ovf⟩ }
  | .vcausal lw qd qa sr keepA round ovf =>
    some { lw with v := some ⟨.vcausal, qd, qa, 0, sr, keepA, false, round, ovf⟩ }
  | .vexp lw qd qa keepA round ovf =>
    some { lw with v := some ⟨.vexp, qd, qa, 0, 0, keepA, false, round, ovf⟩ }
  | .vrcp lw qd qa keepA round ovf =>
    some { lw with v := some ⟨.vrcp, qd, qa, 0, 0, keepA, false, round, ovf⟩ }
  | .vrsq lw qd qa keepA round ovf =>
    some { lw with v := some ⟨.vrsq, qd, qa, 0, 0, keepA, false, round, ovf⟩ }
  | .vgelu lw qd qa keepA round ovf =>
    some { lw with v := some ⟨.vgelu, qd, qa, 0, 0, keepA, false, round, ovf⟩ }
  | .vsilu lw qd qa keepA round ovf =>
    some { lw with v := some ⟨.vsilu, qd, qa, 0, 0, keepA, false, round, ovf⟩ }
  | .vrelu lw qd qa keepA round ovf =>
    some { lw with v := some ⟨.vrelu, qd, qa, 0, 0, keepA, false, round, ovf⟩ }
  | .mmac lw qa qb acc keepA keepB zero =>
    some { lw with m := some ⟨.mmac, qa, qb, 0, acc, keepA, keepB, zero, 0, false⟩ }
  | .mdrain lw qc acc zero round ovf =>
    some { lw with m := some ⟨.mdrain, 0, 0, qc, acc, false, false, zero, round, ovf⟩ }
  | .mzero lw acc =>
    some { lw with m := some ⟨.mzero, 0, 0, 0, acc, false, false, false, 0, false⟩ }
  | .mlda lw qa acc keepA =>
    some { lw with m := some ⟨.mlda, qa, 0, 0, acc, keepA, false, false, 0, false⟩ }
  | .mtr lw qa qc keepA =>
    some { lw with m := some ⟨.mtr, qa, 0, qc, 0, keepA, false, false, 0, false⟩ }
  | .tattn lw rp qret retEn flag =>
    some { lw with t := some ⟨.tattn, rp, qret, retEn, flag⟩ }
  | .tgemv lw rp qret retEn flag =>
    some { lw with t := some ⟨.tgemv, rp, qret, retEn, flag⟩ }
  | .tappend lw rp qret retEn flag =>
    some { lw with t := some ⟨.tappend, rp, qret, retEn, flag⟩ }
  | .tcommit lw rp qret retEn flag =>
    some { lw with t := some ⟨.tcommit, rp, qret, retEn, flag⟩ }
  | .tdiscard lw rp qret retEn flag =>
    some { lw with t := some ⟨.tdiscard, rp, qret, retEn, flag⟩ }
  | .tflushkv lw rp qret retEn flag =>
    some { lw with t := some ⟨.tflushkv, rp, qret, retEn, flag⟩ }
  | .tfill lw rp qret retEn flag =>
    some { lw with t := some ⟨.tfill, rp, qret, retEn, flag⟩ }
  | .tcopy lw rp qret retEn flag =>
    some { lw with t := some ⟨.tcopy, rp, qret, retEn, flag⟩ }
  | .txform lw rp qret retEn flag =>
    some { lw with t := some ⟨.txform, rp, qret, retEn, flag⟩ }
  | .treduce lw rp qret retEn flag =>
    some { lw with t := some ⟨.treduce, rp, qret, retEn, flag⟩ }
  | .tscrub lw rp qret retEn flag =>
    some { lw with t := some ⟨.tscrub, rp, qret, retEn, flag⟩ }
  | .registerWrite .. | .cupGranWrite .. | .granuleChangeDone .. | .cupolaScratchAccess .. | .cupolaEviction ..
  | .ratioChangeRequest .. | .ratioChangeDone .. | .taskPlace .. | .taskEnd .. | .queueTimeout ..
  | .cupolaInPush .. | .cupolaOutWrite .. | .neighbourTileArrival .. | .fldDone .. | .fstDone ..
  | .atomicPerform .. | .atomDone .. | .fenceDone .. | .semacqGrant .. | .semrelDone .. | .cntwaitDone ..
  | .tflushDone .. | .tinvalDone .. | .lcfgDone .. | .sequencerTile .. | .sliceEnd .. | .sequencerTrap ..
  | .tcmdHeadCheck .. | .tcmdStart .. | .tcmdComplete .. | .tcmdReturnPush .. | .tcmdWatchdog .. | .tseqPurge ..
  | .tseqBusyLoRead .. | .towerAccess .. | .narrowWrite .. | .colRepairDone .. | .ceWindowExpire ..
  | .frameTableWrite .. | .clrCounts .. | .sanitise .. | .sanitiseDone .. | .twrPinWrite .. | .twrMigrate ..
  | .migrationDone .. | .refresh .. | .tempReading .. | .patrolScrubRow .. | .hostBar2Write .. | .hostBar2Read ..
  | .srvSubmit .. | .srvCancel .. | .srvRelease .. | .srvCtlWrite .. | .pfxFlush .. | .servingStep ..
  | .stepResult .. | .promptChunkDone .. | .lastEntryWrite .. | .cntAdd .. | .semWrite .. | .jobEnable ..
  | .jobDisable .. | .pringTail .. | .ringEntryFetch .. | .commandComplete .. | .jobResident .. | .sliceExpiry ..
  | .urgentPreempt .. | .contextSaveDone .. | .clear .. | .kill .. | .killDrainEnd .. | .donation ..
  | .modelLoadDone .. | .governorEpoch .. | .brake .. | .brakeRelease .. | .thermalTrip .. | .g1Entry ..
  | .g2Entry .. | .g3Entry .. | .g4Entry .. | .govGrpCfgWrite .. | .groupWake .. | .g4ExitDone ..
  | .pjobAcctLoRead .. | .chKick .. | .phdmaKick .. | .abort .. | .chDescLoRead .. | .chProgLoRead ..
  | .dmaChannelSelect .. | .dmaDescriptorFetch .. | .dmaBurst .. | .rateGapEnd .. | .dmaTransferEnd ..
  | .dmaCopy .. | .compress .. | .expand .. | .link .. | .kn4 .. | .tableLoad .. | .tensor .. | .toQueue ..
  | .fromQueue .. | .cblockExpand .. | .pctlEnable .. | .pctlDisable .. | .reset .. | .flr ..
  | .disableDrainEnd .. | .flrFlushReadDone .. | .cleaningDone .. | .gfeatSelWrite .. | .detectDone ..
  | .equaliseDone .. | .laneMapDone .. | .creditInitDone .. | .trainTimeout .. | .train .. | .idle .. | .data ..
  | .ackReport .. | .replayTimeout .. | .write .. | .cblock .. | .read .. | .atomic .. | .resp .. | .wack ..
  | .err .. | .laneFail .. | .retrain .. | .retrainFail .. | .volLctlClrCounts .. | .volIdWrite .. | .powerGood ..
  | .ready | .perstAssert | .perstRelease | .mbxDoorbell .. | .mbxResponse | .getInfo | .readSensors | .readLog
  | .writeSettings | .otpWrite | .fwStage | .fwActivate | .fwActivateFallback | .pldmFirmwareUpdate ..
  | .ucodeApply | .ucodeIdlePoint .. | .ucodeTimeout .. | .repairPersist | .debugChallenge | .debugUnlock
  | .debugLock .. | .logSync .. | .logFlashCopy | .sensorSample .. | .spdmRequest .. | .mctpRequest ..
  | .aldeahWatchdog | .aldeahReset .. | .errorRecordLeave | .errStatWrite .. | .errCoreTest .. | .coreDrained ..
  | .coreBistDone .. | .errGroupTest .. | .groupTestDone .. | .twrEvac .. | .evacuationDone .. | .chanFold ..
  | .pwrEnAssert | .bulkCharged | .pwrEnDeassert | .pwrEnIgnoreEnd | .vinOvervoltage .. | .supplyFail ..
  | .holdUpLoss .. | .junctionOvertemp .. | .regulatorFault .. | .refclkLoss | .alertResponse | .aldeahRestartDone
  | .volLctlEnable .. | .pcieLinkChange .. => none

namespace Machine

/-- What belongs to the part and to the sender of commands, and the OTP. -/
def State.fixed (s : State) : Variant × List Instr × Memory := (s.variant, s.pending, s.otp)

/-- The bits set in `o` are set in `m`: OTP is programmed from 0 to 1 and never erased. -/
def OtpKeeps (o m : Memory) : Prop := ∀ a i, (o.get a).getLsbD i = true → (m.get a).getLsbD i = true

/-- What every step keeps: the part it is, every OTP bit programmed so far, and well-formed commands in its queue. -/
def State.Inv (v : Variant) (o : Memory) (s : State) : Prop :=
  s.variant = v ∧ OtpKeeps o s.otp ∧ ∀ c ∈ s.pending, c.wf = true

/-- The queue ends that a long word pops: those of its Q slot, and those that its V and M slots read and do not keep (R92). -/
def wordPopped (w : LongWord) : List Nat :=
  slotList w.q qPops ++ slotList w.v (fun v => ((vReads v).filter fun x => !x.2).map (·.1)) ++
  slotList w.m (fun m => ((mReads m).filter fun x => !x.2).map (·.1))

/-- A long word issues (R84 to R86, R110): its core takes long words, its flags are set, it is fetched without fault, it is
legal, no slot traps and nothing makes it wait. Its fetch and its checks leave `u`, out of which its effects come. -/
def State.IssuesFrom (s : State) (w : LongWord) (t : Task) (u : State) : Prop :=
  s.canIssue w.core = true ∧ (s.core w.core).task = some t ∧ (s.core w.core).waitReady w.wait = true ∧
  (s.fetch w.core (longWordLen w)).2 = .ok ∧
  wordIllegal w ((s.fetch w.core (longWordLen w)).1.core w.core).trapMode = none ∧
  ((s.fetch w.core (longWordLen w)).1.core w.core).earlyStall w = none ∧
  (s.fetch w.core (longWordLen w)).1.issueTrap w t = (u, none) ∧ u.lateStall w = none

/-- A long word is taken up and found legal, and nothing makes it wait before its slots are judged (R84, R86): its fetch
leaves `f`. -/
def State.Judges (s : State) (w : LongWord) (t : Task) (f : State) : Prop :=
  s.canIssue w.core = true ∧ (s.core w.core).task = some t ∧ (s.core w.core).waitReady w.wait = true ∧
  s.fetch w.core (longWordLen w) = (f, .ok) ∧ wordIllegal w (f.core w.core).trapMode = none ∧
  (f.core w.core).earlyStall w = none

end Machine

end Sys2Proof
end

