-- ==== Sys2Proof/Certificates/Slice0/Obligations.lean ====
section
/-! DEFINITION. The statements for the provers, from the rules of spec/ and from what they imply. -/

open Sys2Proof Sys2Proof.Machine

/-! ## Long words: the S slot (R82 to R88, R124 to R127) -/

/-- A long word with no slots waits for its flags, clears them and steps over itself (R82, R88); END stops the issue of further
long words (R75), TRET leaves trap mode for TRAP_PC or for the long word after it (R112) and is an illegal encoding outside trap
mode, and ICINV drops the cached lines that its range touches, its own among them, and no other (R127). -/
def Obligations.EmptyEndTretIcinv : Prop :=
  (∀ (s u : State) (t : Task) (core : Nat) (wait : BitVec 8) (hint : BitVec 2),
    s.IssuesFrom { core := core, wait := wait, hint := hint } t u →
    ∃ n, exec (.emptyLongWord core wait hint) s = .next n ∧
      (n.core core).pc = (u.core core).pc + 1 ∧
      (n.core core).flags = (u.core core).flags &&& ~~~wait ∧
      ∀ r, (n.core core).rd r = (u.core core).rd r) ∧
  (∀ (s u : State) (t : Task) (lw : LongWord) (skip : Bool) (ra rb : BitVec 5),
    let c := u.core lw.core
    (s.IssuesFrom { lw with s := some .endTask } t u →
      ∃ n, exec (.endTask lw) s = .next n ∧ (n.core lw.core).ending = true ∧ n.canIssue lw.core = false) ∧
    (s.IssuesFrom { lw with s := some (.tret skip) } t u →
      ∃ n, exec (.tret lw skip) s = .next n ∧ (n.core lw.core).trapMode = false ∧
        (n.core lw.core).pc = if skip then c.trapPc + BitVec.ofNat 32 c.trapLen else c.trapPc) ∧
    ∀ a, c.addr ra.toNat = some a → s.IssuesFrom { lw with s := some (.icinv ra rb) } t u →
      ∃ n, exec (.icinv lw ra rb) s = .next n ∧ ∀ e, e ∈ (n.core lw.core).icache ↔ e ∈ c.icache ∧
        ∀ x, a ≤ x → x < a + (c.rd rb.toNat).toNat → x / 128 ≠ e.1) ∧
  (∀ (s f : State) (t : Task) (lw : LongWord) (skip : Bool),
    let w := { lw with s := some (.tret skip) }
    s.canIssue lw.core = true → (s.core lw.core).task = some t → (s.core lw.core).waitReady lw.wait = true →
    s.fetch lw.core (longWordLen w) = (f, .ok) → (f.core lw.core).trapMode = false → (f.core lw.core).trapVec ≠ 0 →
    ∃ n, exec (.tret lw skip) s = .next n ∧ (n.core lw.core).trapMode = true ∧
      (n.core lw.core).trapCause.toNat % 256 = 1 ∧ (n.core lw.core).pc = (f.core lw.core).trapVec + 32 ∧
      (n.core lw.core).sregs = (f.core lw.core).sregs)

/-- Register operations (Table 04-2): the result in RD, whatever other slots the long word has; s0 stays zero. ADDI and SLTI
extend the sign of the immediate, the logical operations put zeros before it. -/
def Obligations.ScalarArithmetic : Prop :=
  (∀ (s u : State) (t : Task) (lw : LongWord) (rd ra rb : BitVec 5),
    let a := (u.core lw.core).rd ra.toNat
    let b := (u.core lw.core).rd rb.toNat
    let gives (op : AluOp) (i : Instr) (v : Word) : Prop :=
      s.IssuesFrom { lw with s := some (.alu op rd ra rb) } t u →
        ∃ n, exec i s = .next n ∧ (n.core lw.core).rd rd.toNat = if rd = 0 then 0 else v
    gives .add (.add lw rd ra rb) (BitVec.ofNat 32 (a.toNat + b.toNat)) ∧
    gives .sub (.sub lw rd ra rb) (BitVec.ofInt 32 (a.toInt - b.toInt)) ∧
    gives .and (.and lw rd ra rb) (a &&& b) ∧
    gives .or (.or lw rd ra rb) (a ||| b) ∧
    gives .xor (.xor lw rd ra rb) (a ^^^ b) ∧
    gives .sll (.sll lw rd ra rb) (BitVec.ofNat 32 (a.toNat * 2 ^ (b.toNat % 32))) ∧
    gives .srl (.srl lw rd ra rb) (BitVec.ofNat 32 (a.toNat / 2 ^ (b.toNat % 32))) ∧
    gives .sra (.sra lw rd ra rb) (BitVec.ofInt 32 (a.toInt / (2 ^ (b.toNat % 32) : Nat))) ∧
    gives .slt (.slt lw rd ra rb) (if a.toInt < b.toInt then 1 else 0) ∧
    gives .sltu (.sltu lw rd ra rb) (if a.toNat < b.toNat then 1 else 0) ∧
    gives .mul (.mul lw rd ra rb) (BitVec.ofNat 32 (a.toNat * b.toNat)) ∧
    gives .mulhu (.mulhu lw rd ra rb) (BitVec.ofNat 32 (a.toNat * b.toNat / 2 ^ 32)) ∧
    gives .mulh (.mulh lw rd ra rb) (BitVec.ofInt 32 (a.toInt * b.toInt / 2 ^ 32))) ∧
  (∀ (s u : State) (t : Task) (lw : LongWord) (rd ra : BitVec 5) (imm : BitVec 16),
    let a := (u.core lw.core).rd ra.toNat
    let gives (x : SSlot) (i : Instr) (v : Word) : Prop :=
      s.IssuesFrom { lw with s := some x } t u →
        ∃ n, exec i s = .next n ∧ (n.core lw.core).rd rd.toNat = if rd = 0 then 0 else v
    gives (.aluImm .addi rd ra imm) (.addi lw rd ra imm) (BitVec.ofInt 32 (a.toInt + imm.toInt)) ∧
    gives (.aluImm .andi rd ra imm) (.andi lw rd ra imm) (BitVec.ofNat 32 (a.toNat &&& imm.toNat)) ∧
    gives (.aluImm .ori rd ra imm) (.ori lw rd ra imm) (BitVec.ofNat 32 (a.toNat ||| imm.toNat)) ∧
    gives (.aluImm .xori rd ra imm) (.xori lw rd ra imm) (BitVec.ofNat 32 (a.toNat ^^^ imm.toNat)) ∧
    gives (.aluImm .slli rd ra imm) (.slli lw rd ra imm) (BitVec.ofNat 32 (a.toNat * 2 ^ imm.toNat)) ∧
    gives (.aluImm .srli rd ra imm) (.srli lw rd ra imm) (BitVec.ofNat 32 (a.toNat / 2 ^ imm.toNat)) ∧
    gives (.aluImm .srai rd ra imm) (.srai lw rd ra imm) (BitVec.ofInt 32 (a.toInt / (2 ^ imm.toNat : Nat))) ∧
    gives (.aluImm .slti rd ra imm) (.slti lw rd ra imm) (if a.toInt < imm.toInt then 1 else 0) ∧
    gives (.lui rd imm) (.lui lw rd imm) (BitVec.ofNat 32 (imm.toNat * 65536)))

/-- Loads and stores (Table 04-2, R77): the bytes at RA plus the sign-extended immediate, little-endian; a store writes the low
bytes of RV there and no other byte. -/
def Obligations.DataMemoryAccesses : Prop :=
  (∀ (s u : State) (t : Task) (lw : LongWord) (rd ra : BitVec 5) (imm : BitVec 16),
    let a := ((u.core lw.core).rd ra.toNat + imm.signExtend 32).toNat
    let m := (u.core lw.core).dmem
    let gives (op : LoadOp) (i : Instr) (v : Word) : Prop :=
      s.IssuesFrom { lw with s := some (.load op rd ra imm) } t u →
        ∃ n, exec i s = .next n ∧ (n.core lw.core).rd rd.toNat = (if rd = 0 then 0 else v) ∧
          ∀ x, (n.core lw.core).dmem.get x = m.get x
    gives .ldb (.ldb lw rd ra imm) (BitVec.ofInt 32 (m.get a).toInt) ∧
    gives .ldbu (.ldbu lw rd ra imm) (BitVec.ofNat 32 (m.get a).toNat) ∧
    gives .ldh (.ldh lw rd ra imm) (BitVec.ofInt 32 (m.get (a + 1) ++ m.get a).toInt) ∧
    gives .ldhu (.ldhu lw rd ra imm) (BitVec.ofNat 32 (m.get (a + 1) ++ m.get a).toNat) ∧
    gives .ld (.ld lw rd ra imm) (m.get (a + 3) ++ m.get (a + 2) ++ m.get (a + 1) ++ m.get a)) ∧
  (∀ (s u : State) (t : Task) (lw : LongWord) (rv ra : BitVec 5) (imm : BitVec 16),
    let a := ((u.core lw.core).rd ra.toNat + imm.signExtend 32).toNat
    let v := (u.core lw.core).rd rv.toNat
    let stores (op : StoreOp) (i : Instr) (size : Nat) : Prop :=
      s.IssuesFrom { lw with s := some (.store op rv ra imm) } t u →
        ∃ n, exec i s = .next n ∧ ∀ x, (n.core lw.core).dmem.get x =
          if a ≤ x ∧ x < a + size then v.extractLsb' (8 * (x - a)) 8 else (u.core lw.core).dmem.get x
    stores .stb (.stb lw rv ra imm) 1 ∧ stores .sth (.sth lw rv ra imm) 2 ∧ stores .st (.st lw rv ra imm) 4)

/-- Branches and jumps (Table 04-2, R125): a branch taken moves the PC by its offset from this long word, and one not taken to
the next long word; JAL and JALR also put the next long word's PC in RD. -/
def Obligations.BranchesAndJumps : Prop :=
  (∀ (s u : State) (t : Task) (lw : LongWord) (ra rb : BitVec 5) (off : BitVec 16),
    let a := (u.core lw.core).rd ra.toNat
    let b := (u.core lw.core).rd rb.toNat
    let goes (op : BranchOp) (i : Instr) (taken : Prop) [Decidable taken] : Prop :=
      let w := { lw with s := some (.branch op ra rb off) }
      s.IssuesFrom w t u → ∃ n, exec i s = .next n ∧ (n.core lw.core).pc =
        if taken then BitVec.ofInt 32 ((u.core lw.core).pc.toInt + off.toInt)
        else (u.core lw.core).pc + BitVec.ofNat 32 (longWordLen w)
    goes .beq (.beq lw ra rb off) (a = b) ∧ goes .bne (.bne lw ra rb off) (a ≠ b) ∧
    goes .blt (.blt lw ra rb off) (a.toInt < b.toInt) ∧ goes .bge (.bge lw ra rb off) (a.toInt ≥ b.toInt) ∧
    goes .bltu (.bltu lw ra rb off) (a.toNat < b.toNat) ∧ goes .bgeu (.bgeu lw ra rb off) (a.toNat ≥ b.toNat)) ∧
  (∀ (s u : State) (t : Task) (lw : LongWord) (rd ra : BitVec 5) (off : BitVec 21) (imm : BitVec 16),
    let jumps (x : SSlot) (i : Instr) (pc : Word) : Prop :=
      let w := { lw with s := some x }
      s.IssuesFrom w t u → ∃ n, exec i s = .next n ∧ (n.core lw.core).pc = pc ∧
        (n.core lw.core).rd rd.toNat =
          if rd = 0 then 0 else (u.core lw.core).pc + BitVec.ofNat 32 (longWordLen w)
    jumps (.jal rd off) (.jal lw rd off) (BitVec.ofInt 32 ((u.core lw.core).pc.toInt + off.toInt)) ∧
    jumps (.jalr rd ra imm) (.jalr lw rd ra imm) (BitVec.ofInt 32 (((u.core lw.core).rd ra.toNat).toInt + imm.toInt)))

/-- CSR operations (R126, Tables 03-2 to 03-4): RD gets the value read before, CSRW writes RA to the RW bits, CSRS sets those of
them that RA has and CSRC clears those; a long word with the S slot alone changes RW1C bits by CSRW only, which clears those
that RA has, and no RO field but CYCLE_HI, which a read of CYCLE_LO latches. -/
def Obligations.CsrOperations : Prop :=
  ∀ (s u : State) (t : Task) (lw : LongWord) (rd ra : BitVec 5) (index : BitVec 12),
    let c := u.core lw.core
    let v := c.rd ra.toNat
    let old := u.csr lw.core index.toNat
    let does (op : CsrOp) (r : BitVec 5) (i : Instr) (f : Word → Word) (ones : Word) : Prop :=
      s.IssuesFrom { lw with s := some (.csr op rd r index) } t u →
        ∃ n, exec i s = .next n ∧ let k := n.core lw.core
          k.rd rd.toNat = (if rd = 0 then 0 else old) ∧
          (index = 3 → k.ctimeout = f c.ctimeout) ∧ (index = 8 → k.trapVec = f c.trapVec) ∧
          (index = 0x20 → k.discSel = f c.discSel) ∧
          (lw.q = none → lw.d = none → lw.v = none → lw.m = none → lw.t = none →
            (index = 1 → k.flags = (f ((c.flags &&& ~~~lw.wait).setWidth 32)).setWidth 8 ∧
              k.lost = c.lost &&& ~~~(ones >>> 8).setWidth 8) ∧
            (index = 0 → k.fpstat.invalid = (c.fpstat.invalid && !ones.getLsbD 0) ∧
              k.fpstat.overflow = (c.fpstat.overflow && !ones.getLsbD 1) ∧
              k.fpstat.underflow = (c.fpstat.underflow && !ones.getLsbD 2) ∧
              k.fpstat.clamped = (c.fpstat.clamped && !ones.getLsbD 3)) ∧
            k.seq = c.seq ∧ k.queues = c.queues ∧ k.trapCause = c.trapCause ∧ k.trapPc = c.trapPc ∧ k.trapAddr = c.trapAddr ∧
            k.cycles = c.cycles ∧
            k.cycleHi = if index = 0x10 then BitVec.ofNat 32 (c.cycles.toNat / 2 ^ 32) else c.cycleHi)
    does .csrr 0 (.csrr lw rd index) (fun x => x) 0 ∧ does .csrw ra (.csrw lw rd ra index) (fun _ => v) v ∧
    does .csrs ra (.csrs lw rd ra index) (fun x => x ||| v) 0 ∧
    does .csrc ra (.csrc lw rd ra index) (fun x => x &&& ~~~v) 0

/-! ## Long words: every slot -/

/-- Every command of a slot offers the one long word that it stands for (R82), whichever of its slots the command names (the
model's choice, log 9), and a core that cannot issue takes none (R75). A long word waits for the flags that WAIT names, and then nothing at all has changed
but the record of the wait (R84, R88). The parcels of program text spell it: a header with its slots behind it, whose codes and
fields Tables 04-2 to 04-15 place. -/
def Obligations.LongWordsAreOffered : Prop :=
  (∀ (i j : Instr) (w : LongWord) (s : State), i.word = some w → j.word = some w →
    exec i s = exec j s ∧ (s.canIssue w.core = false → exec i s = .next s)) ∧
  (∀ (i : Instr) (w : LongWord) (s : State), i.word = some w → s.canIssue w.core = true →
    (s.core w.core).flags &&& w.wait ≠ w.wait →
    exec i s = .next (s.setCore w.core { s.core w.core with stall := some .flags })) ∧
  (∀ (core : Nat) (wait : BitVec 8) (hint : BitVec 2) (a b c : BitVec 5) (e : Bool) (rest : List (BitVec 16)),
    decodeS (0x01#6 ++ a ++ b ++ c ++ 0#11) = some (.alu .add a b c) ∧
    decodeQ (0#1 ++ 0x1#4 ++ a ++ b ++ 0#17) = some (.qmov a b) ∧
    decodeD (0x0C#5 ++ 0#4 ++ a ++ 0#18) = some (.start a) ∧
    decodeV (0x0D#6 ++ a ++ b ++ 0#5 ++ 0#5 ++ BitVec.ofBool e ++ 0#37) = some ⟨.vcvt, a, b, 0, 0, e, false, 0, false⟩ ∧
    decodeM (0x01#6 ++ a ++ b ++ 0#5 ++ 0#2 ++ BitVec.ofBool e ++ 0#40) = some ⟨.mmac, a, b, 0, 0, e, false, false, 0, false⟩ ∧
    decodeT (0#40 ++ 0x7#4 ++ a ++ b ++ BitVec.ofBool e ++ 0#9) = some ⟨.tfill, a, b, e, ⟨false, 0⟩⟩ ∧
    decodeLongWord core ((wait ++ hint ++ 0#6) :: rest) = some ({ core := core, wait := wait, hint := hint }, rest))

/-- A long word that a slot traps does nothing but take the trap (R85, R110): TRAP_CAUSE names the cause and the slots, TRAP_PC
the long word, and a handler runs in trap mode at TRAP_VEC + 32 × CAUSE. An illegal long word traps before any of its slots is
judged, and so does TRET outside trap mode (R86, R112, R127). -/
def Obligations.TrapsAtIssue : Prop :=
  (∀ (i : Instr) (w : LongWord) (s f u : State) (t : Task) (tr : Trap) (m : Nat) (a : Option Nat),
    i.word = some w → s.Judges w t f → f.issueTrap w t = (u, some (tr, m, a)) →
    (u.core w.core).trapMode = false → (u.core w.core).trapVec ≠ 0 → trapHandled tr = true →
    ∃ n, exec i s = .next n ∧ (n.core w.core).trapMode = true ∧
      (n.core w.core).trapCause = BitVec.ofNat 32 (m % 64 * 256 + trapCode tr) ∧
      (n.core w.core).trapPc = (u.core w.core).pc ∧
      (n.core w.core).pc = (u.core w.core).trapVec + BitVec.ofNat 32 (32 * trapCode tr) ∧
      (n.core w.core).sregs = (u.core w.core).sregs ∧ (n.core w.core).dmem = (u.core w.core).dmem ∧
      (n.core w.core).queues = (u.core w.core).queues) ∧
  (∀ (i : Instr) (w : LongWord) (s f : State) (t : Task) (m : Nat),
    i.word = some w → s.canIssue w.core = true → (s.core w.core).task = some t →
    (s.core w.core).waitReady w.wait = true → s.fetch w.core (longWordLen w) = (f, .ok) →
    wordIllegal w (f.core w.core).trapMode = some m → (f.core w.core).trapMode = false → (f.core w.core).trapVec ≠ 0 →
    ∃ n, exec i s = .next n ∧ (n.core w.core).trapMode = true ∧
      (n.core w.core).trapCause = BitVec.ofNat 32 (m % 64 * 256 + 1) ∧
      (n.core w.core).pc = (f.core w.core).trapVec + 32)

/-- Queue counts (R92): a long word that issues takes one tile from each end that a slot pops and puts one tile into each
end that a slot pushes; the ends that it only keeps or does not name hold what they held. BIND and START give ends new
bindings and are stated apart. -/
def Obligations.QueueCounts : Prop :=
  ∀ (i : Instr) (w : LongWord) (s u : State) (t : Task) (e : Nat),
    i.word = some w → s.IssuesFrom w t u → (∀ a b c d f g, w.q ≠ some (.bind a b c d f g)) → (∀ r, w.d ≠ some (.start r)) →
    ∃ n, exec i s = .next n ∧
      ((n.core w.core).queue e).count + (if e ∈ wordPopped w then 1 else 0) =
        ((u.core w.core).queue e).count + (if e ∈ (wordPushes w).map (·.2) then 1 else 0)

/-- Q-slot moves (R131): in a long word without V and M slots QMOV and QDUP push the head of QA, QDROP drops it, TPUSH pushes
a tile of the tile store with the shape that it names, TPOP copies the head to the tile store and its tag to RD, and QLIVE
declares a range live. -/
def Obligations.QueueMoves : Prop :=
  ∀ (s u : State) (t : Task) (lw : LongWord) (qa qb qc ra rb rd : BitVec 5) (rows cols : BitVec 6),
    lw.v = none → lw.m = none → (∀ r, lw.d ≠ some (.start r)) →
    let c := u.core lw.core
    let tag := (c.queue qa.toNat).tags.headD 0
    let does (x : QSlot) (i : Instr) (P : Core → Prop) : Prop :=
      s.IssuesFrom { lw with q := some x } t u → ∃ n, exec i s = .next n ∧ P (n.core lw.core)
    let popped (k : Core) : Prop := (k.queue qa.toNat).tags = (c.queue qa.toNat).tags.tail
    let holds (k : Core) (q : BitVec 5) (m : Memory) : Prop := ∀ x, x < tileBytes (c.queue q.toNat).fmt →
      k.tiles.get ((c.queue q.toNat).slotAt (c.queue q.toNat).count + x) = m.get x
    does (.qmov qa qb) (.qmov lw qa qb) (fun k => popped k ∧
      (k.queue qb.toNat).tags = (c.queue qb.toNat).tags ++ [tag] ∧ holds k qb (c.headTile qa.toNat).data) ∧
    does (.qdup qa qb qc) (.qdup lw qa qb qc) (fun k => popped k ∧
      (k.queue qb.toNat).tags = (c.queue qb.toNat).tags ++ [tag] ∧
      (k.queue qc.toNat).tags = (c.queue qc.toNat).tags ++ [tag] ∧ holds k qc (c.headTile qa.toNat).data) ∧
    does (.qdrop qa) (.qdrop lw qa) (fun k => popped k ∧ k.tiles = c.tiles) ∧
    does (.tpush qb ra rows cols) (.tpush lw qb ra rows cols) (fun k =>
      (k.queue qb.toNat).tags = (c.queue qb.toNat).tags ++ [mkTag false false (rows.toNat + 1) (cols.toNat + 1)]) ∧
    does (.tpop qa ra rd) (.tpop lw qa ra rd) (fun k => popped k ∧ k.rd rd.toNat = (if rd = 0 then 0 else tag) ∧
      ∀ x, k.tiles.get x =
        if (c.rd ra.toNat).toNat ≤ x ∧ x < (c.rd ra.toNat).toNat + tileBytes (c.queue qa.toNat).fmt
        then (c.headTile qa.toNat).data.get (x - (c.rd ra.toNat).toNat) else c.tiles.get x) ∧
    does (.qlive ra rb) (.qlive lw ra rb) (fun k =>
      if (c.rd rb.toNat).toNat = 0 then (k.live = if (c.rd ra.toNat).toNat = 0 then [] else c.live)
      else ((c.rd ra.toNat).toNat, (c.rd rb.toNat).toNat) ∈ k.live ∧ ∀ x ∈ c.live, x ∈ k.live)

/-- BIND (R94, R128, R129): the queue end takes the kind, the format and the depth, and holds no tile; kind UNBOUND leaves it
unbound. -/
def Obligations.BindTakesTheEnd : Prop :=
  ∀ (s u : State) (t : Task) (lw : LongWord) (qend rb : BitVec 5) (kind fmt : BitVec 4) (depthM1 : BitVec 6) (param : BitVec 7),
    s.IssuesFrom { lw with q := some (.bind qend kind fmt depthM1 param rb) } t u →
    ∃ n, exec (.bind lw qend kind fmt depthM1 param rb) s = .next n ∧
      let q := (n.core lw.core).queue qend.toNat
      (kind = 15 → q.bound = false) ∧
      (kind ≠ 15 → some q.kind = bindOf kind.toNat ∧ some q.fmt = formatOf fmt.toNat ∧ q.depth = depthM1.toNat + 1 ∧
        q.tags = [] ∧ q.flowDone = 0)

/-- V-slot operations (R91, R93, R143): in a long word without Q and M slots VADD, VSUB, VMUL, VMAX, VMIN, VADDS, VMULS, VFMAS,
VSUBR, VMULR, VRMAX, VRSUM, VCVT, VCAUSAL, VEXP, VRCP, VRSQ, VGELU, VSILU and VRELU push the tile that `vecTile` computes of
the heads before issue, with the shape that Table 04-9 gives, poisoned where a tile read is and with QA's LAST; where the long
word has no S slot no sticky flag of FPSTAT is cleared. -/
def Obligations.VectorPushes : Prop :=
  ∀ (i : Instr) (w : LongWord) (v : VSlot) (s u : State) (t : Task),
    i.word = some w → w.v = some v → w.q = none → w.m = none → (∀ r, w.d ≠ some (.start r)) →
    s.IssuesFrom w t u →
    let c := u.core w.core
    let a := c.headTile v.qa.toNat
    let b := c.headTile v.qb.toNat
    let q := c.queue v.qd.toNat
    let tile := (vecTile v.op a b (c.rd v.sr.toNat) q.fmt ((roundingOf v.round.toNat).getD .rne) v.ovf (u.draw 5) u.rounds).1
    ∃ n, exec i s = .next n ∧ let k := n.core w.core
      (∃ tag, (k.queue v.qd.toNat).tags.getLast? = some tag ∧
        tagPoison tag = (tagPoison a.tag || (usesB v.op && tagPoison b.tag)) ∧ tagLast tag = tagLast a.tag ∧
        tagRows tag = tagRows a.tag ∧ tagCols tag = if v.op = .vrmax ∨ v.op = .vrsum then 1 else tagCols a.tag) ∧
      (∀ x, x < tileBytes q.fmt → k.tiles.get (q.slotAt q.count + x) = tile.data.get x) ∧
      (w.s = none → (c.fpstat.invalid = true → k.fpstat.invalid = true) ∧ (c.fpstat.overflow = true → k.fpstat.overflow = true) ∧
        (c.fpstat.underflow = true → k.fpstat.underflow = true) ∧ (c.fpstat.clamped = true → k.fpstat.clamped = true))

/-- M-slot operations (R147, R148): MZERO and a ZERO bit set the bank to +0 with shape 1 x 1 and no mark, MDRAIN pushes the
bank's shape and mark, MLDA loads a tile's, MTR swaps rows and columns, and MMAC marks the bank where a tile read is
poisoned. -/
def Obligations.MatrixBanks : Prop :=
  ∀ (s u : State) (t : Task) (lw : LongWord) (qa qb qc : BitVec 5) (acc round : BitVec 2) (keepA keepB zero ovf : Bool),
    lw.q = none → lw.v = none → (∀ r, lw.d ≠ some (.start r)) →
    let c := u.core lw.core
    let a := (c.headTile qa.toNat).tag
    let b := (c.headTile qb.toNat).tag
    let does (x : MSlot) (i : Instr) (P : Core → Prop) : Prop :=
      s.IssuesFrom { lw with m := some x } t u → ∃ n, exec i s = .next n ∧ P (n.core lw.core)
    does ⟨.mzero, 0, 0, 0, acc, false, false, false, 0, false⟩ (.mzero lw acc) (fun k => k.bank acc.toNat = {}) ∧
    does ⟨.mdrain, 0, 0, qc, acc, false, false, zero, round, ovf⟩ (.mdrain lw qc acc zero round ovf) (fun k =>
      (k.queue qc.toNat).tags = (c.queue qc.toNat).tags ++
        [mkTag (c.bank acc.toNat).poison false (c.bank acc.toNat).rows (c.bank acc.toNat).cols] ∧
      k.bank acc.toNat = if zero then {} else c.bank acc.toNat) ∧
    does ⟨.mlda, qa, 0, 0, acc, keepA, false, false, 0, false⟩ (.mlda lw qa acc keepA) (fun k =>
      (k.bank acc.toNat).rows = tagRows a ∧ (k.bank acc.toNat).cols = tagCols a ∧ (k.bank acc.toNat).poison = tagPoison a) ∧
    does ⟨.mtr, qa, 0, qc, 0, keepA, false, false, 0, false⟩ (.mtr lw qa qc keepA) (fun k =>
      ∃ tag, (k.queue qc.toNat).tags.getLast? = some tag ∧ tagPoison tag = tagPoison a ∧ tagRows tag = tagCols a ∧
        tagCols tag = tagRows a) ∧
    does ⟨.mmac, qa, qb, 0, acc, keepA, keepB, zero, 0, false⟩ (.mmac lw qa qb acc keepA keepB zero) (fun k =>
      (k.bank acc.toNat).poison = (tagPoison a || tagPoison b || (!zero && (c.bank acc.toNat).poison)))

/-- T-slot operations (R151, R153, R191): the command enters the home tower's queue at its end, with the 64 bytes of its
parameter block as they stand in data memory. -/
def Obligations.TowerCommandQueued : Prop :=
  ∀ (i : Instr) (w : LongWord) (x : TSlot) (s u : State) (t : Task),
    i.word = some w → w.t = some x → (∀ r, w.d ≠ some (.start r)) → s.IssuesFrom w t u →
    let g := Config.groupOfCore w.core
    ∃ n, exec i s = .next n ∧ ∃ c, (n.tower g).queue = (u.tower g).queue ++ [c] ∧ c.cmd = x.cmd ∧ c.core = w.core ∧
      c.part = t.part ∧ c.job = t.job ∧ c.qret = x.qret.toNat ∧ c.retEn = x.retEn ∧
      c.flag = (if x.flag.en then some x.flag.n.toNat else none) ∧ c.checked = none ∧
      ∀ k, k < 64 → c.params[k]? = some ((u.core w.core).dmem.get (((u.core w.core).rd x.rp.toNat).toNat + k))

/-- D-slot operations (R87, R134): each but START joins the end of the core's list of operations in flight, with its flag;
SEMACQ also joins the end of the line for its semaphore, and DMAK starts the chain on its channel. -/
def Obligations.DSlotStarts : Prop :=
  ∀ (s u : State) (t : Task) (lw : LongWord) (size : Bool) (r ra rb : BitVec 5) (aop scope : BitVec 3) (flag : FlagSel)
    (n12 : BitVec 12) (ch : BitVec 4) (cntEn : Bool),
    (∀ a b c d f g, lw.q ≠ some (.bind a b c d f g)) →
    let c := u.core lw.core
    let starts (x : DSlot) (i : Instr) (fl : Option Nat) (op : DOp → Prop) (P : State → Prop) : Prop :=
      s.IssuesFrom { lw with d := some x } t u → ∃ n, exec i s = .next n ∧ P n ∧
        ∃ y : InFlight, (n.core lw.core).inflight = c.inflight ++ [y] ∧ y.flag = fl ∧ y.phase = .started ∧ op y.op
    let fl : Option Nat := if flag.en then some flag.n.toNat else none
    let bytes : Nat := if size then 8 else 4
    (∀ a, c.addr ra.toNat = some a →
      starts (.fld size r ra) (.fld lw size r ra) none (fun y => ∃ g, y = .fld bytes r.toNat a g) (fun _ => True) ∧
      starts (.fst size r ra cntEn n12) (.fst lw size r ra cntEn n12) none
        (fun y => ∃ v g, y = .fst bytes a v (if cntEn then some n12.toNat else none) g ∧
          v = (c.rd r.toNat).toNat + (if size then 2 ^ 32 * (c.rd (r.toNat + 1)).toNat else 0)) (fun _ => True) ∧
      starts (.atom size aop scope r ra rb) (.atom lw size aop scope r ra rb) none
        (fun y => ∃ x g, y = .atom x scope.toNat r.toNat a g ∧ x.size = bytes ∧ x.aop = aop.toNat) (fun _ => True) ∧
      starts (.dmak flag ra ch) (.dmak lw flag ra ch) fl (fun y => y = .dmak ch.toNat a)
        (fun n => let x := n.chan (Config.groupOfCore lw.core) ch.toNat
          x.state = .running ∧ x.chain = a ∧ x.part = t.part ∧ x.kicker = .dmak lw.core fl t.job) ∧
      starts (.tflush flag ra rb) (.tflush lw flag ra rb) fl (fun y => y = .tflush a (c.rd rb.toNat).toNat) (fun _ => True) ∧
      starts (.tinval flag ra rb) (.tinval lw flag ra rb) fl (fun y => y = .tinval a (c.rd rb.toNat).toNat) (fun _ => True) ∧
      starts (.lcfg flag ra) (.lcfg lw flag ra) fl (fun y => y = .lcfg a) (fun _ => True)) ∧
    starts (.fence flag scope) (.fence lw flag scope) fl (fun y => ∃ m, y = .fence scope.toNat m) (fun _ => True) ∧
    starts (.semacq flag scope n12) (.semacq lw flag scope n12) fl (fun y => y = .semacq n12.toNat scope.toNat)
      (fun n => (n.part t.part).semWait = (u.part t.part).semWait ++ [(n12.toNat, lw.core)]) ∧
    starts (.semrel flag scope n12) (.semrel lw flag scope n12) fl (fun y => ∃ m, y = .semrel n12.toNat scope.toNat m)
      (fun _ => True) ∧
    starts (.cntwait flag ra n12) (.cntwait lw flag ra n12) fl
      (fun y => y = .cntwait n12.toNat ((c.rd ra.toNat).toNat + 2 ^ 32 * (c.rd (ra.toNat + 1)).toNat)) (fun _ => True)

/-- START (R107): of a loaded layer, a slice that has work runs, with LSTAT.STATUS OK; without a loaded layer LSTAT.STATUS is
REFUSED. -/
def Obligations.StartRunsASlice : Prop :=
  ∀ (s u : State) (t : Task) (lw : LongWord) (ra : BitVec 5),
    let q := (u.core lw.core).seq
    let idx := ((u.core lw.core).rd ra.toNat).toNat
    s.IssuesFrom { lw with d := some (.start ra) } t u →
    ∃ n, exec (.start lw ra) s = .next n ∧
      (q.loaded = true → idx < q.splitCount → (q.ranges idx).1.1 < (q.ranges idx).1.2 →
        (q.ranges idx).2.1.1 < (q.ranges idx).2.1.2 → (q.ranges idx).2.2.1 < (q.ranges idx).2.2.2 →
        (n.core lw.core).seq.run.isSome = true ∧ (n.core lw.core).seq.status = .ok) ∧
      (q.loaded = false → (n.core lw.core).seq.run = q.run ∧ (n.core lw.core).seq.status = .refused)

/-! ## What a long word leaves unchanged -/

/-- A long word with an S slot alone (Table 04-2, R85, R87): every register but RD, every queue end, tile, accumulator and
operation in flight, the sequencer and the trap registers are as before; data memory changes by a store only, a CSR by an
operation on its own index only, trap mode by TRET only; the flags lose those of WAIT unless the CSR is CFLAGS; and nothing
outside the core changes. -/
def Obligations.ScalarFrame : Prop :=
  ∀ (i : Instr) (w : LongWord) (x : SSlot) (s u : State) (t : Task),
    i.word = some w → w.s = some x → w.q = none → w.d = none → w.v = none → w.m = none → w.t = none → s.IssuesFrom w t u →
    let c := u.core w.core
    let touches (j : BitVec 12) : Prop := ∃ op rd ra, x = .csr op rd ra j
    ∃ n, exec i s = .next n ∧ let k := n.core w.core
      (∀ r, r ∉ sDests x → k.rd r = c.rd r) ∧ k.queues = c.queues ∧ k.tiles = c.tiles ∧ k.acc = c.acc ∧ k.live = c.live ∧
      k.inflight = c.inflight ∧ k.seq = c.seq ∧ k.task = c.task ∧ k.halted = c.halted ∧
      k.trapCause = c.trapCause ∧ k.trapPc = c.trapPc ∧ k.trapAddr = c.trapAddr ∧ k.cycles = c.cycles ∧
      ((∀ op rv ra imm, x ≠ .store op rv ra imm) → k.dmem = c.dmem) ∧
      (¬touches 0 → k.fpstat = c.fpstat) ∧ (¬touches 1 → k.flags = c.flags &&& ~~~w.wait ∧ k.lost = c.lost) ∧
      (¬touches 3 → k.ctimeout = c.ctimeout) ∧ (¬touches 8 → k.trapVec = c.trapVec) ∧
      (¬touches 0x10 → k.cycleHi = c.cycleHi) ∧ (¬touches 0x20 → k.discSel = c.discSel) ∧
      ((∀ skip, x ≠ .tret skip) → k.trapMode = c.trapMode) ∧ (x ≠ .endTask → k.ending = c.ending) ∧
      ((∀ ra rb, x ≠ .icinv ra rb) → k.icache = c.icache) ∧
      (∀ j, j ≠ w.core → n.core j = u.core j) ∧ { n with cores := u.cores, free := u.free } = u

/-- Every long word (R85, R87): no other core changes, no byte of a tower, of Cupola scratch or lines or of host memory does
at issue, and neither do the governor, the module, Aldeah, OTP, flash or the journal; the trap registers stay; without D and T
slots nothing outside the core changes; without an S slot and a TPOP the registers and data memory stay, without Q, V and M
slots the tile store, and without an M slot the accumulators. -/
def Obligations.LongWordFrame : Prop :=
  ∀ (i : Instr) (w : LongWord) (s u : State) (t : Task), i.word = some w → s.IssuesFrom w t u →
    let c := u.core w.core
    ∃ n, exec i s = .next n ∧ let k := n.core w.core
      (∀ j, j ≠ w.core → n.core j = u.core j) ∧ (∀ g, (n.tower g).ram = (u.tower g).ram) ∧
      n.scratch = u.scratch ∧ n.cupolas = u.cupolas ∧ n.hostMem = u.hostMem ∧ n.gov = u.gov ∧ n.mod = u.mod ∧
      n.aldeah = u.aldeah ∧ n.otp = u.otp ∧ n.flash = u.flash ∧ n.journal = u.journal ∧
      k.trapCause = c.trapCause ∧ k.trapPc = c.trapPc ∧ k.trapAddr = c.trapAddr ∧ k.task = c.task ∧ k.halted = c.halted ∧
      (w.d = none → w.t = none → { n with cores := u.cores, free := u.free } = u) ∧
      (w.s = none → k.dmem = c.dmem ∧ ((∀ a b r, w.q ≠ some (.tpop a b r)) → ∀ r, k.rd r = c.rd r)) ∧
      (w.q = none → w.v = none → w.m = none → k.tiles = c.tiles) ∧ (w.m = none → k.acc = c.acc)

/-! ## What the D slot's operations come to -/

/-- FLD, FST and ATOM complete (R118, R119, R134, R137, R139, R267, R268): where no earlier access of the core to the location waits,
a local FLD brings the bytes that it reads to RD, or to RD and the next register, an FST writes its bytes and raises the counter
that it names, and an atomic is performed and then gives back the old value; the operation then leaves the core's list. That memory
is read and written at these commands is the model's reading (log 13). -/
def Obligations.FarAccessesComplete : Prop :=
  ∀ (s : State) (core index rd addr : Nat) (t : Task) (x : AtomArgs) (scope v stamp : Nat) (fl : Option Nat)
    (g : Option Nat) (size value tag : Nat) (cnt : Option Nat),
    let l := (s.core core).inflight
    let arrives (n : State) (bytes v : Nat) : Prop :=
      (rd ≠ 0 → (n.core core).rd rd = BitVec.ofNat 32 v) ∧
      (bytes = 8 → (n.core core).rd (rd + 1) = BitVec.ofNat 32 (v / 2 ^ 32))
    let alone (bytes : Nat) : Prop := 0 < bytes ∧ (∀ y ∈ l.take index, s.meets t.part addr bytes y = false) ∧
      (s.core core).tileBefore stamp addr bytes = false
    (s.flying core index = some (t, ⟨.fld size rd addr none, fl, .started, stamp⟩) → alone size →
      let r := s.readRun (.core core) t.part addr size
      r.2.refused = false → r.2.found = false → r.2.poison = [] →
      ∃ n, exec (.fldDone core index) s = .next n ∧ arrives n size (r.2.data.num 0 size) ∧
        (n.core core).inflight = l.eraseIdx index ∧ n.towers = r.1.towers) ∧
    (s.flying core index = some (t, ⟨.fld size rd addr (some tag), fl, .value v, stamp⟩) →
      (∀ y ∈ l, s.meets t.part addr size y = false) →
      ∃ n, exec (.fldDone core index) s = .next n ∧ arrives n size v ∧ (n.core core).inflight = l.eraseIdx index ∧
        n.towers = s.towers) ∧
    (s.flying core index = some (t, ⟨.fst size addr value cnt none, fl, .started, stamp⟩) → alone size →
      let w := s.writeRun (.core core) t.part addr (leBytes size value) [] false
      ∃ n, exec (.fstDone core index) s = .next n ∧ (n.core core).inflight = l.eraseIdx index ∧
        n.towers = w.1.towers ∧ n.scratch = w.1.scratch ∧ n.cupolas = w.1.cupolas ∧
        ∀ k, cnt = some k → w.2 = true → n.counter t.part k = w.1.counter t.part k + BitVec.ofNat 64 size) ∧
    (s.flying core index = some (t, ⟨.fst size addr value cnt (some tag), fl, .finished, stamp⟩) →
      ∃ n, exec (.fstDone core index) s = .next n ∧ (n.core core).inflight = l.eraseIdx index ∧ n.towers = s.towers) ∧
    (s.flying core index = some (t, ⟨.atom x scope rd addr none, fl, .started, stamp⟩) → alone x.size →
      let a := s.atomicAt (.core core) t.part addr x
      a.2 = .ok v →
      ∃ n, exec (.atomicPerform core index) s = .next n ∧
        (n.core core).inflight = l.modify index (fun y => { y with phase := .value v }) ∧
        n.towers = a.1.towers ∧ n.scratch = a.1.scratch ∧ n.cupolas = a.1.cupolas) ∧
    (s.flying core index = some (t, ⟨.atom x scope rd addr g, fl, .value v, stamp⟩) →
      ∃ n, exec (.atomDone core index) s = .next n ∧ arrives n x.size v ∧ (n.core core).inflight = l.eraseIdx index ∧
        n.towers = s.towers)

/-- FENCE, SEMREL, CNTWAIT, TFLUSH, TINVAL and LCFG complete (R88, R89, R105, R140, R271, R272, R278, R280): the operation leaves
the list and its flag is set, with LOST where it was set already; FENCE and SEMREL wait for the writes before them, SEMREL then
frees its lock or adds one to its count, CNTWAIT waits for its value, TFLUSH leaves what the write-back of the lines of its range
leaves, TINVAL no line of its range in any Cupola, LCFG what the load of its block leaves, once no slice runs, and no wait on
flags times out. -/
def Obligations.FlaggedOperationsComplete : Prop :=
  ∀ (s : State) (core index : Nat) (t : Task) (fl : Nat) (ph : DPhase) (scope sem counter value addr len stamp : Nat)
    (marks : List (Nat × Nat)), fl < 8 →
    let l := (s.core core).inflight
    let flies (op : DOp) : Prop := s.flying core index = some (t, ⟨op, some fl, ph, stamp⟩)
    let completes (i : Instr) (P : State → Prop) : Prop := ∃ n, exec i s = .next n ∧ P n ∧
      (n.core core).inflight = l.eraseIdx index ∧ (n.core core).flags.getLsbD fl = true ∧
      (n.core core).lost.getLsbD fl = ((s.core core).lost.getLsbD fl || (s.core core).flags.getLsbD fl)
    ((s.core core).stall = some .flags → exec (.queueTimeout core) s = .next s) ∧
    (flies (.fence scope marks) →
      ((s.core core).released index scope marks = false → exec (.fenceDone core index) s = .next s) ∧
      ((s.core core).released index scope marks = true → completes (.fenceDone core index) (fun n => n.towers = s.towers))) ∧
    (flies (.semrel sem scope marks) →
      ((s.core core).released index scope marks = false → exec (.semrelDone core index) s = .next s) ∧
      ((s.core core).released index scope marks = true →
        (semLock (s.sem t.part sem) = true → semHolder (s.sem t.part sem) = t.job → semValue (s.sem t.part sem) = 0 →
          completes (.semrelDone core index) (fun n =>
            semValue (n.sem t.part sem) = 1 ∧ semHolder (n.sem t.part sem) = 255)) ∧
        (semLock (s.sem t.part sem) = false → semValue (s.sem t.part sem) < 65535 →
          completes (.semrelDone core index) (fun n => semValue (n.sem t.part sem) = semValue (s.sem t.part sem) + 1)))) ∧
    (flies (.cntwait counter value) →
      (value ≤ (s.counter t.part counter).toNat →
        completes (.cntwaitDone core index) (fun n => n.counter t.part counter = s.counter t.part counter)) ∧
      ((s.counter t.part counter).toNat < value → exec (.cntwaitDone core index) s = .next s)) ∧
    (flies (.tflush addr len) →
      completes (.tflushDone core index) (fun n =>
        let p := [0, 1, 2, 3].foldl (fun s k => s.flushLines k t.part addr len) s
        n.cupolas = p.cupolas ∧ n.towers = p.towers ∧ n.scratch = p.scratch)) ∧
    (flies (.tinval addr len) →
      completes (.tinvalDone core index) (fun n => n.towers = s.towers ∧
        ∀ k, k < 4 → ∀ x, x ∈ n.cupola k ↔ x ∈ s.cupola k ∧ inLines t.part addr len x = false)) ∧
    (flies (.lcfg addr) → l.findIdx? isLcfg = some index →
      ((s.core core).seq.run.isSome = true → exec (.lcfgDone core) s = .next s) ∧
      ((s.core core).seq.run = none → (∀ y ∈ l.take index, s.meets t.part addr 448 y = false) →
        completes (.lcfgDone core) (fun n => (n.core core).seq = ((s.loadLcb core t.part addr).core core).seq)))

/-- SEMACQ (R280, R281): the core that has waited longest gets the semaphore, and its flag is set. -/
def Obligations.SemaphoreGranted : Prop :=
  ∀ (s : State) (p sem core i fl scope stamp : Nat) (t : Task) (ph : DPhase), s.runs = true → fl < 8 →
    s.firstWait p sem = some (sem, core) → (s.core core).task = some t → semFree (s.sem p sem) = true →
    (s.core core).inflight.findIdx? (fun x => match x.op with
      | .semacq n _ => decide (n = sem)
      | _ => false) = some i →
    (s.core core).inflight[i]? = some ⟨.semacq sem scope, some fl, ph, stamp⟩ →
    ∃ n, exec (.semacqGrant p sem) s = .next n ∧
      (semLock (s.sem p sem) = true → semValue (n.sem p sem) = 0 ∧ semHolder (n.sem p sem) = t.job % 256) ∧
      (semLock (s.sem p sem) = false → semValue (n.sem p sem) + 1 = semValue (s.sem p sem)) ∧
      (n.core core).flags.getLsbD fl = true ∧ (n.core core).inflight = (s.core core).inflight.eraseIdx i ∧
      (n.part p).semWait.length + 1 = (s.part p).semWait.length

/-- QUEUE_TIMEOUT (R100, R110): a core that waits on a queue end or on a channel takes the queue-timeout trap, unless
CTIMEOUT is zero. -/
def Obligations.QueueTimeoutTraps : Prop :=
  ∀ (s : State) (core slots len : Nat) (ends : List Nat), s.runs = true → (s.core core).halted = false →
    (s.core core).stall = some (.queue ends slots len) →
    ((s.core core).ctimeout ≠ 0 → (s.core core).trapMode = false → (s.core core).trapVec ≠ 0 →
      ∃ n, exec (.queueTimeout core) s = .next n ∧ (n.core core).stall = none ∧ (n.core core).trapMode = true ∧
        (n.core core).trapCause = BitVec.ofNat 32 (slots % 64 * 256 + 2) ∧
        (n.core core).pc = (s.core core).trapVec + 64 ∧ (n.core core).trapPc = (s.core core).pc) ∧
    ((s.core core).ctimeout = 0 → exec (.queueTimeout core) s = .next s)

/-- Cupola flows and neighbours (R96, R98, R99): CUPOLA_IN_PUSH adds the flow's next tile, read from scratch, to the queue with
LAST on the final one, CUPOLA_OUT_WRITE writes the oldest tile to scratch and takes it from the queue, and a tile that crosses to
a neighbour keeps its tag. -/
def Obligations.FlowsMoveTiles : Prop :=
  ∀ (s : State) (core queue : Nat) (t : Task), s.runs = true → (s.core core).task = some t →
    let q := (s.core core).queue queue
    let len := tileBytes q.fmt
    (q.kind = .cupolaIn → q.room = true → q.flowDone < q.flowCount →
      let r := (s.readRun (.core core) t.part (q.flowBase + q.flowDone * q.flowStride) len).2
      ∃ n, exec (.cupolaInPush core queue) s = .next n ∧
        ((n.core core).queue queue).tags =
          q.tags ++ [mkTag (decide (r.poison ≠ [])) (decide (q.flowDone + 1 = q.flowCount)) 64 64] ∧
        ((n.core core).queue queue).flowDone = q.flowDone + 1 ∧
        ∀ x, x < len → (n.core core).tiles.get (q.slotAt q.count + x) = r.data.get x) ∧
    (q.kind = .cupolaOut → q.count ≠ 0 →
      let a := q.flowBase + q.flowWritten * q.flowStride
      let tile := (s.core core).headTile queue
      (s.core core).tileBefore (q.stamps.headD 0) a len = false →
      (∀ y ∈ (s.core core).inflight, y.stamp ≤ q.stamps.headD 0 → s.meets t.part a len y = false) →
      let w := (s.writeRun (.core core) t.part a (tile.data.bytes 0 len)
        (if tagPoison tile.tag then List.range (len / 32 + 2) else []) false).1
      ∃ n, exec (.cupolaOutWrite core queue) s = .next n ∧ ((n.core core).queue queue).tags = q.tags.tail ∧
        ((n.core core).queue queue).flowWritten = q.flowWritten + 1 ∧ n.towers = w.towers ∧ n.scratch = w.scratch ∧
        n.cupolas = w.cupolas) ∧
    (q.kind = .neighbourOut → q.count ≠ 0 → s.neighbourReady core q = true →
      ∃ n, exec (.neighbourTileArrival core queue) s = .next n ∧ ((n.core core).queue queue).tags = q.tags.tail ∧
        ((n.core q.peer).queue q.remote).tags = ((s.core q.peer).queue q.remote).tags ++ [q.tags.headD 0])

/-- The layer sequencer's tiles, end and trap, and the end of a task (R75, R107, R109, R111): with the tower's results merged and
no access of the core waiting, the next output tile runs, leaves the slice's list and is counted, or the slice stops with a status
and no tile left; SLICE_END unbinds the sequencer's queues and posts DONE_FLAG, SEQUENCER_TRAP takes the bounds-violation trap
with SOURCE 1, and TASK_END frees the core and is counted by its command. -/
def Obligations.SlicesAndTasksEnd : Prop :=
  (∀ (s : State) (core : Nat) (t : Task) (r : SliceRun) (a : Nat) (c : RunCmd), s.runs = true → (s.core core).task = some t →
    ((s.core core).seq.run = some r → r.tiles = [] → r.groups = [] → r.issued = [] →
      ∃ n, exec (.sliceEnd core) s = .next n ∧ (n.core core).seq.run = none ∧ (n.core core).seq.status = r.outcome ∧
        (∀ e ∈ (n.core core).queues, e.2.bySeq = false) ∧
        (n.core core).flags.getLsbD ((s.core core).seq.doneFlag % 8) = true) ∧
    ((s.core core).seq.trap = some (some a) → (s.core core).halted = false → s.aclkRuns core = true →
      (s.core core).trapMode = false → (s.core core).trapVec ≠ 0 →
      ∃ n, exec (.sequencerTrap core) s = .next n ∧ (n.core core).seq.trap = none ∧ (n.core core).trapMode = true ∧
        (n.core core).trapCause = BitVec.ofNat 32 (2 ^ 28 + 3) ∧ (n.core core).trapAddr = BitVec.ofNat 48 a) ∧
    (s.taskDone core = true → (s.job t.part t.job).cmd = some c →
      ∃ n, exec (.taskEnd core) s = .next n ∧ (n.core core).task = none ∧ (n.core core).queues = [] ∧
        (n.core core).sregs = (s.core core).sregs ∧
        (n.job t.part t.job).cmd = some { c with ended := c.ended + 1, lastCore := core })) ∧
  (∀ (s : State) (core b m n0 : Nat) (t : Task) (r : SliceRun) (rest : List (Nat × Nat × Nat)),
    (s.core core).task = some t → (s.core core).seq.run = some r → r.tiles = (b, m, n0) :: rest →
    (s.core core).seq.trap = none → (s.core core).halted = false → s.aclkRuns core = true →
    (s.core core).seq.merged r b m n0 = true → (∀ y ∈ (s.core core).inflight, y.due = none) →
    (s.core core).seq.aDesc.isSome = true → (s.core core).seq.cDesc.isSome = true → r.status = .ok →
    ∃ n, exec (.sequencerTile core) s = .next n ∧ n = s.seqTile core t.part (s.core core).seq r b m n0 ∧
      ∃ q, (n.core core).seq.run = some q ∧ (q.status = .ok → q.tiles = rest ∧ q.ran = r.ran + 1) ∧
        (q.status ≠ .ok → q.tiles = [] ∧ q.groups = []))

/-! ## Tower commands (R191 to R202, R228) -/

/-- The head of a tower's queue is checked and starts (R154, R192 to R195, R199, R202, R322): a command that passes stays at the
head, checked, and pays its first instalment where the purse covers it; a checked command that is paid starts where fewer than four
commands work, none of them conflicts with it, a return buffer is free and HALT is clear: it leaves the queue and works, with no
tile returned, DEGRADED where its floor is evacuated. -/
def Obligations.TowerCommandsStart : Prop :=
  ∀ (s : State) (tower : Nat) (c : TowerCmd) (rest : List TowerCmd) (k : CmdCheck),
    (s.tower tower).queue = c :: rest → s.keepRuns tower = true →
    (c.checked = none → (∀ r ∈ (s.tower tower).running, r.working = true → namesSeq r.cmd.cmd = false ∨ r.cmd.seqAddr ≠ c.seqAddr) →
      (s.checkCmd tower c).2 = .ok k →
      ∃ n, exec (.tcmdHeadCheck tower) s = .next n ∧ ∃ d, (n.tower tower).queue = d :: rest ∧ d.checked = some k ∧
        d.cmd = c.cmd ∧ d.order = c.order ∧ d.params = c.params ∧
        (firstInstalment c k ≤ ((s.checkCmd tower c).1.group tower).purse → d.paid = true)) ∧
    (c.checked = some k → c.paid = true →
      ((s.tower tower).running.filter fun r => r.working).length < 4 →
      (∀ r ∈ (s.tower tower).running, r.working = true → conflicts c k r = false) →
      (c.retEn = true → ((s.tower tower).running.filter Running.buffered).length < 6) →
      s.regBit (towerBase tower + Off.tseqCtl) 0 = false →
      ∃ n, exec (.tcmdStart tower) s = .next n ∧ ∃ r, (n.tower tower).running = (s.tower tower).running ++ [r] ∧ r.cmd = c ∧
        r.working = true ∧ r.tiles = [] ∧ r.returned = 0 ∧ r.ran = 0 ∧ r.unstarted = false ∧
        r.degraded = (s.tower tower).evac.isSome)

/-- Result tiles and completion (R97, R155, R198, R199, R202): the next tile goes to the end of the queue that the command names,
with its shape and marks; a command whose work is done and whose tiles are gone leaves the list, is counted and sets its flag, and
a TFILL completes with the memories as its fill leaves them (that a command writes when it completes is the model's reading, log
19). -/
def Obligations.TowerCommandsReturn : Prop :=
  ∀ (s : State) (tower index : Nat) (r : Running) (x : RetTile) (rest : List RetTile) (k : CmdCheck),
    (s.tower tower).running[index]? = some r → s.keepRuns tower = true →
    let c := r.cmd
    let q := (s.core c.core).queue c.qret
    let completes (P : State → Prop) : Prop := ∃ n, exec (.tcmdComplete tower index) s = .next n ∧
      (n.tower tower).running = (s.tower tower).running.eraseIdx index ∧
      ((s.tower tower).doneCount.toNat < 2 ^ 32 - 1 → (n.tower tower).doneCount = (s.tower tower).doneCount + 1) ∧
      (∀ f, c.flag = some f → (n.core c.core).flags.getLsbD (f % 8) = true) ∧ P n
    (r.working = false → r.tiles = x :: rest → (s.tower tower).returnsNext c = true →
      s.holdsTask c.part c.job c.core = true → q.kind = .towerReturn → q.room = true → c.bySeq = none →
      ∃ n, exec (.tcmdReturnPush tower index) s = .next n ∧
        ((n.core c.core).queue c.qret).tags = q.tags ++ [mkTag x.poison x.last x.rows x.cols] ∧
        ∃ y, (n.tower tower).running[index]? = some y ∧ y.tiles = rest ∧ y.returned = r.returned + 1) ∧
    (r.silent = false → r.dropTiles = false → (s.job c.part c.job).saved = [] → c.record = 0 →
      (r.working = false → r.tiles = [] → completes (fun n => (n.tower tower).ram = (s.tower tower).ram)) ∧
      (r.working = true → r.counted ≤ c.bound → c.cmd = .tfill → c.retEn = false → c.checked = some k →
        let p := (s.runFill tower c).1
        completes (fun n => (n.tower tower).ram = (p.tower tower).ram ∧ (n.tower tower).frames = (p.tower tower).frames ∧
          n.scratch = p.scratch ∧ n.cupolas = p.cupolas)))

/-- The watchdog, the purge and the busy count (R200, R228): a command that still works past its BOUND ends and is counted as the
last overrun, and faults its job with OVERRUN where its core holds the task; PURGE ends a queued command ABORTED, and reading
TSEQ_BUSY_LO latches the high half. -/
def Obligations.TowerWatchdogAndRegisters : Prop :=
  ∀ (s : State) (tower index : Nat) (r : Running) (c : TowerCmd),
    ((s.tower tower).running[index]? = some r → s.keepRuns tower = true → r.working = true → r.cmd.bound < r.counted →
      r.cmd.core < 288 →
      (s.holdsTask r.cmd.part r.cmd.job r.cmd.core = false →
        ∃ n, exec (.tcmdWatchdog tower index) s = .next n ∧
          (n.tower tower).running = (s.tower tower).running.eraseIdx index ∧
          (n.tower tower).lastOverrun.toNat / 2 ^ 28 = tcmdCode r.cmd.cmd) ∧
      (s.holdsTask r.cmd.part r.cmd.job r.cmd.core = true → (s.job r.cmd.part r.cmd.job).state ≠ .killing →
        ∃ n, exec (.tcmdWatchdog tower index) s = .next n ∧ (n.job r.cmd.part r.cmd.job).state = .faulted ∧
          (n.job r.cmd.part r.cmd.job).faultStatus = .overrun)) ∧
    (s.takes .pf (towerBase tower + Off.tseqCtl) = true → s.keepRuns tower = true → (s.tower tower).queue = [c] →
      c.record = 0 → (∀ k, (s.core k).seq.run = none) →
      ∃ n, exec (.tseqPurge tower) s = .next n ∧ (n.tower tower).queue = [] ∧
        (c.retEn = true → ∃ r, (n.tower tower).running = (s.tower tower).running ++ [r] ∧ r.cmd = c ∧
          r.status = .aborted ∧ r.tiles = [deadTile]) ∧
        (c.retEn = false → (n.tower tower).running = (s.tower tower).running ∧
          ((s.tower tower).doneCount.toNat < 2 ^ 32 - 1 → (n.tower tower).doneCount = (s.tower tower).doneCount + 1))) ∧
    (s.takes .pf (towerBase tower + Off.tseqBusyLo) = true →
      ∃ n, exec (.tseqBusyLoRead tower) s = .next n ∧ (n.tower tower).busyHi = (s.tower tower).busy.extractLsb' 32 32 ∧
        (n.tower tower).busy = (s.tower tower).busy)

/-! ## Tower memory (R159 to R186) -/

/-- Writes of a tower's words (R159, R166, R167, R169, R170): a whole word takes its 32 bytes and check state through the
frame's physical band and no byte of the tower outside it changes; a read-modify-write keeps the other bytes of a word that
reads clean and leaves a poisoned word as it is. -/
def Obligations.TowerWordsWritten : Prop :=
  ∀ (s : State) (tower wordAddr offset : Nat) (id : BitVec 16) (bytes : List Byte) (poison : Bool) (upset : Upset),
    let pl := bankedDecode tower (32 * wordAddr)
    let p := (s.admitAccess (agentOf id.toNat) (s.owner tower) (bankedAddr tower (32 * wordAddr)) pl true false).1
    s.runs = true → (∀ region ue, upset ≠ .unit region ue) → (∀ a b c, upset ≠ .staged a b c) →
    (s.admitAccess (agentOf id.toNat) (s.owner tower) (bankedAddr tower (32 * wordAddr)) pl true false).2 = true →
    (bytes.length = 32 →
      let w := (p.tower tower).wordOf pl
      let pr := protOf ((p.tower tower).frameOf pl)
      ∃ n, exec (.towerAccess tower wordAddr id (.write bytes poison) upset) s = .next n ∧
        (∀ i, i < 32 → some ((n.tower tower).ram.bytes.get (32 * w + i)) = bytes[i]?) ∧
        (n.tower tower).ram.mark w = (if poison then .poison pr else .good pr) ∧
        (∀ x, (x < 32 * w ∨ 32 * w + 32 ≤ x) → (n.tower tower).ram.bytes.get x = (p.tower tower).ram.bytes.get x) ∧
        ∀ k, k ≠ tower → n.tower k = p.tower k) ∧
    (offset + bytes.length ≤ 32 →
      let q := (p.readTower pl upset).1
      let r := (p.readTower pl upset).2
      let w := (q.tower tower).wordOf pl
      (r.kind = .clean → ∃ n, exec (.narrowWrite tower wordAddr id offset bytes upset) s = .next n ∧
        ∀ i, i < 32 → (n.tower tower).ram.bytes.get (32 * w + i) =
          if offset ≤ i ∧ i < offset + bytes.length then bytes.getD (i - offset) 0 else r.data.get i) ∧
      (r.kind = .stored → exec (.narrowWrite tower wordAddr id offset bytes upset) s = .next q))

/-- An access through an invalid frame table entry is refused and logged as MEM_UNMAPPED, and no word changes (R161). -/
def Obligations.InvalidFrameRefuses : Prop :=
  ∀ (s : State) (tower wordAddr : Nat) (id : BitVec 16) (bytes : List Byte) (upset : Upset), s.runs = true →
    (s.group tower).pstate = .g0 → (s.group tower).outOfService = false →
    ((s.tower tower).frameOf (bankedDecode tower (32 * wordAddr))).valid = false → s.landing.records = [] →
    s.landing.waiting = [] → (∀ region ue, upset ≠ .unit region ue) → (∀ a b c, upset ≠ .staged a b c) →
    ∃ n, exec (.towerAccess tower wordAddr id (.write bytes false) upset) s = .next n ∧
      n.towers = s.towers ∧ n.cores = s.cores ∧ ∃ e, n.landing.records = [e] ∧ e.code = .memUnmapped ∧ e.status = .bounds ∧
        e.addr = bankedAddr tower (32 * wordAddr)

/-- Writes of the tower block (R160, R171, R173, R174, R186): FRAME_TABLE takes the entries that are not migrating, clearing
INIT where CHECKED changes; CLR_COUNTS zeroes the two counts; SANITISE starts or is refused; TWR_PIN takes masks of at most
two floors. -/
def Obligations.TowerRegistersWritten : Prop :=
  ∀ (s : State) (tower : Nat),
    (∀ (index : Nat) (v : Word), s.takes .pf (towerBase tower + Off.frameTable + 4 * index) = true →
      (mget {} (s.tower tower).frames (2 * index)).migrating = false →
      ∃ n, exec (.frameTableWrite tower index v) s = .next n ∧
        let f := mget {} (n.tower tower).frames (2 * index)
        f.valid = v.getLsbD 15 ∧ f.checked = v.getLsbD 14 ∧ f.engineRo = v.getLsbD 12 ∧ f.band = v.toNat % 64 ∧
        f.init = (v.getLsbD 13 && decide (v.getLsbD 14 = (mget {} (s.tower tower).frames (2 * index)).checked))) ∧
    (s.takes .pf (towerBase tower + Off.twrCtl) = true →
      (∃ n, exec (.clrCounts tower) s = .next n ∧ (n.tower tower).ceCount = 0 ∧ (n.tower tower).ueCount = 0 ∧
        (n.tower tower).ram = (s.tower tower).ram) ∧
      (s.canSanitise tower = true →
        ∃ n, exec (.sanitise tower) s = .next n ∧ (n.tower tower).sanitiseBusy = true ∧ n.regs = s.regs) ∧
      (s.canSanitise tower = false →
        ∃ n, exec (.sanitise tower) s = .next n ∧ n.towers = s.towers ∧
          n.regBit (towerBase tower + Off.twrStat) 4 = true)) ∧
    (∀ m : BitVec 16, s.takes .pf (towerBase tower + Off.twrPin) = true →
      (popCount16 m.toNat ≤ 2 → ∃ n, exec (.twrPinWrite tower m) s = .next n ∧ n.reg (towerBase tower + Off.twrPin) = m.toNat) ∧
      (popCount16 m.toNat > 2 → exec (.twrPinWrite tower m) s = .next s))

/-- Sanitise and migration (R173, R181): a sanitise ends with every byte of the tower zero and INIT set in every valid entry; GO
starts a migration for a valid frame and a free band, and its end gives the frame the new band. -/
def Obligations.TowersCleanedAndMoved : Prop :=
  (∀ (s : State) (tower : Nat), s.runs = true → (s.tower tower).sanitiseBusy = true →
    ∃ n, exec (.sanitiseDone tower) s = .next n ∧ (n.tower tower).sanitiseBusy = false ∧
      (∀ a, a < 32 * towerWords → (n.tower tower).ram.bytes.get a = 0) ∧
      ∀ e ∈ (n.tower tower).frames, e.2.valid = true → e.2.init = true) ∧
  (∀ (s : State) (tower : Nat) (frame : BitVec 16) (band : BitVec 6) (m : Migration),
    (s.takes .pf (towerBase tower + Off.twrMigrate) = true → (s.tower tower).migration = none → (s.tower tower).evac = none →
      (mget {} (s.tower tower).frames frame.toNat).valid = true →
      bandTaken (s.tower tower) frame.toNat band.toNat = false →
      ∃ n, exec (.twrMigrate tower frame band) s = .next n ∧ (n.tower tower).migration = some ⟨frame.toNat, band.toNat⟩ ∧
        (mget {} (n.tower tower).frames frame.toNat).migrating = true ∧
        n.regBit (towerBase tower + Off.twrMigrateStat) 31 = true) ∧
    (s.runs = true → (s.tower tower).migration = some m →
      ∃ n, exec (.migrationDone tower) s = .next n ∧ (n.tower tower).migration = none ∧
        (mget {} (n.tower tower).frames m.frame).band = m.dest ∧
        (mget {} (n.tower tower).frames m.frame).migrating = false ∧
        n.regBit (towerBase tower + Off.twrMigrateStat) 31 = false ∧ n.regBit (towerBase tower + Off.twrMigrateStat) 30 = true))

/-- Repair, error rates, refresh, temperature, scrub and errors in the Keep's storage (R175 to R180, R437, R467): the column that was
being copied is repaired, a tracked count ends, a refresh leaves the tower as it stands, a reading sets TWR_TEMP and HOT, the scrub
moves on past the row that it reads, and an access during which a region of the Keep's storage has a corrected error leaves a
record KEEP_SRAM_CE with that region as its DETAIL. -/
def Obligations.KeepEvents : Prop :=
  ∀ (s : State) (tower : Nat), s.runs = true →
    (∀ floor bank word : Nat, (s.tower tower).colBusy.contains ⟨floor, bank, 0, word⟩ = true →
      ∃ n, exec (.colRepairDone tower floor bank word) s = .next n ∧
        (n.tower tower).colRepairs = (s.tower tower).colRepairs ++ [⟨floor, bank, 0, word⟩] ∧
        (n.tower tower).colBusy.length + 1 = (s.tower tower).colBusy.length) ∧
    (∀ frame : Nat, ∃ n, exec (.ceWindowExpire tower frame) s = .next n ∧
      mget ⟨0, false⟩ (n.tower tower).track frame = ⟨0, false⟩ ∧
      ∀ f, f ≠ frame → mget ⟨0, false⟩ (n.tower tower).track f = mget ⟨0, false⟩ (s.tower tower).track f) ∧
    (∀ floor bank : Nat, exec (.refresh tower floor bank) s = .next s) ∧
    (∀ l : List Nat, l ≠ [] → s.dark tower = false → ∃ n, exec (.tempReading tower l) s = .next n ∧
      (n.tower tower).tempC ∈ l ∧ (∀ x ∈ l, x ≤ (n.tower tower).tempC) ∧
      ((∃ x ∈ l, x > 85) → (n.tower tower).hot = true) ∧ ((∀ x ∈ l, x ≤ 83) → (n.tower tower).hot = false)) ∧
    (∀ row : Nat, (s.group tower).pstate = .g0 → (s.group tower).outOfService = false →
      (s.tower tower).sanitiseBusy = false → s.regField (towerBase tower + Off.twrScrubRate) 0 16 ≠ 0 →
      nextScrub (s.tower tower) = some (row, false) → row + 1 < towerRows →
      ∃ n, exec (.patrolScrubRow tower) s = .next n ∧ (n.tower tower).scrubPos = row + 1) ∧
    (∀ (wordAddr region : Nat) (id : BitVec 16),
      let p := s.accessTower tower wordAddr id .read (.unit region false)
      (∀ r ∈ p.landing.records, r.code ≠ .keepSramCe) → p.landing.records.length + p.landing.waiting.length < 256 →
      ∃ n, exec (.towerAccess tower wordAddr id .read (.unit region false)) s = .next n ∧
        ∃ e ∈ n.landing.records, e.code = .keepSramCe ∧ e.cls = .corrected ∧ e.index = tower ∧ e.physHi = 0xFE ∧
          e.detail = region)

/-! ## Cupolas, host accesses, counters -/

/-- Granules, evictions and ratios (R24, R27, R161, R328, R465): an allowed change of a granule starts and another sets
ASSIGN_ERR, the change ends with the granule zero, a scratch word takes what is written, an evicted line is gone, a ratio that
the governor wants is requested, with the group's dispatch held, and it changes once the group is between commands. -/
def Obligations.CupolaAndRatios : Prop :=
  ∀ (s : State) (k word spire part line group : Nat) (value : Word) (bytes : List Byte) (poison : Bool) (upset : Upset)
    (ratio : BitVec 2) (next : Bool × Nat),
    (s.takes .pf (Off.cupGran + 4 * k) = true → (s.granule k).scratch ≠ value.getLsbD 31 →
      ∃ n, exec (.cupGranWrite .pf k value) s = .next n ∧
        (s.granuleOk k (value.getLsbD 31) (value.toNat % 16) = true →
          (n.granule k).busy = true ∧ (n.granule k).next = some (value.getLsbD 31, value.toNat % 16)) ∧
        (s.granuleOk k (value.getLsbD 31) (value.toNat % 16) = false →
          (n.granule k).err = true ∧ (n.granule k).scratch = (s.granule k).scratch ∧ (n.granule k).part = (s.granule k).part)) ∧
    (s.runs = true → (s.granule k).next = some next →
      ∃ n, exec (.granuleChangeDone k) s = .next n ∧ (n.granule k).scratch = next.1 ∧ (n.granule k).part = next.2 ∧
        (n.granule k).busy = false ∧
        ∀ a, k * granuleBytes ≤ a → a < (k + 1) * granuleBytes → n.scratch.bytes.get a = 0) ∧
    (s.runs = true → (s.granule k).scratch = true → (s.granule k).busy = false → bytes.length = 32 →
      (∀ region, upset ≠ .unit region true) →
      ∃ n, exec (.cupolaScratchAccess k word (.write bytes poison) upset) s = .next n ∧
        ∀ i, i < 32 → some (n.scratch.bytes.get (32 * scratchWord k (32 * word) + i)) = bytes[i]?) ∧
    (s.runs = true →
      ∃ n, exec (.cupolaEviction spire part line) s = .next n ∧
        ∀ l ∈ n.cupola spire, ¬(l.part = part ∧ l.addr = line - line % 256)) ∧
    (s.runs = true → ratio ≠ 3 → (s.group group).ratioNext = none → (s.group group).ratio ≠ ratio.toNat →
      s.wantsRatio group ratio.toNat = true →
      ∃ n, exec (.ratioChangeRequest group ratio) s = .next n ∧ (n.group group).ratioNext = some ratio.toNat ∧
        (n.group group).dispatchHeld = true ∧ (n.group group).ratio = (s.group group).ratio) ∧
    (s.runs = true → (s.group group).ratioNext = some ratio.toNat →
      (s.betweenCommands group = true →
        ∃ n, exec (.ratioChangeDone group) s = .next n ∧ (n.group group).ratio = ratio.toNat ∧
          (n.group group).dispatchHeld = false ∧ n.cores = s.cores ∧ n.towers = s.towers) ∧
      (s.betweenCommands group = false → exec (.ratioChangeDone group) s = .next s))

/-- Host writes of counters, semaphores and the discovery selector, and accesses through BAR2 (R161, R277, R279, R285, R294, R368,
R370, R372, R375, R379): a counter rises by AMOUNT modulo 2^64 and no other changes, a LOCK semaphore takes VALUE at most 1 and
HOLDER 255, the selector keeps the key; with the aperture on an access within BAR2 is performed at the partition address that it
reaches, and a read within one word returns that word's bytes; one that reaches neither view leaves an error record and changes no
memory, and it, a word that is refused, and a read that is not served return bytes of 0xFF. -/
def Obligations.HostAccesses : Prop :=
  (∀ (s : State) (part sem : Nat) (index : BitVec 12) (amount : BitVec 48) (value : Word) (key : BitVec 8) (i16 : BitVec 16),
    (s.takes .pf (partBase part + Off.cntAdd) = true →
      ∃ n, exec (.cntAdd .pf part index amount) s = .next n ∧
        n.counter part index.toNat = BitVec.ofNat 64 ((s.counter part index.toNat).toNat + amount.toNat) ∧
        (∀ p k, p ≠ part ∨ k ≠ index.toNat → n.counter p k = s.counter p k) ∧ n.cores = s.cores ∧ n.towers = s.towers ∧
        n.regs = s.regs) ∧
    (s.takes .pf (partBase part + Off.sem + 4 * sem) = true → value.toNat / 2 ^ 30 = 1 →
      ∃ n, exec (.semWrite .pf part sem value) s = .next n ∧ semLock (n.sem part sem) = true ∧
        semValue (n.sem part sem) = min 1 (value.toNat % 2 ^ 16) ∧ semHolder (n.sem part sem) = 255 ∧
        ∀ k, k ≠ sem → n.sem part k = s.sem part k) ∧
    (s.takes .pf Off.gfeatSel = true →
      ∃ n, exec (.gfeatSelWrite .pf key i16) s = .next n ∧ n.reg Off.gfeatSel = i16.toNat * 65536 + key.toNat ∧
        ∀ a, a ≠ Off.gfeatSel → n.reg a = s.reg a)) ∧
  (∀ (s : State) (fn : Fn) (offset length p a : Nat) (on : Bool) (bytes : List Byte), s.aperture fn offset = (p, a, on) →
    let logged (n : State) : Prop := n.towers = s.towers ∧ n.scratch = s.scratch ∧ n.cupolas = s.cupolas ∧
      ∃ e, n.landing.records = [e] ∧ e.code = .memUnmapped ∧ e.addr = a ∧ e.status = .bounds
    (s.bar2 fn = true → bytes ≠ [] → offset + bytes.length ≤ s.bar2Size fn →
      (s.reachesTower p a on = true →
        exec (.hostBar2Write fn offset bytes false) s = .next (s.writeRun .host p a bytes [] false).1) ∧
      (s.reachesTower p a on = false → s.landing.records = [] → s.landing.waiting = [] →
        ∃ n, exec (.hostBar2Write fn offset bytes false) s = .next n ∧ logged n)) ∧
    (length ≠ 0 → offset + length ≤ s.bar2Size fn →
      (s.portUp = true → s.bar2 fn = false →
        exec (.hostBar2Read fn offset length) s = .next { s with hostRead := List.replicate length 0xFF }) ∧
      (s.bar2 fn = true → a % 32 + length ≤ 32 →
        (s.reachesTower p a on = true →
          let r := s.readWord .host p (a - a % 32)
          (r.2 = none → ∃ n, exec (.hostBar2Read fn offset length) s = .next n ∧ n.hostRead = List.replicate length 0xFF) ∧
          ∀ w, r.2 = some w → w.kind = .clean →
            ∃ n, exec (.hostBar2Read fn offset length) s = .next n ∧ n.hostRead = w.data.bytes (a % 32) length ∧
              n.towers = r.1.towers ∧ n.cupolas = r.1.cupolas) ∧
        (s.reachesTower p a on = false → s.landing.records = [] → s.landing.waiting = [] →
          ∃ n, exec (.hostBar2Read fn offset length) s = .next n ∧ n.hostRead = List.replicate length 0xFF ∧ logged n))))

/-! ## Jobs (R299 to R318) -/

/-- Job registers (R300, R301, R312, R313): ENABLE makes a DISABLED job that passes its checks READY or IDLE, and sets CFG_ERR of
one that does not; ENABLE cleared makes an IDLE job DISABLED, PRING_TAIL makes an IDLE job READY, or with too many entries sets
RING_ERR, CLEAR ends FAULTED, KILL begins its drain, and a read of PJOB_ACCT_LO latches the high half. -/
def Obligations.JobRegisters : Prop :=
  ∀ (s : State) (p j : Nat) (value tail : Word), s.takes .pf (jobBase p j + Off.pjobCtl) = true →
    (value.getLsbD 17 = true → (s.job p j).state = .disabled → p < 12 → j < 64 →
      ∃ n, exec (.jobEnable .pf p j value) s = .next n ∧
        (s.jobCfgOk p j = true → (n.job p j).state =
          if (s.job p j).cmd.isSome ∨ s.pendingEntries p j ≠ 0 then .ready else .idle) ∧
        (s.jobCfgOk p j = false → (n.job p j).state = .disabled ∧ n.regBit (jobBase p j + Off.pjobStat) 28 = true)) ∧
    (value.getLsbD 17 = true → value.getLsbD 30 = false → value.getLsbD 31 = false → (s.job p j).state ≠ .disabled →
      ∃ n, exec (.jobEnable .pf p j value) s = .next n ∧ (n.job p j).state = (s.job p j).state) ∧
    (value.getLsbD 17 = false → value.getLsbD 31 = false → (s.job p j).state = .idle →
      ∃ n, exec (.jobDisable .pf p j value) s = .next n ∧ (n.job p j).state = .disabled) ∧
    ((s.job p j).state = .faulted → ∃ n, exec (.clear .pf p j) s = .next n ∧ (n.job p j).state ≠ .faulted) ∧
    ((s.job p j).state ≠ .disabled → (s.job p j).state ≠ .killing →
      ∃ n, exec (.kill .pf p j) s = .next n ∧ (n.job p j).state = .killing ∧ (n.job p j).killStatus = .aborted ∧
        (s.pendingEntries p j = 0 → (s.job p j).preempting = false →
          (n.job p j).drainStart = s.landing.fclk.toNat ∧ (n.job p j).drainLen = s.killWindow p)) ∧
    (∃ n, exec (.pjobAcctLoRead .pf p j) s = .next n ∧
      (n.job p j).acctHi = (s.job p j).account.extractLsb' 32 32 ∧ (n.job p j).account = (s.job p j).account) ∧
    (s.takes .pf (jobBase p j + Off.pringTail) = true → (s.part p).state = .enabled → (s.job p j).state = .idle →
      s.pendingEntries p j = 0 → tail.toNat ≠ s.reg (jobBase p j + Off.pringHead) →
      s.reg (jobBase p j + Off.pringHead) < 2 ^ 32 →
      ∃ n, exec (.pringTail .pf p j tail) s = .next n ∧
        ((tail.toNat + 2 ^ 32 - s.reg (jobBase p j + Off.pringHead)) % 2 ^ 32 ≤ 2 ^ s.ringLog2 p j →
          n.reg (jobBase p j + Off.pringTail) = tail.toNat ∧ (n.job p j).state = .ready) ∧
        (2 ^ s.ringLog2 p j < (tail.toNat + 2 ^ 32 - s.reg (jobBase p j + Off.pringHead)) % 2 ^ 32 →
          n.regBit (jobBase p j + Off.pjobStat) 27 = true ∧
          n.reg (jobBase p j + Off.pringTail) = s.reg (jobBase p j + Off.pringTail)))

/-- What the dispatcher does with a job (R301 to R304, R322 to R324): it advances PRING_HEAD past the entry that it fetches, which, a
RUN without a model, is then in progress; it places the next task on the lowest free core, where it is paid in its turn, with
its index and the number of cores in their registers and the argument block in data memory (R74); and it completes a command whose
tasks have ended. -/
def Obligations.JobCommandsRun : Prop :=
  ∀ (s : State) (p j c : Nat) (r : RunCmd) (args : Memory),
    (((s.job p j).state = .ready ∨ ((s.job p j).state = .resident ∧ s.ctxBase p j ≠ 0)) → (s.job p j).cmd = none →
      s.pendingEntries p j ≠ 0 → (s.part p).ucodeHold = false → s.working p = true →
      let q := s.readEntry p j
      ∃ n, exec (.ringEntryFetch p j) s = .next n ∧
        n.reg (jobBase p j + Off.pringHead) = (q.1.reg (jobBase p j + Off.pringHead) + 1) % 2 ^ 32 ∧
        ∀ x, q.2 = .ok x → (parseEntry x).ok = true → (parseEntry x).op = 1 → (parseEntry x).run.modelEn = false →
          ((q.1.advanceHead p j).readArgs p (parseEntry x).run).2 = .ok args → (n.job p j).cmd = some (parseEntry x).run) ∧
    ((s.job p j).cmd = some r → (s.job p j).state = .resident → (s.job p j).preempting = false → (s.job p j).held = false →
      r.placed < r.ntasks → (r.modelEn = false ∨ r.modelUp = true) → s.gov.brakes = [] → s.stopped = false →
      (s.coreSet p j).find? (fun c => s.coreFree c) = some c → s.canPlace p j c = true →
      s.placeTurn p j (Config.groupOfCore c) = true → (s.readArgs p r).2 = .ok args →
      ∃ n, exec (.taskPlace p j) s = .next n ∧ ∃ t, (n.core c).task = some t ∧ t.part = p ∧ t.job = j ∧ t.index = r.placed ∧
        (n.core c).pc = BitVec.ofNat 32 r.entry ∧ (n.core c).rd 1 = BitVec.ofNat 32 r.placed ∧
        (n.core c).rd 2 = BitVec.ofNat 32 (s.coreSet p j).length ∧
        (∀ x, x < r.argLen → (n.core c).dmem.get x = args.get x) ∧
        (n.core c).inflight = [] ∧ (n.core c).queues = [] ∧ (n.core c).trapMode = false) ∧
    ((s.job p j).cmd = some r → (s.job p j).state ≠ .killing → s.stopped = false → r.ended = r.ntasks →
      ∃ n, exec (.commandComplete p j) s = .next n ∧ (n.job p j).cmd = none)

/-- Residency, slices, kills and donations (R308 to R316): a job that may have its cores becomes RESIDENT once its contexts are
restored; a slice that nobody else wants, or that no pre-emption may end, starts again, and a rival of better standing ends it, an
URGENT one at once; a pre-emption ends with the contexts saved, a kill with the job DISABLED, a donation gives the holder the
waiter's standing; a load that has ended well lets the command start, and one that has not ends it. -/
def Obligations.JobsComeAndGo : Prop :=
  ∀ (s : State) (p j sem : Nat) (r : RunCmd),
    let resident : Prop := s.runs = true ∧ (s.job p j).state = .resident ∧ (s.job p j).preempting = false
    let loading : Prop := s.runs = true ∧ (s.job p j).state = .loading ∧ (s.job p j).cmd = some r ∧
      (s.chan (s.modelEngine p) 15).free = true
    (s.mayReside p j = true → ((s.wakeJob p j).loadCores p j (s.job p j).saved).2 = none →
      ∃ n, exec (.jobResident p j) s = .next n ∧ (n.job p j).state = .resident ∧ (n.job p j).preempting = false ∧
        (n.job p j).saved = []) ∧
    (resident → s.sliceCycles p j - (s.job p j).sliceStart ≥ s.sliceLen p j → (s.job p j).donor = none →
      (s.job p j).donated = false →
      ∃ n, exec (.sliceExpiry p j) s = .next n ∧
        ((s.preemptible p j = false ∧ (s.job p j).cmd.isSome = true) ∨
            (s.preemptible p j = true ∧ s.betterWaits p j = false ∧ s.coreWanted p j = false) →
          (n.job p j).overrun = 0 ∧ (n.job p j).state = .resident ∧ (n.job p j).preempting = false ∧
            (n.job p j).sliceStart = s.sliceCycles p j) ∧
        (s.preemptible p j = true → s.betterWaits p j = true →
          (n.job p j).preempting = true ∧ (n.job p j).sliceEnd = s.sliceCycles p j)) ∧
    (s.runs = true → s.preemptible p j = true → s.urgent p j = false → (s.job p j).donor = none →
      (s.job p j).donated = false → s.betterWaits p j = true →
      jobList.any (fun k => s.rivals p j k && s.isReady p k && decide ((s.job p k).state ≠ .resident) && s.urgent p k) = true →
      ∃ n, exec (.urgentPreempt p j) s = .next n ∧ (n.job p j).preempting = true ∧
        (n.job p j).sliceEnd = s.sliceCycles p j) ∧
    (s.runs = true → (s.job p j).preempting = true → ((s.taskCores p j).all fun c => s.savable c) = true →
      s.channelsBusy p j = false → (s.saveCores p j (s.taskCores p j)).2 = none →
      ∃ n, exec (.contextSaveDone p j) s = .next n ∧ (n.job p j).state = .preempted ∧ (n.job p j).preempting = false ∧
        (n.job p j).saved.map (fun x => x.core) = s.taskCores p j ∧ ∀ c ∈ s.taskCores p j, (n.core c).task = none) ∧
    (s.runs = true → (s.job p j).state = .killing →
      (s.tasksOver p j = true ∨ s.landing.fclk.toNat ≥ (s.job p j).drainStart + (s.job p j).drainLen) →
      ∃ n, exec (.killDrainEnd p j) s = .next n ∧ (n.job p j).state = .disabled ∧ (n.job p j).saved = []) ∧
    (resident →
      (s.part p).semWait.any (fun w => decide (w.1 = sem) && s.holdsTask p j w.2) = true → semLock (s.sem p sem) = true →
      semHolder (s.sem p sem) < 64 → semHolder (s.sem p sem) ≠ j → s.canReceive p (semHolder (s.sem p sem)) = true →
      (s.job p (semHolder (s.sem p sem))).donor = none →
      ∃ n, exec (.donation p j sem) s = .next n ∧ (n.job p (semHolder (s.sem p sem))).donated = true ∧
        (n.job p (semHolder (s.sem p sem))).donor = some (j, sem)) ∧
    (loading → r.load = 1 → r.hot = false → (s.chan (s.modelEngine p) 15).status = .ok →
      ∀ e, ((s.setModelState p r.model 2).readModel p r.model).2 = .ok e → e.ok = true → e.state = 2 →
      ∃ n, exec (.modelLoadDone p j) s = .next n ∧ (n.job p j).cmd = some { r with modelUp := true, load := 0 } ∧
        (n.job p j).state = .ready) ∧
    (loading → r.load ≠ 0 → (s.chan (s.modelEngine p) 15).status ≠ .ok →
      ∃ n, exec (.modelLoadDone p j) s = .next n ∧ (n.job p j).cmd = none)

/-! ## The governor (R319 to R330) -/

/-- The governor (R319, R325 to R328): an epoch moves the loss by the hottest reading and brakes at 110 °C, a brake is
recorded and shown, its last release restarts at 200 W, a trip stops the clocks, and GOV_GRP_CFG keeps RATIO. -/
def Obligations.GovernorActs : Prop :=
  ∀ (s : State) (hottest site celsius group : Nat) (value : Word),
    (s.runs = true →
      ∃ n, exec (.governorEpoch hottest) s = .next n ∧
        (s.regField (govBase + Off.govTherm) 16 8 < hottest → n.gov.loss = min 96 (s.gov.loss + 4)) ∧
        (hottest + 3 ≤ s.regField (govBase + Off.govTherm) 16 8 → n.gov.loss = s.gov.loss - 1) ∧
        (110 ≤ hottest → .thermal ∈ n.gov.brakes) ∧ (hottest ≤ 107 → .thermal ∉ n.gov.brakes)) ∧
    (s.regBit (govBase + Off.govCtl) 0 = true → .forced ∉ s.gov.brakes →
      ∃ n, exec (.brake .forced) s = .next n ∧ n.gov.brakes = .forced :: s.gov.brakes ∧
        n.regBit (govBase + Off.govStat) 30 = true ∧ n.regBit (govBase + Off.govStat) 28 = true) ∧
    (s.gov.brakes = [.supply] →
      ∃ n, exec (.brakeRelease .supply) s = .next n ∧ n.gov.brakes = [] ∧
        n.gov.recover = some (3200 - s.regField (govBase + Off.govFixed) 0 16) ∧
        n.regBit (govBase + Off.govStat) 30 = false) ∧
    (115 ≤ celsius → site < 128 → s.mod.modPg = true → s.regBit (govBase + Off.govStat) 31 = false →
      ∃ n, exec (.thermalTrip site celsius) s = .next n ∧ n.mod.thermAlert = true ∧ n.stopped = true ∧
        n.regBit (govBase + Off.govStat) 31 = true) ∧
    (group < s.units → s.takes .pf (govBase + Off.govGrpCfg + 4 * group) = true →
      ∃ n, exec (.govGrpCfgWrite .pf group value) s = .next n ∧
        n.regField (govBase + Off.govGrpCfg + 4 * group) 5 2 =
          (if value.toNat / 32 % 4 = 3 then s.regField (govBase + Off.govGrpCfg + 4 * group) 5 2 else value.toNat / 32 % 4))

/-- The power ladder (R329, R330): an idle group goes down one state at a time as far as its FLOOR lets it, with its memories
as they are, work brings it back to G0, and from G4 it comes up in G1 with an empty tower. -/
def Obligations.PowerLadder : Prop :=
  ∀ (s : State) (g : Nat), s.stopped = false →
    ((s.group g).pstate = .g0 → 1 ≤ s.ladderFloor g → s.groupIdle g = true →
      ∃ n, exec (.g1Entry g) s = .next n ∧ (n.group g).pstate = .g1 ∧ n.cores = s.cores ∧ n.towers = s.towers) ∧
    ((s.group g).pstate = .g1 → 2 ≤ s.ladderFloor g → s.groupIdle g = true → s.towerMoves g = false →
      ∃ n, exec (.g2Entry g) s = .next n ∧ (n.group g).pstate = .g2 ∧ n.cores = s.cores ∧ n.towers = s.towers) ∧
    ((s.group g).pstate = .g2 → 3 ≤ s.ladderFloor g → s.regBit (govBase + Off.govGrpCfg + 4 * g) 3 = true →
      s.mayShut g = true →
      ∃ n, exec (.g3Entry g) s = .next n ∧ (n.group g).pstate = .g3 ∧ n.towers = s.towers) ∧
    ((s.group g).pstate = .g2 ∨ (s.group g).pstate = .g3 → s.target g = 4 → s.mayShut g = true →
      ∃ n, exec (.g4Entry g) s = .next n ∧ (n.group g).pstate = .g4 ∧ n.towers = s.towers) ∧
    ((s.group g).pstate = .g1 ∨ (s.group g).pstate = .g2 → s.groupWanted g = true →
      ∃ n, exec (.groupWake g) s = .next n ∧ (n.group g).pstate = .g0 ∧ n.cores = s.cores ∧ n.towers = s.towers) ∧
    ((s.group g).pstate = .g4 → s.target g = 0 → (s.group g).outOfService = false → (s.group g).testing = false →
      g < s.units → s.ready = true →
      ∃ n, exec (.g4ExitDone g) s = .next n ∧ (n.group g).pstate = .g1 ∧ (n.tower g).ram = {} ∧ (n.tower g).frames = [] ∧
        ∀ k, k ≠ g → n.tower k = s.tower k)

/-! ## Serving (R246 to R261) -/

/-- Serving registers (R252, R253, R259, R261): a submission that passes is live, one that does not is REFUSED, a cancel
during a step waits for its end unless the request holds nothing, a DONE entry is released, SRV_CTL keeps PCHUNK, stops serving, and
starts it where the bases and the jobs allow, else setting CFG_ERR, and PFX_FLUSH drops the idle nodes. -/
def Obligations.ServingRegisters : Prop :=
  ∀ (s : State) (p e : Nat) (i : BitVec 12) (value : Word),
    (s.takes .pf (partBase p + Off.srvSubmit) = true → s.serves p = true → s.working p = true → i.toNat < s.reqCount p →
      let q := (s.servePools p).readReq p i.toNat
      q.2 = some e → reqState e = 0 → (q.1.srvReq p i.toNat).isNone = true →
      let r := q.1.submitOk p e
      ∃ n, exec (.srvSubmit .pf p i) s = .next n ∧
        (r.2 = true → ∃ x ∈ (n.part p).srv.reqs, x.req = i.toNat) ∧
        (r.2 = false → n = r.1.setDone p i.toNat .refused)) ∧
    (s.takes .pf (partBase p + Off.srvCancel) = true → s.working p = true → (s.srvReq p i.toNat).isSome = true →
      ((s.bare p i.toNat).2 = false → (s.part p).srv.step.isSome = true →
        ∃ n, exec (.srvCancel .pf p i) s = .next n ∧ (n.part p).srv.cancels = (s.part p).srv.cancels ++ [i.toNat]) ∧
      ((s.bare p i.toNat).2 = true → exec (.srvCancel .pf p i) s = .next ((s.bare p i.toNat).1.cancelNow p i.toNat))) ∧
    (s.takes .pf (partBase p + Off.srvRelease) = true → i.toNat < s.reqCount p → s.stopped = false →
      (s.readReq p i.toNat).2 = some e → reqState e = 5 →
      exec (.srvRelease .pf p i) s = .next ((s.readReq p i.toNat).1.putReq p i.toNat 0 1 0)) ∧
    (s.takes .pf (partBase p + Off.srvCtl) = true → value.getLsbD 3 = false →
      ∃ n, exec (.srvCtlWrite .pf p value) s = .next n ∧
        n.regField (partBase p + Off.srvCtl) 16 16 = value.toNat / 65536 ∧
        (value.getLsbD 0 = false → n.serves p = false) ∧
        (value.getLsbD 0 = true → s.serves p = false →
          let a := partBase p + Off.srvCtl
          let q := (s.setRegField a 16 16 (value.toNat / 65536)).setRegField a 4 12 (value.toNat / 16)
          (q.srvBasesOk p && !q.rivalBlocked p (value.toNat / 16 % 64)) = true → n.serves p = true)) ∧
    (s.takes .pf (partBase p + Off.srvCtl) = true → s.stopped = false →
      exec (.pfxFlush .pf p) s = .next (s.flushTree p))

/-- Serving steps (R248, R254, R258): a step begins for the requests that are ready and is counted, its result ends it, a
prompt chunk that is done is in progress no longer, and a held LAST entry is written once there is room. -/
def Obligations.ServingSteps : Prop :=
  ∀ (s : State) (p m i e : Nat) (c : SrvChunk) (st : SrvStep) (h : HeldLast), s.working p = true →
    (s.serves p = true → (s.part p).ucodeHold = false → ((s.servePools p).part p).srv.step = none →
      let q := ((s.servePools p).evictAt p m).stepReady p m
      q.2 ≠ [] → q.1.ringTakes p (q.1.genRing p) = true →
      ∃ n, exec (.servingStep p m) s = .next n ∧ (n.part p).srv.steps = (q.1.part p).srv.steps + 1 ∧
        ∃ x, (n.part p).srv.step = some x ∧ x.model = m ∧ x.reqs = q.2.map (·.1)) ∧
    (s.runs = true → (s.part p).srv.step = some st → s.entryOver p (s.genRing p) st.tail = true →
      ∃ n, exec (.stepResult p) s = .next n ∧ (n.part p).srv.step = none) ∧
    (s.runs = true → (s.part p).srv.chunks.find? (fun c => decide (c.req = i)) = some c →
      s.entryOver p (s.promptRing p) c.tail = true →
      let q := (s.servePools p).readReq p i
      q.2 = some e →
      let r := (q.1.noteStep p i e (q.1.promptRing p) c.tail).readStep p i e
      (c.cut = true ∨ r.1.chunkRows p c e r.2 ≤ ringRoom e) →
      ∃ n, exec (.promptChunkDone p i) s = .next n ∧ ∀ x ∈ (n.part p).srv.chunks, x.req ≠ i) ∧
    ((s.part p).srv.held.find? (fun h => decide (h.req = i)) = some h → (s.readReq p i).2 = some e → 1 ≤ ringRoom e →
      ∃ n, exec (.lastEntryWrite p i) s = .next n ∧ ∀ x ∈ (n.part p).srv.held, x.req ≠ i)

/-! ## DMA (R335 to R365) -/

/-- DMA registers (R335, R354, R364, R365): a kick starts the chain on a free channel and else sets KICK_ERR, an abort halts a
waiting channel with ABORTED, is kept for the burst boundary of one that holds the engine and leaves an idle one as it is, and a
read of a LO half latches the HI half. -/
def Obligations.DmaRegisters : Prop :=
  ∀ (s : State) (e c p : Nat) (chain : BitVec 48), s.channelExists e c = true →
    (s.takes .pf (chanReg e c Off.chKick) = true →
      ((s.chan e c).free = true → s.channelJob e c = none → s.chanPart e c < s.units →
        (s.part (s.chanPart e c)).state = .enabled →
        ∃ n, exec (.chKick .pf e c chain) s = .next n ∧ (n.chan e c).state = .running ∧ (n.chan e c).chain = chain.toNat ∧
          (n.chan e c).part = s.chanPart e c ∧ (n.chan e c).kicker = .pf) ∧
      ((s.chan e c).free = false →
        ∃ n, exec (.chKick .pf e c chain) s = .next n ∧ n.engines = s.engines ∧
          n.regBit (chanReg e c Off.chStat) 27 = true) ∧
      (∃ n, exec (.chDescLoRead .pf e c) s = .next n ∧ (n.chan e c).descHi = (s.chan e c).descAddr / 2 ^ 32 ∧
        n.towers = s.towers) ∧
      (∃ n, exec (.chProgLoRead .pf e c) s = .next n ∧ (n.chan e c).progHi = (s.chan e c).prog / 2 ^ 32 ∧
        n.towers = s.towers)) ∧
    (s.takes .pf (partBase p + Off.phdmaKick) = true → (s.part p).state = .enabled → c < 15 → 12 ≤ e → e < 14 →
      s.chanPart e c = p →
      ((s.chan e c).free = true →
        ∃ n, exec (.phdmaKick .pf p (e - 12) c chain) s = .next n ∧ (n.chan e c).state = .running ∧
          (n.chan e c).chain = chain.toNat ∧ (n.chan e c).kicker = .phdma) ∧
      ((s.chan e c).free = false →
        ∃ n, exec (.phdmaKick .pf p (e - 12) c chain) s = .next n ∧ n.engines = s.engines ∧
          n.regBit (partBase p + Off.phdmaStat) 0 = true)) ∧
    (s.takes .pf (chanReg e c Off.chCtl) = true →
      ((s.chan e c).state = .parked ∨ (s.chan e c).state = .paused →
        ∃ n, exec (.abort .pf e c) s = .next n ∧ (n.chan e c).state = .halted ∧ (n.chan e c).status = .aborted) ∧
      ((s.chan e c).state = .running → (s.engine e).busy = some c →
        ∃ n, exec (.abort .pf e c) s = .next n ∧ (n.chan e c).abort = some .aborted ∧ (n.chan e c).state = .running ∧
          n.towers = s.towers) ∧
      ((s.chan e c).free = true → exec (.abort .pf e c) s = .next s))

/-- An engine at work (R335 to R339, R350): it takes up the next channel that has work, a descriptor that cannot be read halts
the chain and one that is given is taken up, a unit moved comes off the bytes that the tolls cover, a rate gap ends, and the
last transfer of a chain leaves the channel IDLE with its status. -/
def Obligations.DmaEngineWorks : Prop :=
  ∀ (s : State) (e c : Nat) (d : DmaDesc) (st : Status), s.engineRuns e = true →
    ((s.engine e).busy = none → s.nextChannel e = some c →
      ∃ n, exec (.dmaChannelSelect e) s = .next n ∧ (n.engine e).busy = some c ∧ (n.engine e).last = c ∧
        (n.chan e c).state = .running) ∧
    ((s.engine e).busy = some c → (s.chan e c).desc = none → (s.chan e c).abort = none →
      ((s.chan e c).given = some d →
        ∃ n, exec (.dmaDescriptorFetch e) s = .next n ∧ (n.chan e c).desc = some d ∧ (n.chan e c).chain = d.next ∧
          (n.chan e c).prog = 0) ∧
      ((s.chan e c).given = none → (s.readDma e (s.chan e c).part (s.chan e c).chain).2 = .error st →
        ∃ n, exec (.dmaDescriptorFetch e) s = .next n ∧ (n.chan e c).state = .halted ∧ (n.chan e c).status = st)) ∧
    ((s.engine e).busy = some c → (s.chan e c).desc = some d → (s.chan e c).final = false → (s.chan e c).abort = none →
      s.chanPaused e c = false → s.gov.brakes = [] →
      let pay := s.payDma e c (s.chan e c).nextBytes d.cls
      let r := (pay.getD s).moveUnit e c d
      pay.isSome = true → r.2 = .moved →
      ∃ n, exec (.dmaBurst e) s = .next n ∧
        (n.chan e c).covered = (r.1.chan e c).covered - ((r.1.chan e c).moved - (s.chan e c).moved) ∧
        (n.chan e c).prog = (r.1.chan e c).prog ∧ n.towers = r.1.towers ∧ n.cores = r.1.cores ∧ n.hostMem = r.1.hostMem) ∧
    (s.runs = true → (s.chan e c).state = .parked → (s.chan e c).park = some .gap →
      ∃ n, exec (.rateGapEnd e c) s = .next n ∧ (n.chan e c).state = .running ∧ (n.chan e c).park = none) ∧
    ((s.engine e).busy = some c → (s.chan e c).desc = some d → (s.chan e c).final = true → (s.chan e c).abort = none →
      (s.chan e c).chain = 0 →
      ∃ n, exec (.dmaTransferEnd e) s = .next n ∧ (n.chan e c).state = .idle ∧
        (n.chan e c).status = (s.chan e c).ownStatus ∧ (n.engine e).busy = none)

/-- The transfers of each mode (Table 10-3, R344, R345, R358 to R363): where the tolls cover the unit that is left of the transfer and
it moves, the command leaves memory, cores and host memory as that unit does, with the channel's transfer at its end (log 21); and a
complete block leaves the link expander. -/
def Obligations.DmaTransfersEnd : Prop :=
  ∀ (s : State) (e c : Nat) (d : DmaDesc), s.engineRuns e = true →
    (let pay := s.payDma e c (s.chan e c).nextBytes d.cls
      let r := (pay.getD s).moveUnit e c d
      let ends (i : Instr) (k : DmaKind) : Prop :=
      (s.engine e).busy = some c → (s.chan e c).desc = some d → (s.chan e c).final = false → (s.chan e c).abort = none →
      s.chanPaused e c = false → s.gov.brakes = [] → d.kind = some k → pay.isSome = true → r.2 = .moved →
      (r.1.chan e c).final = true → r.1.runningKind e = none →
      ∃ n, exec i s = .next n ∧ (n.chan e c).final = true ∧ (n.chan e c).prog = (r.1.chan e c).prog ∧
        n.towers = r.1.towers ∧ n.cores = r.1.cores ∧ n.scratch = r.1.scratch ∧ n.hostMem = r.1.hostMem ∧ n.links = r.1.links
    ends (.dmaCopy e) .copy ∧ ends (.compress e) .compress ∧ ends (.expand e) .expand ∧ ends (.link e) .link ∧
    ends (.kn4 e) .kn4 ∧ ends (.tableLoad e) .tableLoad ∧ ends (.tensor e) .tensor ∧ ends (.toQueue e) .toQueue ∧
    ends (.fromQueue e) .fromQueue ∧ ends (.expand e) .toQueueExpand ∧ ends (.toQueue e) .toQueueExpand ∧
    ends (.kn4 e) .toQueueKn4 ∧ ends (.toQueue e) .toQueueKn4) ∧
    (∀ (i : Nat) (b : CBlock), (s.engine e).cblocks.findIdx? (fun b => decide (b.bytes.length ≥ b.total)) = some i →
      (s.engine e).cblocks[i]? = some b →
      (blockHead b.bytes).needs.any (fun n => (mget {} (s.engine e).slots n).loading) = false →
      ∃ n, exec (.cblockExpand e) s = .next n ∧ (n.engine e).cblocks = (s.engine e).cblocks.eraseIdx i)

/-! ## Partitions (R371 to R376) -/

/-- A partition's life (R371, R372, R374 to R376): PCTL enables it for GROUPS that exist and are free, and else sets CFG_ERR;
a disable, a reset and an FLR drain it, clean it and leave it DISABLED or ENABLED; an FLR of the PF clears VF Enable. -/
def Obligations.PartitionLife : Prop :=
  ∀ (s : State) (p : Nat) (value : Word) (d : Disable),
    (s.takes .pf (partBase p + Off.pctl) = true → (s.part p).state = .disabled → value.getLsbD 31 = true →
      s.stopped = false → ∃ n, exec (.pctlEnable .pf p value) s = .next n ∧ n.groupMask p = value.toNat % 4096 ∧
        (s.groupsOk p (value.toNat % 4096) = true → s.groupsExist (value.toNat % 4096) = true →
          (n.part p).state = .enabled) ∧
        (s.groupsOk p (value.toNat % 4096) = false ∨ s.groupsExist (value.toNat % 4096) = false →
          (n.part p).state = .disabled ∧ n.regBit (partBase p + Off.pstat) 28 = true)) ∧
    (s.takes .pf (partBase p + Off.pctl) = true → (s.part p).state = .enabled → s.stopped = false →
      (value.getLsbD 31 = false → ∃ n, exec (.pctlDisable .pf p value) s = .next n ∧ (n.part p).state = .draining ∧
        ∃ x, (n.part p).disable = some x ∧ x.toEnabled = false ∧ x.status = .aborted ∧ x.flr = false) ∧
      (value.getLsbD 31 = true → value.getLsbD 30 = true →
        ∃ n, exec (.reset .pf p value) s = .next n ∧ (n.part p).state = .draining ∧
          ∃ x, (n.part p).disable = some x ∧ x.toEnabled = true ∧ x.status = .aborted)) ∧
    (s.portUp = true → s.stopped = false → ∀ how,
      (s.port.vfEnable = true → p < s.units → (s.part p).state = .enabled →
        ∃ n, exec (.flr (.vf (p + 1)) how) s = .next n ∧ (n.part p).state = .draining ∧
          ∃ x, (n.part p).disable = some x ∧ x.toEnabled = true ∧ x.status = .flrCancelled ∧ x.flr = true) ∧
      (s.pfFlr = false → ∃ n, exec (.flr .pf how) s = .next n ∧ n.port.vfEnable = false)) ∧
    (s.runs = true → (s.part p).disable = some d →
      ((s.part p).state = .draining → s.landing.fclk.toNat ≥ d.start + d.window →
        ∃ n, exec (.disableDrainEnd p) s = .next n ∧ (n.part p).state = if d.flr then .flr else .cleaning) ∧
      ((s.part p).state = .flr → ∃ n, exec (.flrFlushReadDone p) s = .next n ∧ (n.part p).state = .cleaning) ∧
      ((s.part p).state = .cleaning → s.towersQuiet p = true →
        (∀ x ∈ s.partChannels p, (s.chan x.1 x.2).free = true) →
        ∃ n, exec (.cleaningDone p) s = .next n ∧ (n.part p).disable = none ∧
          (n.part p).state = if d.toEnabled then .enabled else .disabled))

/-! ## Links (R380 to R391) -/

/-- Training (R387 to R389, Table 11-13): each phase that succeeds leads to the next, LANE_MAP in a retrain back to ACTIVE and
without an id nowhere, and one that times out to DETECT; a partner's TRAIN is kept, a failed lane and RETRAIN train again, a
retrain that has lasted 100 ms starts from DETECT, and ENABLE starts training. -/
def Obligations.LinksTrain : Prop :=
  ∀ (s : State) (l lane : Nat) (lanes : BitVec 9) (info : TrainInfo) (x4 : Bool) (cr : List Nat) (wl : Nat × Nat), s.runs = true →
    (s.linkPhase l = 1 → 4 ≤ laneCount (lanes.toNat &&& s.laneMask) →
      ∃ n, exec (.detectDone l lanes) s = .next n ∧ n.linkPhase l = 2 ∧ (n.link l).ownGood = lanes) ∧
    (s.linkPhase l = 2 → ∃ n, exec (.equaliseDone l) s = .next n ∧ n.linkPhase l = 3) ∧
    (s.linkPhase l = 3 → (s.ownId = 0x1FFF ∨ s.regField (linkBase l + Off.volLstat) 3 13 = s.ownId) →
      ∃ n, exec (.laneMapDone l lanes) s = .next n ∧ n.linkPhase l = 3) ∧
    (s.linkPhase l = 3 → s.ownId ≠ 0x1FFF → s.regField (linkBase l + Off.volLstat) 3 13 ≠ s.ownId →
      s.chooseLanes l (lanes.toNat &&& (s.link l).partnerGood.toNat &&& s.laneMask &&&
        (0x1FF - s.regField (linkBase l + Off.volLaneFail) 0 9)) = some wl →
      ∃ n, exec (.laneMapDone l lanes) s = .next n ∧ ((s.link l).retraining = false → n.linkPhase l = 4) ∧
        ((s.link l).retraining = true → n.linkPhase l = 5 ∧ (n.link l).retraining = false)) ∧
    (s.linkPhase l = 4 → (s.link l).partnerCredits = some cr →
      ∃ n, exec (.creditInitDone l) s = .next n ∧ n.linkPhase l = 5 ∧ (n.link l).expect = 0) ∧
    ((s.linkPhase l = 1 ∨ s.linkPhase l = 2 ∨ s.linkPhase l = 4) →
      ∃ n, exec (.trainTimeout l) s = .next n ∧ n.linkPhase l = 1) ∧
    ((s.linkPhase l = 3 ∨ s.linkPhase l = 4) →
      ∃ n, exec (.train l info) s = .next n ∧ n.regField (linkBase l + Off.volLstat) 3 13 = info.deviceId.toNat ∧
        (info.phase.toNat < 4 → (n.link l).partnerGood = info.goodLanes) ∧
        (4 ≤ info.phase.toNat → (n.link l).partnerCredits = some (info.credits.take 4))) ∧
    (s.linkPhase l = 5 → lane < 9 → nbit (s.regField (linkBase l + Off.volLstat) 16 9) lane = true →
      ∃ n, exec (.laneFail l lane) s = .next n ∧ n.linkPhase l = 2 ∧ (n.link l).retraining = true ∧
        n.regBit (linkBase l + Off.volLaneFail) lane = true) ∧
    (s.takes .pf (linkBase l + Off.volLctl) = true → s.linkPhase l = 5 →
      ∃ n, exec (.retrain .pf l) s = .next n ∧ n.linkPhase l = 2 ∧ (n.link l).retraining = true ∧
        (n.link l).replay = (s.link l).replay ∧ (n.link l).expect = (s.link l).expect) ∧
    ((s.link l).retraining = true → (s.link l).retrainStart + retrainLimit ≤ s.landing.fclk.toNat →
      ∃ n, exec (.retrainFail l) s = .next n ∧ n.linkPhase l = 1) ∧
    (s.takes .pf (linkBase l + Off.volLctl) = true → s.linkPhase l = 0 →
      ∃ n, exec (.volLctlEnable .pf l true x4) s = .next n ∧ n.linkPhase l = 1)

/-- Flits and counts of a link (R382, R385, R386, R391): a good flit with the expected SEQ is accepted, one out of sequence or with a
bad CRC (as log 32 reads it) is discarded, an ACK report and a replay send flits, CLR_COUNTS zeroes the counts, and VOL_ID is kept
while no link is past DETECT. -/
def Obligations.LinksCarryFlits : Prop :=
  ∀ (s : State) (l : Nat) (f : Flit) (id : BitVec 13), s.runs = true →
    (s.linkPhase l = 5 → f.ftype = 0 → crcGood f = true → f.nak = false →
      exec (.idle l f) s = .next ((s.modLink l fun k => k.takeControl f).pumpLink l)) ∧
    (s.linkPhase l = 5 → f.ftype = 1 → crcGood f = true → f.nak = false →
      ∃ n, exec (.data l f) s = .next n ∧
        (f.seq.toNat = (s.link l).expect →
          (n.link l).expect = ((s.link l).expect + 1) % 4096 ∧ (n.link l).nakSent = false) ∧
        (f.seq.toNat ≠ (s.link l).expect → (n.link l).expect = (s.link l).expect ∧ (n.link l).nakSent = true)) ∧
    (s.linkPhase l = 5 → f.ftype = 1 → crcGood f = false →
      ∃ n, exec (.data l f) s = .next n ∧ (n.link l).expect = (s.link l).expect ∧ (n.link l).nakSent = true) ∧
    (s.linkPhase l = 5 → ∃ n, exec (.ackReport l) s = .next n ∧
      (n.link l).sent.length = (s.link l).sent.length + 1 ∧ (n.link l).replay = (s.link l).replay) ∧
    (s.linkPhase l = 5 → (s.link l).replay ≠ [] → ∃ n, exec (.replayTimeout l) s = .next n ∧
      (n.link l).sent.length = (s.link l).sent.length + (s.link l).replay.length ∧ (n.link l).replay = (s.link l).replay) ∧
    (s.takes .pf (linkBase l + Off.volLctl) = true →
      ∃ n, exec (.volLctlClrCounts .pf l) s = .next n ∧ n.reg (linkBase l + Off.volCrcCount) = 0 ∧
        n.reg (linkBase l + Off.volReplayCount) = 0 ∧ n.reg (linkBase l + Off.volRetrainCount) = 0 ∧ n.links = s.links) ∧
    (s.takes .pf (routerBase + Off.volId) = true → (∀ k, k < 8 → s.linkPhase k ≤ 1) →
      ∃ n, exec (.volIdWrite .pf id) s = .next n ∧ n.reg (routerBase + Off.volId) = id.toNat)

/-- Requests and answers at their destination (R362, R383, R384, R386): a request in a link's buffer leaves it and is performed: a
WRITE raises its counter, a READ and an ATOMIC answer with the value, a coded block's first flit begins it at the link expander and
its others join it, and a refused one answers without an access; an answer reaches the core that holds its TAG. -/
def Obligations.LinkRequestsPerform : Prop :=
  ∀ (s : State) (l : Nat) (f : Flit) (held : Bool) (v core : Nat), s.runs = true → headOf f (s.link l).inbox = some held →
    let t := s.modLink l fun k => { k with
      inbox := dropFlit f k.inbox, giveBack := if held then k.giveBack.modify f.vc.toNat (· + 1) else k.giveBack }
    let p := f.dstPart.toNat
    let a := t.inboundAddr f
    let bytes := f.payload.take f.len.toNat
    (f.op.toNat = opWrite → t.refuses f = false → lenOk f = true → f.cntEn = true →
      let w := t.writeRun (.link l) p a bytes (flitPoison f) false
      w.2 = true → ∃ n, exec (.write l f) s = .next n ∧
        n.counter p f.counter.toNat = w.1.counter p f.counter.toNat + BitVec.ofNat 64 f.len.toNat) ∧
    (f.op.toNat = opCblock → t.refuses f = false → lenOk f = true →
      (f.first = true → 16 ≤ bytes.length →
        let ulen := leNum ((bytes.drop 12).take 4) % 2 ^ 13
        f.addr.toNat + ulen ≤ 2 ^ 32 → t.reachable p a (max ulen 1) true = true →
        ∃ n, exec (.cblock l f) s = .next n ∧ n.towers = s.towers ∧
          (n.engine (t.linkx p)).cblocks.length = (s.engine (t.linkx p)).cblocks.length + 1) ∧
      (f.first = false →
        ∃ n, exec (.cblock l f) s = .next n ∧ n.towers = s.towers ∧ n.parts = s.parts ∧
          (n.engine (t.linkx p)).cblocks.length = (s.engine (t.linkx p)).cblocks.length)) ∧
    (f.op.toNat = opRead → t.refuses f = true →
      ∃ n, exec (.read l f) s = .next n ∧ n.towers = s.towers ∧ n.scratch = s.scratch ∧ n.cupolas = s.cupolas) ∧
    (f.op.toNat = opRead → t.refuses f = false → lenOk f = true →
      let r := t.readRun (.link l) p a f.len.toNat
      r.2.refused = false → r.2.found = false → r.2.poison = [] →
      exec (.read l f) s = .next (r.1.sendFlit none l (r.1.respFlit f (r.2.data.num 0 f.len.toNat) .ok))) ∧
    (f.op.toNat = opAtomic → t.refuses f = false → lenOk f = true → f.aop.toNat ≤ 4 →
      let q := t.atomicAt (.link l) p a
        { size := f.len.toNat, aop := f.aop.toNat, value := leNum (f.payload.take f.len.toNat),
          new := leNum ((f.payload.drop f.len.toNat).take f.len.toNat) }
      let w := if f.ackReq then q.1.sendFlit none l (q.1.answer f opWack 0 []) else q.1
      q.2 = .ok v → exec (.atomic l f) s = .next (w.sendFlit none l (w.respFlit f v .ok))) ∧
    (f.tag.toNat < 0x800 → t.tags.find? (fun e => decide (e.1 = f.tag.toNat)) = some (f.tag.toNat, core) →
      let answered (i : Instr) (st : Status) : Prop := ∃ n, exec i s = .next n ∧
        (n.core core).inflight = answerCore f.tag.toNat ⟨f.op.toNat, leNum (f.payload.take 8), st⟩ (s.core core).inflight ∧
        (f.op.toNat ≠ opWack ∨ (fstAddr f.tag.toNat (s.core core).inflight).isSome = true →
          mget 0xFFFF n.tags f.tag.toNat = 0xFFFF)
      (f.op.toNat = opResp → answered (.resp l f) (statusOf ((f.payload.getD 8 0).toNat))) ∧
      (f.op.toNat = opWack → answered (.wack l f) .ok) ∧
      (f.op.toNat = opErr → answered (.err l f) (statusOf ((f.payload.getD 8 0).toNat))))

/-! ## The module and start-up (R393 to R398, R449 to R459) -/

/-- Power at the connector (R393, R449 to R457): the rails rise when the bulk is charged and PWR_EN is asserted, MODULE_PG
follows and counts a boot, READY is set once, and PWR_EN falling, even while the rails rise, an input outside its limits, a
comparator or a regulator turns the module off, keeping its flash, OTP and journal; PWR_EN is then ignored until
PWR_EN_IGNORE_END, and after an overvoltage until it has fallen. -/
def Obligations.ModulePower : Prop :=
  ∀ (s : State) (volts page site celsius : Nat) (failures : List BootFailure),
    let off (n : State) : Prop := n.mod.modPg = false ∧ n.mod.rising = false ∧ n.mod.ignore = true ∧ n.cores = [] ∧
      n.towers = [] ∧ n.regs = [] ∧ n.otp = s.otp ∧ n.flash = s.flash ∧ n.journal = s.journal
    (s.mod.bulk = true → s.mod.ignore = false → s.mod.needFall = false → s.mod.modPg = false →
      ∃ n, exec .pwrEnAssert s = .next n ∧ n.mod.pwrEn = true ∧ n.mod.rising = true) ∧
    (s.mod.pwrEn = true → s.mod.ignore = false → s.mod.needFall = false → s.mod.modPg = false →
      ∃ n, exec .bulkCharged s = .next n ∧ n.mod.bulk = true ∧ n.mod.rising = true) ∧
    (∃ n, exec .pwrEnIgnoreEnd s = .next n ∧ n.mod.ignore = false ∧
      (s.mod.pwrEn = true → s.mod.bulk = true → s.mod.needFall = false → s.mod.modPg = false → n.mod.rising = true) ∧
      (s.mod.needFall = true → n.mod.rising = s.mod.rising)) ∧
    (∃ n, exec .pwrEnAssert s = .next n ∧ (s.mod.ignore = true ∨ s.mod.needFall = true → n.mod.rising = s.mod.rising)) ∧
    (∃ n, exec .bulkCharged s = .next n ∧ (s.mod.ignore = true ∨ s.mod.needFall = true → n.mod.rising = s.mod.rising)) ∧
    (∃ n, exec .pwrEnDeassert s = .next n ∧ n.mod.pwrEn = false ∧ n.mod.needFall = false ∧ (s.mod.rising = true → off n)) ∧
    (s.mod.rising = true → s.mod.modPg = false →
      ∃ n, exec (.powerGood failures) s = .next n ∧ n.mod.modPg = true ∧ n.mod.rising = false ∧ n.boots = s.boots + 1) ∧
    (s.runs = true → s.ready = false → s.aldeah.up = true →
      ∃ n, exec .ready s = .next n ∧ n.ready = true ∧ n.regField Off.gstat 20 4 = 10) ∧
    (s.mod.modPg = true →
      (∃ n, exec .pwrEnDeassert s = .next n ∧ off n ∧ n.mod.thermAlert = false ∧ n.mod.pwrEn = false) ∧
      (64 < volts → ∃ n, exec (.vinOvervoltage volts) s = .next n ∧ off n ∧ n.mod.bulk = false ∧ n.mod.needFall = s.mod.pwrEn) ∧
      (volts < 26 → ∃ n, exec (.holdUpLoss volts) s = .next n ∧ off n ∧ n.mod.bulk = false) ∧
      (125 ≤ celsius → site < 48 → ∃ n, exec (.junctionOvertemp site celsius) s = .next n ∧ off n ∧ n.mod.thermAlert = true) ∧
      (∃ n, exec (.regulatorFault page) s = .next n ∧ off n ∧ n.mod.faults = s.mod.faults ++ [page]))

/-- The port, alerts and failures of supply and clock (R368, R398, R430, R452, R454, R458): PERST# takes the port down and its
release trains it (the model's choice, log 26), a change of width and rate is kept, one by L0p alone keeps the width trained,
SMB_ALERT# is released, and a failing input or reference clock stops every clock but MCLK. -/
def Obligations.PortAndAlerts : Prop :=
  ∀ (s : State) (mv width rate : Nat),
    (s.mod.perst = false → ∃ n, exec .perstAssert s = .next n ∧ n.mod.perst = true ∧ n.portUp = false) ∧
    (s.mod.modPg = true → s.aldeah.up = true →
      ∃ n, exec .perstRelease s = .next n ∧ n.mod.perst = false ∧ n.port.width = 16 ∧ n.port.rate = s.maxRate) ∧
    (s.mod.modPg = true → s.mod.perst = false → s.aldeah.up = true →
      (width ∈ [0, 1, 2, 4, 8, 16] → rate ∈ [2, 5, 8, 16, 32, 64] → rate ≤ s.maxRate →
        ∃ n, exec (.pcieLinkChange width rate false) s = .next n ∧ n.port.width = width ∧ n.port.trained = width ∧
          n.port.rate = (if width = 0 then 0 else rate) ∧ n.cores = s.cores ∧ n.regs = s.regs) ∧
      (s.port.width ≠ 0 → width ∈ [2, 4, 8] → width ≤ s.port.trained →
        ∃ n, exec (.pcieLinkChange width rate true) s = .next n ∧ n.port.width = width ∧ n.port.trained = s.port.trained ∧
          n.port.rate = s.port.rate ∧ n.cores = s.cores ∧ n.regs = s.regs)) ∧
    (s.mod.modPg = true →
      (∃ n, exec .alertResponse s = .next n ∧ n.mod.smbAlert = false) ∧
      (∃ n, exec .refclkLoss s = .next n ∧ n.stopped = true) ∧
      (26000 ≤ mv → mv < 40000 → ∃ n, exec (.supplyFail mv) s = .next n ∧ n.stopped = true ∧ n.mod.modPg = true))

/-! ## Aldeah (R399 to R418) -/

/-- Requests (R400, R404, R407, R409, R410, R416, R417, R442, Table 12-11): the doorbell hands a request to Aldeah; every command of the
table does what it names and prepares its response, which then leaves for MBX_RSP with DONE; management messages, SPDM and PLDM are
answered on their path (the payloads of PLDM and SPDM by log 75). -/
def Obligations.ManagementRequests : Prop :=
  ∀ (s : State) (length : BitVec 13) (q : MgmtRequest) (path : MgmtPath) (message : List Byte) (spdm : SpdmRequest),
    (s.takes .pf (mboxBase + Off.mbxDoorbell) = true → s.aldeah.up = true → s.regBit (mboxBase + Off.mbxStat) 31 = false →
      16 ≤ length.toNat → length.toNat ≤ 4096 → s.aldeah.req = none →
      ∃ n, exec (.mbxDoorbell .pf length) s = .next n ∧ n.regBit (mboxBase + Off.mbxStat) 31 = true ∧
        n.aldeah.rsp = none ∧ ∃ x, n.aldeah.req = some x ∧ x.bytes = s.mailboxBytes length.toNat ∧ x.path = none) ∧
    (s.aldeah.up = true → s.mod.modPg = true → 16 ≤ message.length → message.length ≤ 4096 → s.aldeah.req = none →
      ∃ n, exec (.mctpRequest .outOfBand message) s = .next n ∧ ∃ x, n.aldeah.req = some x ∧ x.bytes = message) ∧
    (s.aldeah.up = true → s.pathOpen path = true →
      ∃ n, exec (.spdmRequest path spdm) s = .next n ∧ ∃ a, n.aldeah.sent = s.aldeah.sent ++ [(path, a)]) ∧
    (s.aldeah.up = true → s.pathOpen path = true → s.aldeah.recovery = false → s.aldeah.update = none →
      ∃ n, exec (.pldmFirmwareUpdate path (.begin false)) s = .next n ∧ n.aldeah.update = some true ∧
        n.aldeah.sent = s.aldeah.sent ++ [(path, [0])]) ∧
    (s.aldeah.up = true → s.aldeah.req = some q → q.path = none → q.dropped = false → ∀ rsp, s.aldeah.rsp = some rsp →
      s.aldeah.queue = [] →
      ∃ n, exec .mbxResponse s = .next n ∧ n.aldeah.req = none ∧ n.aldeah.rsp = none ∧
        n.regBit (mboxBase + Off.mbxStat) 30 = true ∧ n.regBit (mboxBase + Off.mbxStat) 31 = false) ∧
    (s.aldeah.up = true → s.aldeah.req = some q → s.aldeah.rsp = none → s.ready = true →
      leNum ((q.bytes.drop 8).take 8) = 0 →
      let b := q.bytes.drop 16
      let answers (i : Instr) (code : Nat) (st : Status) (payload : List Byte) (P : State → Prop) : Prop :=
        requestCode q = code → ∃ n, exec i s = .next n ∧ n.aldeah.rsp = some (responseBytes q.bytes st payload) ∧ P n
      answers .getInfo 1 .ok s.infoBytes (fun n => n = { s with aldeah := n.aldeah }) ∧
      answers .readSensors 2 .ok s.sensorBytes (fun n => n = { s with aldeah := n.aldeah }) ∧
      (12 ≤ b.length → 1 ≤ argWord b 2 → argWord b 2 ≤ 63 →
        answers .readLog 3 .ok ((s.heldLog.filter fun e =>
          decide (leNum (b.take 8) ≤ e.seq) && decide (e.seq < leNum (b.take 8) + argWord b 2)).flatMap entryBytes)
          (fun n => n = { s with aldeah := n.aldeah })) ∧
      answers .writeSettings 0x10 (if settingsValid b then .ok else .descInvalid) []
        (fun n => settingsValid b = false → n.flash = s.flash) ∧
      (b.length = 8 → argWord b 0 < 4 → ∀ k, s.unusedRecord (argWord b 0) = some k →
        answers .otpWrite 0x11 (if s.settingAllowed (argWord b 0) (argWord b 1) then .ok else .refused) []
          (fun n => n.otp = if s.settingAllowed (argWord b 0) (argWord b 1)
            then s.otp.setNum (0x400 + 40 * argWord b 0 + 8 * k) 8 (otpRecordOf (argWord b 1)) else s.otp)) ∧
      (argWord b 0 = 0 → 8 < b.length → argWord b 1 + (b.length - 8) ≤ slotSize false → s.aldeah.update ≠ some true →
        answers .fwStage 0x20 .ok [] (fun n => n.aldeah.update = some false)) ∧
      (16 ≤ b.length → argWord b 0 < s.units → argWord b 1 < 16 → argWord b 2 < 64 → argWord b 3 < 64 →
        answers .repairPersist 0x40 (if s.journal.length < 16383 then .ok else .refused) []
          (fun n => n.journal.length = if s.journal.length < 16383 then s.journal.length + 1 else s.journal.length)) ∧
      (requestCode q = 0x50 → ∃ n, exec .debugChallenge s = .next n ∧ ∃ x, n.aldeah.nonce = some x ∧ x.length = 32 ∧
        n.aldeah.rsp = some (responseBytes q.bytes .ok x)) ∧
      answers .debugUnlock 0x51 (if s.unlocks (Memory.ofBytes 0 b) then .ok else .refused) []
        (fun n => n.aldeah.nonce = none ∧ n.regBit Off.gstat 25 = (s.unlocks (Memory.ofBytes 0 b) || s.regBit Off.gstat 25)))

/-- Firmware, microcode and the log (R409, R413, R414, R417): FW_ACTIVATE hands over to the staged image, and of a slot that does not
verify ends CHECK_FAIL, UCODE_APPLY holds its partition until its idle point or its time is over, DEBUG_LOCK locks, samples are kept,
and the log reaches both flash areas. -/
def Obligations.FirmwareAndLog : Prop :=
  ∀ (s : State) (q : MgmtRequest) (p : Nat) (values : List (Nat × BitVec 32)) (u : UcodeApply), s.aldeah.up = true →
    (s.aldeah.req = some q → s.aldeah.rsp = none → s.ready = true → leNum ((q.bytes.drop 8).take 8) = 0 →
      (requestCode q = 0x21 → 20 ≤ q.bytes.length → argWord (q.bytes.drop 16) 0 = 0 → s.aldeah.update ≠ some true →
        ∃ n, exec .fwActivate s = .next n ∧ n.flash = s.flash ∧
          (s.slotVerifies false (!s.directory.active) = true → n.aldeah.handover = true ∧ n.aldeah.up = false ∧
            n.aldeah.slotB = !s.directory.active) ∧
          (s.slotVerifies false (!s.directory.active) = false →
            n.aldeah.rsp = some (responseBytes q.bytes .checkFail []) ∧ n.aldeah.up = true)) ∧
      (requestCode q = 0x31 → 24 ≤ q.bytes.length → argWord (q.bytes.drop 16) 0 < s.units →
        1 ≤ argWord (q.bytes.drop 16) 1 → argWord (q.bytes.drop 16) 1 ≤ 1000 → s.aldeah.ucode = none →
        (s.part (argWord (q.bytes.drop 16) 0)).state = .enabled →
        ∃ n, exec .ucodeApply s = .next n ∧ (n.part (argWord (q.bytes.drop 16) 0)).ucodeHold = true ∧
          n.aldeah.ucode.isSome = true)) ∧
    (s.aldeah.handover = true → s.mod.modPg = true →
      ∃ n, exec .fwActivateFallback s = .next n ∧ n.aldeah.handover = false ∧ n.aldeah.slotB = s.directory.active ∧
        n.flash = s.flash) ∧
    (s.aldeah.ucode = some u → u.part = p →
      (s.ucodeLate u = false → s.idlePoint p = true → s.runs = true →
        ∃ n, exec (.ucodeIdlePoint p) s = .next n ∧ n.aldeah.ucode = none ∧ (n.part p).ucodeHold = false) ∧
      (s.ucodeLate u = true →
        ∃ n, exec (.ucodeTimeout p) s = .next n ∧ n.aldeah.ucode = none ∧ (n.part p).ucodeHold = false)) ∧
    (s.takes .pf Off.gctl = true →
      (s.regBit Off.gstat 25 = true → ∃ n, exec (.debugLock .pf) s = .next n ∧ n.regBit Off.gstat 25 = false) ∧
      exec (.logSync .pf) s = .next s.copyLog) ∧
    exec .logFlashCopy s = .next s.copyLog ∧
    (∀ e ∈ s.aldeah.log, e.seq > (s.aldeah.area0.getLast?.map (·.seq)).getD 0 → s.aldeah.log.length ≤ 4096 →
      s.aldeah.area0 ≠ [] → e ∈ s.copyLog.aldeah.area0) ∧
    (∃ n, exec (.sensorSample values) s = .next n ∧ n.aldeah.log = s.aldeah.log ∧
      ∀ id, (∀ x ∈ values, x.1 ≠ id) → mget 0 n.aldeah.sensors id = mget 0 s.aldeah.sensors id)

/-- Aldeah restarts (R406, R407): a reset takes Aldeah down with both ALDEAH_DOWN bits set, dropping the request in progress and
leaving every core, tower, partition, engine and link and the governor as they are; while it is down doorbells are ignored with
DOORBELL_ERR, messages get no answer, telemetry pauses and records wait in a queue of 256; up again, with both bits clear, it has
logged how many were lost. -/
def Obligations.AldeahRestarts : Prop :=
  ∀ (s : State),
    (s.aldeah.up = true → s.aldeah.ucode = none →
      (∀ cause, ∃ n, exec (.aldeahReset cause) s = .next n ∧ n.aldeah.up = false ∧ n.aldeah.req = none ∧
        n.cores = s.cores ∧ n.towers = s.towers ∧ n.parts = s.parts ∧ n.engines = s.engines ∧ n.links = s.links ∧
        n.groups = s.groups ∧ n.gov = s.gov ∧
        n.regBit Off.gstat 24 = true ∧ n.regBit (mboxBase + Off.mbxStat) 28 = true) ∧
      (∃ n, exec .aldeahWatchdog s = .next n ∧ n.aldeah.up = false ∧ n.cores = s.cores ∧ n.towers = s.towers ∧
        n.parts = s.parts)) ∧
    (s.aldeah.up = false →
      (∀ length, s.takes .pf (mboxBase + Off.mbxDoorbell) = true →
        exec (.mbxDoorbell .pf length) s = .next (s.setRegBit (mboxBase + Off.mbxStat) 29 true)) ∧
      (∀ path message, exec (.mctpRequest path message) s = .next s) ∧
      (∀ values, exec (.sensorSample values) s = .next s) ∧
      (∀ r rest, s.landing.records = r :: rest →
        ∃ n, exec .errorRecordLeave s = .next n ∧ n.landing.waiting = s.landing.waiting ++ [r])) ∧
    (∀ e, foldRecord e s.landing.records = none → 256 ≤ s.landing.records.length + s.landing.waiting.length →
      s.logError e = { s with landing := { s.landing with recordsLost := s.landing.recordsLost + 1 } }) ∧
    (s.aldeah.up = false → s.mod.modPg = true → s.regBit Off.gstat 24 = true →
      ∃ n, exec .aldeahRestartDone s = .next n ∧ n.aldeah.up = true ∧ n.regBit Off.gstat 24 = false ∧
        n.regBit (mboxBase + Off.mbxStat) 28 = false ∧ n.landing.waiting = [] ∧ n.landing.recordsLost = 0 ∧
        (s.landing.recordsLost ≠ 0 → (n.aldeah.log.getLast?.map (·.body)) = some (logBody [s.landing.recordsLost])))

/-! ## Reliability (R420 to R448) -/

/-- Error records (R425, R426, R430): the first record leaves the queue for the ring where it is enabled and not full, a FATAL
one stops the clocks, and ERR_STAT clears what is written with 1. -/
def Obligations.ErrorRecordsLeave : Prop :=
  ∀ (s : State) (r : ErrRec) (rest : List ErrRec) (value : Word),
    (s.landing.records = r :: rest →
      ∃ n, exec .errorRecordLeave s = .next n ∧ (r.cls ≠ .fatal → n.landing.records = rest) ∧
        (r.cls = .fatal → n.stopped = true) ∧
        (s.regBit (errBase + Off.errCtl) 0 = true → s.reg (errBase + Off.errRingPidx) = s.reg (errBase + Off.errRingCidx) →
          n.reg (errBase + Off.errRingPidx) = (s.reg (errBase + Off.errRingPidx) + 1) % 2 ^ 32)) ∧
    (s.takes .pf (errBase + Off.errStat) = true →
      ∃ n, exec (.errStatWrite .pf value) s = .next n ∧
        (value.getLsbD 31 = true → n.regBit (errBase + Off.errStat) 31 = false ∧ n.regField (errBase + Off.errStat) 0 16 = 0) ∧
        (value.getLsbD 30 = true → n.regBit (errBase + Off.errStat) 30 = false) ∧
        (value.getLsbD 31 = false → value.getLsbD 30 = false → n = s))

/-- Tests of cores and groups, evacuations and folds (R432 to R435, R438, R443): a core to be tested, on GO or after a
CORE_UE, is drained and then back, replaced or retired, a group under test comes to rest at G4, an evacuation begins, with the
commands that work DEGRADED, and ends with the floor on the spare, and a failing channel is folded. -/
def Obligations.RepairsComplete : Prop :=
  ∀ (s : State) (replace : Bool) (core : BitVec 9) (group : BitVec 4) (k t c : Nat) (floor : BitVec 4) (f : Nat),
    (s.takes .pf (errBase + Off.errCoreTest) = true → s.regBit (errBase + Off.errCoreStat) 31 = false →
      s.coreExists core.toNat = true → (s.core core.toNat).retired = false → s.stopped = false →
      ∃ n, exec (.errCoreTest (.go .pf replace) core) s = .next n ∧ (n.core core.toNat).testing = some replace ∧
        (n.core core.toNat).drained = false ∧ n.regBit (errBase + Off.errCoreStat) 31 = true) ∧
    (s.runs = true → s.coreExists core.toNat = true → (s.core core.toNat).retired = false →
      s.serving (Config.groupOfCore core.toNat) = true → (s.core core.toNat).testing = none →
      ∀ array, ∃ n, exec (.errCoreTest (.coreUe array) core) s = .next n ∧ (n.core core.toNat).testing = some false ∧
        (n.core core.toNat).drained = false ∧ n.regBit (errBase + Off.errCoreStat) 31 = true) ∧
    (s.runs = true → (s.core k).testing.isSome = true → (s.core k).task = none →
      ∃ n, exec (.coreDrained k) s = .next n ∧ (n.core k).drained = true) ∧
    (s.runs = true → (s.core k).testing = some false → (s.core k).drained = true → s.otherTests k = false →
      ∃ n, exec (.coreBistDone k true) s = .next n ∧ (n.core k).testing = none ∧
        (n.core k).phys = some (s.physCore k) ∧ (n.core k).cycles = (s.core k).cycles ∧
        n.regBit (errBase + Off.errCoreStat) 31 = false ∧ n.regBit (errBase + Off.errCoreStat) 30 = true) ∧
    (s.runs = true → (s.core k).testing = some true → (s.core k).drained = true → s.sparesLeft (s.spireOf k) = 0 →
      ∃ n, exec (.coreBistDone k false) s = .next n ∧ (n.core k).retired = true ∧ (n.core k).phys = none) ∧
    (s.takes .pf (errBase + Off.errGroupTest) = true → s.regBit (errBase + Off.errGroupStat) 31 = false →
      group.toNat < s.units → s.owner group.toNat = 15 → (s.group group.toNat).outOfService = false → s.stopped = false →
      ∃ n, exec (.errGroupTest .pf group) s = .next n ∧ (n.group group.toNat).testing = true) ∧
    (s.runs = true → (s.group k).testing = true →
      ∃ n, exec (.groupTestDone k none) s = .next n ∧ (n.group k).testing = false ∧ (n.group k).pstate = .g4 ∧
        (n.tower k).ram = {}) ∧
    (s.takes .pf (towerBase t + Off.twrEvac) = true → s.canEvacuate t = true →
      ∃ n, exec (.twrEvac .pf t floor) s = .next n ∧ (n.tower t).evac = some floor.toNat ∧
        ∀ r ∈ (n.tower t).running, r.working = true → r.degraded = true) ∧
    (s.runs = true → (s.tower t).evac = some f →
      ∃ n, exec (.evacuationDone t) s = .next n ∧ (n.tower t).evac = none ∧ (n.tower t).spareFor = some f) ∧
    (s.runs = true → t < s.units → c < 32 → nbit (s.tower t).chanFail c = false →
      ∃ n, exec (.chanFold t c .bridge) s = .next n ∧ nbit (n.tower t).chanFail c = true ∧ (n.tower t).ram = (s.tower t).ram)

/-! ## Register writes (R7, R9) -/

/-- REGISTER_WRITE (R7, R9, R367, R417): a write of a register's own width has that register's effect, by its access codes where no
other rule shapes it; offsets that no table lists are ignored; an access that R7 leaves undefined changes at most registers whose
content reaches no other partition (the model's choice of them, log 40); a write to the configuration space sets VF Enable; and one to
the unlocked debug block, whose layout R417 leaves to another document, stops. -/
def Obligations.RegisterWrites : Prop :=
  ∀ (s : State) (fn : Fn) (offset a p o u : Nat) (b : Block) (wide : Bool) (value : DWord),
    (fnOffset fn offset = some a → a < 0x10000000 →
      (s.takes fn a = false → exec (.registerWrite fn (.bar0 offset) wide value) s = .next s) ∧
      (s.takes fn a = true → locate a = some (b, u, o) →
        (accessKind b o wide = .register → exec (.registerWrite fn (.bar0 offset) wide value) s =
          .next (s.writeRegister fn a (if wide then value.toNat else value.toNat % 2 ^ 32))) ∧
        (accessKind b o wide = .undefined → ∃ n, exec (.registerWrite fn (.bar0 offset) wide value) s = .next n ∧
          ((∀ r ∈ touched b o (if wide then 8 else 4), staysInside b u r = false) → n = s.tick)) ∧
        (accessKind b o wide = .nothing → exec (.registerWrite fn (.bar0 offset) wide value) s = .next s) ∧
        (a = partBase p + Off.pslice → p < 12 → wide = false →
          ∃ n, exec (.registerWrite fn (.bar0 offset) wide value) s = .next n ∧ n.preg p Off.pslice = value.toNat % 2 ^ 32 ∧
            ∀ x, x ≠ a → n.reg x = s.reg x))) ∧
    (s.portUp = true → s.pfFlr = false →
      ∃ n, exec (.registerWrite .pf (.config .vfEnable) wide value) s = .next n ∧ n.port.vfEnable = value.getLsbD 0 ∧
        n.regs = s.regs ∧ n.parts = s.parts) ∧
    (offset < 2 ^ 29 → 0x10000000 ≤ offset → s.answers .pf = true → s.regBit Off.gstat 25 = true →
      exec (.registerWrite .pf (.bar0 offset) wide value) s = .fault .debugBlock)

/-! ## Steps -/

/-- A step runs the command at the front of the queue on the state with the queue's rest (the model's choice, log 141). -/
def Obligations.StepRunsTheFront : Prop :=
  ∀ (s : State) (c : Instr) (rest : List Instr),
    step { s with pending := c :: rest } = exec c { s with pending := rest }

/-- Reset (the reset values of Tables 03-2, 08-5, 08-6, 10-14 and 11-4, and log 1 for the module): the module has no power and is
not ready, no command waits, every partition is DISABLED, no core holds a task, every channel is IDLE, every counter is 0, every semaphore 0x00FF0000, CTIMEOUT 2,700,000, and every register of
PF BAR0 has the value of its table. -/
def Obligations.ResetState : Prop :=
  State.reset.mod.modPg = false ∧ State.reset.ready = false ∧ State.reset.pending = [] ∧
  (∀ p, (State.reset.part p).state = .disabled) ∧ (∀ p i, State.reset.counter p i = 0) ∧
  (∀ p i, State.reset.sem p i = 0x00FF0000) ∧ (∀ c, (State.reset.core c).task = none) ∧
  (∀ c, (State.reset.core c).ctimeout = 2700000) ∧ (∀ e c, (State.reset.chan e c).state = .idle) ∧
  (∀ a, State.reset.reg a = regReset .kq12 a)

/-- The invariant holds at reset, of the part and the OTP that reset has. -/
def Obligations.ResetKeepsTheInvariant : Prop := State.reset.Inv State.reset.variant State.reset.otp

/-- Every command has a next state but a write of the PF to the unlocked debug block (R417), which stops. No command adds to or takes
from the queue of the commands that wait, none changes which part the block is, and OTP_WRITE alone programs OTP (R400, R401). -/
def Obligations.CommandsLeaveTheQueue : Prop :=
  ∀ (c : Instr) (s : State),
    let stops : Prop := s.answers .pf = true ∧ s.regBit Off.gstat 25 = true ∧
      ∃ offset wide value, c = .registerWrite .pf (.bar0 offset) wide value ∧ 0x10000000 ≤ offset ∧ offset < 2 ^ 29
    (stops → exec c s = .fault .debugBlock) ∧
    (¬stops → ∃ n, exec c s = .next n ∧ n.pending = s.pending ∧ n.variant = s.variant ∧ (c ≠ .otpWrite → n.otp = s.otp))

/-- Every step keeps the invariant: the part stays what it is, no bit of OTP that is programmed is ever erased (file 12, OTP), and the
commands that wait stay well formed. -/
def Obligations.StepsKeepTheInvariant : Prop :=
  ∀ (v : Variant) (o : Memory) (s n : State), s.Inv v o → step s = .next n → n.Inv v o
end

