-- ==== Sys2Proof/Laws/Sparse.lean ====
section
/-! SUPPORT. The laws of sparse data: a value written reads back and no other changes, and every operation keeps the
canonical form. -/

namespace Sys2Proof.Machine

set_option Elab.async false

section
variable {α : Type} {d : α}

@[simp] theorem mget_nil (k : Nat) : mget d [] k = d := rfl

/-- Looking up after an insertion of a key that is not listed. -/
theorem mget_minsert (m : List (Nat × α)) (k j : Nat) (v : α) (h : ∀ c ∈ m, c.1 ≠ k) :
    mget d (minsert k v m) j = if j = k then v else mget d m j := by
  induction m with
  | nil => simp [minsert, mget]
  | cons c r ih =>
    obtain ⟨i, w⟩ := c
    have hi : i ≠ k := h (i, w) (by simp)
    have ih := ih (fun c hc => h c (by simp [hc]))
    simp only [minsert]
    split
    · simp [mget]
    · simp only [mget, ih]
      grind

/-- Dropping one key leaves the others. -/
theorem mget_filter_ne (m : List (Nat × α)) (k j : Nat) :
    mget d (m.filter fun c => !decide (c.1 = k)) j = if j = k then d else mget d m j := by
  induction m with
  | nil => simp [mget]
  | cons c r ih => grind [mget]

/-- What is written reads back, and nothing else changes. -/
@[simp] theorem mget_mset [DecidableEq α] (m : List (Nat × α)) (k j : Nat) (v : α) :
    mget d (mset d m k v) j = if j = k then v else mget d m j := by
  unfold mset
  split
  · next h => rw [mget_filter_ne, h]
  · rw [mget_minsert _ _ _ _ (by simp), mget_filter_ne]
    split <;> rfl

/-- A write changes no other key, whatever default each key has. -/
theorem mget_mset_ne [DecidableEq α] {e : α} (m : List (Nat × α)) (k j : Nat) (v : α) (h : j ≠ k) :
    mget d (mset e m k v) j = mget d m j := by
  unfold mset
  split
  · rw [mget_filter_ne, if_neg h]
  · rw [mget_minsert _ _ _ _ (by simp), mget_filter_ne, if_neg h, if_neg h]

/-- Dropping a key that was just inserted gives what was there. -/
theorem filter_minsert (m : List (Nat × α)) (k : Nat) (v : α) (h : ∀ c ∈ m, c.1 ≠ k) :
    ((minsert k v m).filter fun c => !decide (c.1 = k)) = m := by
  induction m with
  | nil => simp [minsert]
  | cons c r ih =>
    obtain ⟨i, w⟩ := c
    have hi : i ≠ k := h (i, w) (by simp)
    have hr : ∀ c ∈ r, c.1 ≠ k := fun c hc => h c (by simp [hc])
    simp only [minsert]
    split
    · simpa [hi] using hr
    · simp [hi, ih hr]

/-- Of two writes of one key the later one counts. -/
@[simp] theorem mset_mset [DecidableEq α] (m : List (Nat × α)) (k : Nat) (v w : α) :
    mset d (mset d m k v) k w = mset d m k w := by
  have h : ((mset d m k v).filter fun c => !decide (c.1 = k)) = m.filter fun c => !decide (c.1 = k) := by
    unfold mset
    split
    · simp
    · rw [filter_minsert _ _ _ (by simp)]
  unfold mset at h ⊢
  simp only [h]

/-- After a change of every listed value each key reads as the change of what it read as. -/
theorem mget_mmapv [DecidableEq α] (f : Nat → α → α) (m : List (Nat × α)) (k : Nat) (h : f k d = d) :
    mget d (mmapv d f m) k = f k (mget d m k) := by
  induction m with
  | nil => simp [mmapv, h]
  | cons c r ih =>
    obtain ⟨i, w⟩ := c
    simp only [mmapv]
    split
    · rw [mget_filter_ne]
      simp only [mget]
      grind
    · simp only [mget]
      rw [mget_filter_ne]
      grind

/-- The keys of a cleared range read as the default, the others as before. -/
theorem mget_mclear (m : List (Nat × α)) (lo n j : Nat) :
    mget d (mclear m lo n) j = if lo ≤ j ∧ j < lo + n then d else mget d m j := by
  induction m with
  | nil => simp [mclear, mget]
  | cons c r ih =>
    unfold mclear at *
    grind [mget]

/-- The canonical form in words: no default listed, keys strictly rising. -/
theorem mwf_iff [DecidableEq α] (m : List (Nat × α)) :
    mwf d m = true ↔ (∀ c ∈ m, c.2 ≠ d) ∧ m.Pairwise fun a b => a.1 < b.1 := by
  induction m with
  | nil => simp [mwf]
  | cons c r ih =>
    obtain ⟨k, v⟩ := c
    have above : allAbove k r = true ∧ r.Pairwise (fun a b => a.1 < b.1) ↔
        (∀ c ∈ r, k < c.1) ∧ r.Pairwise fun a b => a.1 < b.1 := by
      cases r with
      | nil => simp [allAbove]
      | cons e t => simp only [allAbove, decide_eq_true_eq, List.pairwise_cons, List.mem_cons, forall_eq_or_imp]; grind
    simp only [mwf, Bool.and_eq_true, ih, Bool.not_eq_true', decide_eq_false_iff_not, List.mem_cons, forall_eq_or_imp,
      List.pairwise_cons]
    tauto

/-- Dropping pairs keeps the canonical form. -/
theorem mwf_filter [DecidableEq α] (m : List (Nat × α)) (p : Nat × α → Bool) (h : mwf d m = true) :
    mwf d (m.filter p) = true := by
  rw [mwf_iff] at *
  exact ⟨fun c hc => h.1 c (List.mem_of_mem_filter hc), h.2.filter p⟩

theorem mem_minsert (m : List (Nat × α)) (k : Nat) (v : α) (c : Nat × α) : c ∈ minsert k v m ↔ c = (k, v) ∨ c ∈ m := by
  induction m with
  | nil => simp [minsert]
  | cons e r ih => grind [minsert]

/-- An insertion of a value that is not the default, at a key that is not listed, keeps the canonical form. -/
theorem mwf_minsert [DecidableEq α] (m : List (Nat × α)) (k : Nat) (v : α) (hv : v ≠ d) (hk : ∀ c ∈ m, c.1 ≠ k)
    (h : mwf d m = true) : mwf d (minsert k v m) = true := by
  rw [mwf_iff] at *
  refine ⟨fun c hc => ?_, ?_⟩
  · rcases (mem_minsert m k v c).1 hc with rfl | hc
    · exact hv
    · exact h.1 c hc
  · replace h := h.2
    induction m with
    | nil => simp [minsert]
    | cons e r ih =>
      have ih := ih (fun c hc => hk c (by simp [hc])) (List.pairwise_cons.1 h).2
      have he := hk e (by simp)
      rw [List.pairwise_cons] at h
      simp only [minsert]
      split
      · next hlt =>
        rw [List.pairwise_cons, List.pairwise_cons]
        refine ⟨fun c hc => ?_, h⟩
        rcases List.mem_cons.1 hc with rfl | hc
        · exact hlt
        · exact lt_trans hlt (h.1 c hc)
      · rw [List.pairwise_cons]
        refine ⟨fun c hc => ?_, ih⟩
        rcases (mem_minsert r k v c).1 hc with rfl | hc
        · dsimp only; omega
        · exact h.1 c hc

/-- A write keeps the canonical form. -/
theorem mwf_mset [DecidableEq α] (m : List (Nat × α)) (k : Nat) (v : α) (h : mwf d m = true) :
    mwf d (mset d m k v) = true := by
  unfold mset
  split
  · exact mwf_filter _ _ h
  · next hv => exact mwf_minsert _ _ _ hv (by simp) (mwf_filter _ _ h)

/-- The keys of a changed map are among its keys, in their order. -/
theorem mmapv_keys [DecidableEq α] (f : Nat → α → α) (m : List (Nat × α)) :
    ((mmapv d f m).map (·.1)).Sublist (m.map (·.1)) := by
  induction m with
  | nil => simp [mmapv]
  | cons e r ih =>
    obtain ⟨k, v⟩ := e
    have hf : (((mmapv d f r).filter fun c => !decide (c.1 = k)).map (·.1)).Sublist (r.map (·.1)) :=
      (List.filter_sublist.map _).trans ih
    simp only [mmapv]
    split
    · exact hf.cons _
    · exact hf.cons_cons _

/-- A changed map lists no default. -/
theorem mmapv_vals [DecidableEq α] (f : Nat → α → α) (m : List (Nat × α)) : ∀ c ∈ mmapv d f m, c.2 ≠ d := by
  induction m with
  | nil => simp [mmapv]
  | cons e r ih => grind [mmapv]

/-- A change of every value keeps the canonical form. -/
theorem mwf_mmapv [DecidableEq α] (f : Nat → α → α) (m : List (Nat × α)) (h : mwf d m = true) : mwf d (mmapv d f m) = true := by
  rw [mwf_iff] at h ⊢
  refine ⟨mmapv_vals f m, ?_⟩
  have hp : (m.map (·.1)).Pairwise (· < ·) := List.pairwise_map.mpr h.2
  exact List.pairwise_map.mp (hp.sublist (mmapv_keys f m))

/-- Clearing a range keeps the canonical form. -/
theorem mwf_mclear [DecidableEq α] (m : List (Nat × α)) (lo n : Nat) (h : mwf d m = true) : mwf d (mclear m lo n) = true :=
  mwf_filter _ _ h

end

namespace Memory

@[simp] theorem get_nil (a : Nat) : get [] a = 0 := rfl

/-- A byte written reads back, and no other changes. -/
@[simp] theorem get_set (m : Memory) (a x : Nat) (b : Byte) : (m.set a b).get x = if x = a then b else m.get x := by
  simp [get, set]

theorem wf_set (m : Memory) (a : Nat) (b : Byte) (h : m.wf = true) : (m.set a b).wf = true := mwf_mset _ _ _ h

/-- Bytes written read back, and no other changes. -/
theorem get_setBytes (m : Memory) (a x : Nat) (l : List Byte) :
    (m.setBytes a l).get x = if a ≤ x ∧ x < a + l.length then l.getD (x - a) 0 else m.get x := by
  induction l generalizing m a with
  | nil => simp [setBytes]
  | cons b r ih =>
    simp only [setBytes, ih, get_set, List.length_cons]
    by_cases h : x = a
    · subst h; simp
    · by_cases h2 : a + 1 ≤ x ∧ x < a + 1 + r.length
      · rw [if_pos h2, if_pos (by omega), show x - a = (x - (a + 1)) + 1 by omega, List.getD_cons_succ]
      · rw [if_neg h2, if_neg h, if_neg (by omega)]

theorem wf_setBytes (m : Memory) (a : Nat) (l : List Byte) (h : m.wf = true) : (m.setBytes a l).wf = true := by
  induction l generalizing m a with
  | nil => exact h
  | cons b r ih => exact ih _ _ (wf_set _ _ _ h)

/-- A number written little-endian: its bytes, and no other changes. -/
theorem get_setNum (m : Memory) (a x n v : Nat) :
    (m.setNum a n v).get x = if a ≤ x ∧ x < a + n then BitVec.ofNat 8 (v / 256 ^ (x - a)) else m.get x := by
  induction n generalizing m a v with
  | zero => simp [setNum]
  | succ n ih =>
    simp only [setNum, ih, get_set]
    by_cases h : x = a
    · subst h; simp
    · by_cases h2 : a + 1 ≤ x ∧ x < a + 1 + n
      · rw [if_pos h2, if_pos (by omega), show x - a = (x - (a + 1)) + 1 by omega, Nat.pow_succ', Nat.div_div_eq_div_mul]
      · rw [if_neg h2, if_neg h, if_neg (by omega)]

theorem wf_setNum (m : Memory) (a n v : Nat) (h : m.wf = true) : (m.setNum a n v).wf = true := by
  induction n generalizing m a v with
  | zero => exact h
  | succ n ih => exact ih _ _ _ (wf_set _ _ _ h)

/-- Bytes zeroed read as zero, the others as before. -/
theorem get_zero (m : Memory) (a n x : Nat) : (m.zero a n).get x = if a ≤ x ∧ x < a + n then 0 else m.get x :=
  mget_mclear _ _ _ _

theorem wf_zero (m : Memory) (a n : Nat) (h : m.wf = true) : (m.zero a n).wf = true := mwf_mclear _ _ _ h

/-- A slice reads as the memory from its start on. -/
theorem get_slice (m : Memory) (a n x : Nat) : (m.slice a n).get x = if x < n then m.get (a + x) else 0 := by
  unfold slice
  induction m with
  | nil => simp [get]
  | cons c r ih =>
    simp only [get, List.filter_cons] at *
    grind [mget]

theorem wf_slice (m : Memory) (a n : Nat) (h : m.wf = true) : (m.slice a n).wf = true := by
  unfold wf slice at *
  rw [mwf_iff] at *
  constructor
  · intro c hc
    obtain ⟨e, he, rfl⟩ := List.mem_map.1 hc
    exact h.1 e (List.mem_of_mem_filter he)
  · rw [List.pairwise_map]
    refine (h.2.filter _).imp_of_mem ?_
    intro x y hx hy hxy
    simp only [List.mem_filter, Bool.and_eq_true, decide_eq_true_eq] at hx hy
    dsimp only
    omega

/-- An overlay reads as what it lists, and elsewhere as before. -/
theorem get_overlay (m t : Memory) (a x : Nat) :
    (m.overlay a t).get x = if a ≤ x ∧ (x - a) ∈ t.map (·.1) then t.get (x - a) else m.get x := by
  induction t with
  | nil => simp [overlay]
  | cons c r ih =>
    obtain ⟨k, b⟩ := c
    rw [overlay, get_set, ih]
    by_cases hx : x = a + k
    · subst hx; simp [get, mget]
    · have h2 : a ≤ x → x - a ≠ k := by omega
      simp only [get, mget, List.map_cons, List.mem_cons] at *
      grind

/-- What a memory does not list reads as zero. -/
theorem get_of_not_listed (m : Memory) (k : Nat) (h : k ∉ m.map (·.1)) : m.get k = 0 := by
  induction m with
  | nil => rfl
  | cons c r ih => simp only [get, mget, List.map_cons, List.mem_cons, not_or] at *; grind

theorem wf_overlay (m t : Memory) (a : Nat) (h : m.wf = true) : (m.overlay a t).wf = true := by
  induction t with
  | nil => exact h
  | cons c r ih => exact wf_set _ _ _ ih

/-- A paste reads as what is pasted in the range, and elsewhere as before. -/
theorem get_paste (m t : Memory) (a n x : Nat) :
    (m.paste a n t).get x = if a ≤ x ∧ x < a + n then t.get (x - a) else m.get x := by
  have key : ∀ l : Memory, Memory.get (l.filter fun c => decide (c.1 < n)) (x - a) = if x - a < n then l.get (x - a) else 0 := by
    intro l
    induction l with
    | nil => simp
    | cons c r ih => simp only [get] at *; grind [mget]
  rw [paste, get_overlay, key, get_zero]
  by_cases h : a ≤ x ∧ x < a + n
  · have hn : x - a < n := by omega
    simp only [h, hn, and_self, true_and, if_true]
    split
    · rfl
    · next hl =>
      have := get_of_not_listed (t.filter fun c => decide (c.1 < n)) (x - a) hl
      rw [key, if_pos hn] at this
      exact this.symm
  · have hl : ¬(a ≤ x ∧ (x - a) ∈ (t.filter fun c => decide (c.1 < n)).map (·.1)) := by
      intro hm
      obtain ⟨c, hc, he⟩ := List.mem_map.1 hm.2
      have := (List.mem_filter.1 hc).2
      simp only [decide_eq_true_eq] at this
      omega
    rw [if_neg hl, if_neg h, if_neg h]

theorem wf_paste (m t : Memory) (a n : Nat) (h : m.wf = true) : (m.paste a n t).wf = true :=
  wf_overlay _ _ _ (wf_zero _ _ _ h)

/-- Memory from a list of bytes reads as the list. -/
theorem get_ofBytes (a x : Nat) (l : List Byte) :
    (ofBytes a l).get x = if a ≤ x ∧ x < a + l.length then l.getD (x - a) 0 else 0 := by
  induction l generalizing a with
  | nil => simp [ofBytes]
  | cons b r ih =>
    have step : (ofBytes a (b :: r)).get x = if x = a then b else (ofBytes (a + 1) r).get x := by
      have below : ∀ (l : List Byte) (k n : Nat), k < n → (ofBytes n l).get k = 0 := by
        intro l
        induction l with
        | nil => intros; rfl
        | cons c t iht =>
          intro k n hk
          have := iht k (n + 1) (by omega)
          simp only [ofBytes, get] at *
          split
          · exact this
          · rw [mget, if_neg (by omega)]; exact this
      simp only [ofBytes]
      split
      · split
        · next h1 h2 => rw [h2, below _ _ _ (Nat.lt_succ_self a), h1]
        · rfl
      · rfl
    rw [step, ih]
    by_cases h : x = a
    · subst h; simp
    · by_cases h2 : a + 1 ≤ x ∧ x < a + 1 + r.length
      · rw [if_neg h, if_pos h2, if_pos (by simp; omega), show x - a = (x - (a + 1)) + 1 by omega, List.getD_cons_succ]
      · rw [if_neg h, if_neg h2, if_neg (by simp; omega)]

/-- Every byte of a run reads as the memory does. -/
theorem bytes_length (m : Memory) (a n : Nat) : (m.bytes a n).length = n := by
  induction n generalizing a with
  | zero => rfl
  | succ n ih => simp [bytes, ih]

theorem bytes_getElem? (m : Memory) (a n i : Nat) (h : i < n) : (m.bytes a n)[i]? = some (m.get (a + i)) := by
  induction n generalizing a i with
  | zero => omega
  | succ n ih =>
    cases i with
    | zero => simp [bytes]
    | succ i => simp only [bytes, List.getElem?_cons_succ]; rw [ih _ _ (by omega)]; congr 2; omega

end Memory

end Sys2Proof.Machine
end

