-- ==== Sys2Proof/Laws/State.lean ====
section
/-! SUPPORT. What each update of the state leaves alone, field by field, and what a part of the state reads as after an
update: no later proof unfolds an update. -/

namespace Sys2Proof.Machine

set_option Elab.async false

/-! ## Fields -/

@[simp] theorem State.variant_setCore (s : State) (c : Nat) (x : Core) : (s.setCore c x).variant = s.variant := rfl
@[simp] theorem State.pending_setCore (s : State) (c : Nat) (x : Core) : (s.setCore c x).pending = s.pending := rfl
@[simp] theorem State.free_setCore (s : State) (c : Nat) (x : Core) : (s.setCore c x).free = s.free := rfl
@[simp] theorem State.ticks_setCore (s : State) (c : Nat) (x : Core) : (s.setCore c x).ticks = s.ticks := rfl
@[simp] theorem State.regs_setCore (s : State) (c : Nat) (x : Core) : (s.setCore c x).regs = s.regs := rfl
@[simp] theorem State.towers_setCore (s : State) (c : Nat) (x : Core) : (s.setCore c x).towers = s.towers := rfl
@[simp] theorem State.cupolas_setCore (s : State) (c : Nat) (x : Core) : (s.setCore c x).cupolas = s.cupolas := rfl
@[simp] theorem State.scratch_setCore (s : State) (c : Nat) (x : Core) : (s.setCore c x).scratch = s.scratch := rfl
@[simp] theorem State.granules_setCore (s : State) (c : Nat) (x : Core) : (s.setCore c x).granules = s.granules := rfl
@[simp] theorem State.spares_setCore (s : State) (c : Nat) (x : Core) : (s.setCore c x).spares = s.spares := rfl
@[simp] theorem State.groups_setCore (s : State) (c : Nat) (x : Core) : (s.setCore c x).groups = s.groups := rfl
@[simp] theorem State.parts_setCore (s : State) (c : Nat) (x : Core) : (s.setCore c x).parts = s.parts := rfl
@[simp] theorem State.engines_setCore (s : State) (c : Nat) (x : Core) : (s.setCore c x).engines = s.engines := rfl
@[simp] theorem State.links_setCore (s : State) (c : Nat) (x : Core) : (s.setCore c x).links = s.links := rfl
@[simp] theorem State.tags_setCore (s : State) (c : Nat) (x : Core) : (s.setCore c x).tags = s.tags := rfl
@[simp] theorem State.landing_setCore (s : State) (c : Nat) (x : Core) : (s.setCore c x).landing = s.landing := rfl
@[simp] theorem State.gov_setCore (s : State) (c : Nat) (x : Core) : (s.setCore c x).gov = s.gov := rfl
@[simp] theorem State.port_setCore (s : State) (c : Nat) (x : Core) : (s.setCore c x).port = s.port := rfl
@[simp] theorem State.mod_setCore (s : State) (c : Nat) (x : Core) : (s.setCore c x).mod = s.mod := rfl
@[simp] theorem State.pfFlr_setCore (s : State) (c : Nat) (x : Core) : (s.setCore c x).pfFlr = s.pfFlr := rfl
@[simp] theorem State.aldeah_setCore (s : State) (c : Nat) (x : Core) : (s.setCore c x).aldeah = s.aldeah := rfl
@[simp] theorem State.flash_setCore (s : State) (c : Nat) (x : Core) : (s.setCore c x).flash = s.flash := rfl
@[simp] theorem State.otp_setCore (s : State) (c : Nat) (x : Core) : (s.setCore c x).otp = s.otp := rfl
@[simp] theorem State.journal_setCore (s : State) (c : Nat) (x : Core) : (s.setCore c x).journal = s.journal := rfl
@[simp] theorem State.boots_setCore (s : State) (c : Nat) (x : Core) : (s.setCore c x).boots = s.boots := rfl
@[simp] theorem State.hostMem_setCore (s : State) (c : Nat) (x : Core) : (s.setCore c x).hostMem = s.hostMem := rfl
@[simp] theorem State.hostRead_setCore (s : State) (c : Nat) (x : Core) : (s.setCore c x).hostRead = s.hostRead := rfl

@[simp] theorem State.variant_setTower (s : State) (t : Nat) (x : Tower) : (s.setTower t x).variant = s.variant := rfl
@[simp] theorem State.pending_setTower (s : State) (t : Nat) (x : Tower) : (s.setTower t x).pending = s.pending := rfl
@[simp] theorem State.free_setTower (s : State) (t : Nat) (x : Tower) : (s.setTower t x).free = s.free := rfl
@[simp] theorem State.ticks_setTower (s : State) (t : Nat) (x : Tower) : (s.setTower t x).ticks = s.ticks := rfl
@[simp] theorem State.regs_setTower (s : State) (t : Nat) (x : Tower) : (s.setTower t x).regs = s.regs := rfl
@[simp] theorem State.cores_setTower (s : State) (t : Nat) (x : Tower) : (s.setTower t x).cores = s.cores := rfl
@[simp] theorem State.cupolas_setTower (s : State) (t : Nat) (x : Tower) : (s.setTower t x).cupolas = s.cupolas := rfl
@[simp] theorem State.scratch_setTower (s : State) (t : Nat) (x : Tower) : (s.setTower t x).scratch = s.scratch := rfl
@[simp] theorem State.granules_setTower (s : State) (t : Nat) (x : Tower) : (s.setTower t x).granules = s.granules := rfl
@[simp] theorem State.spares_setTower (s : State) (t : Nat) (x : Tower) : (s.setTower t x).spares = s.spares := rfl
@[simp] theorem State.groups_setTower (s : State) (t : Nat) (x : Tower) : (s.setTower t x).groups = s.groups := rfl
@[simp] theorem State.parts_setTower (s : State) (t : Nat) (x : Tower) : (s.setTower t x).parts = s.parts := rfl
@[simp] theorem State.engines_setTower (s : State) (t : Nat) (x : Tower) : (s.setTower t x).engines = s.engines := rfl
@[simp] theorem State.links_setTower (s : State) (t : Nat) (x : Tower) : (s.setTower t x).links = s.links := rfl
@[simp] theorem State.tags_setTower (s : State) (t : Nat) (x : Tower) : (s.setTower t x).tags = s.tags := rfl
@[simp] theorem State.landing_setTower (s : State) (t : Nat) (x : Tower) : (s.setTower t x).landing = s.landing := rfl
@[simp] theorem State.gov_setTower (s : State) (t : Nat) (x : Tower) : (s.setTower t x).gov = s.gov := rfl
@[simp] theorem State.port_setTower (s : State) (t : Nat) (x : Tower) : (s.setTower t x).port = s.port := rfl
@[simp] theorem State.mod_setTower (s : State) (t : Nat) (x : Tower) : (s.setTower t x).mod = s.mod := rfl
@[simp] theorem State.pfFlr_setTower (s : State) (t : Nat) (x : Tower) : (s.setTower t x).pfFlr = s.pfFlr := rfl
@[simp] theorem State.aldeah_setTower (s : State) (t : Nat) (x : Tower) : (s.setTower t x).aldeah = s.aldeah := rfl
@[simp] theorem State.flash_setTower (s : State) (t : Nat) (x : Tower) : (s.setTower t x).flash = s.flash := rfl
@[simp] theorem State.otp_setTower (s : State) (t : Nat) (x : Tower) : (s.setTower t x).otp = s.otp := rfl
@[simp] theorem State.journal_setTower (s : State) (t : Nat) (x : Tower) : (s.setTower t x).journal = s.journal := rfl
@[simp] theorem State.boots_setTower (s : State) (t : Nat) (x : Tower) : (s.setTower t x).boots = s.boots := rfl
@[simp] theorem State.hostMem_setTower (s : State) (t : Nat) (x : Tower) : (s.setTower t x).hostMem = s.hostMem := rfl
@[simp] theorem State.hostRead_setTower (s : State) (t : Nat) (x : Tower) : (s.setTower t x).hostRead = s.hostRead := rfl

@[simp] theorem State.variant_setGroup (s : State) (g : Nat) (x : Group) : (s.setGroup g x).variant = s.variant := rfl
@[simp] theorem State.pending_setGroup (s : State) (g : Nat) (x : Group) : (s.setGroup g x).pending = s.pending := rfl
@[simp] theorem State.free_setGroup (s : State) (g : Nat) (x : Group) : (s.setGroup g x).free = s.free := rfl
@[simp] theorem State.ticks_setGroup (s : State) (g : Nat) (x : Group) : (s.setGroup g x).ticks = s.ticks := rfl
@[simp] theorem State.regs_setGroup (s : State) (g : Nat) (x : Group) : (s.setGroup g x).regs = s.regs := rfl
@[simp] theorem State.cores_setGroup (s : State) (g : Nat) (x : Group) : (s.setGroup g x).cores = s.cores := rfl
@[simp] theorem State.towers_setGroup (s : State) (g : Nat) (x : Group) : (s.setGroup g x).towers = s.towers := rfl
@[simp] theorem State.cupolas_setGroup (s : State) (g : Nat) (x : Group) : (s.setGroup g x).cupolas = s.cupolas := rfl
@[simp] theorem State.scratch_setGroup (s : State) (g : Nat) (x : Group) : (s.setGroup g x).scratch = s.scratch := rfl
@[simp] theorem State.granules_setGroup (s : State) (g : Nat) (x : Group) : (s.setGroup g x).granules = s.granules := rfl
@[simp] theorem State.spares_setGroup (s : State) (g : Nat) (x : Group) : (s.setGroup g x).spares = s.spares := rfl
@[simp] theorem State.parts_setGroup (s : State) (g : Nat) (x : Group) : (s.setGroup g x).parts = s.parts := rfl
@[simp] theorem State.engines_setGroup (s : State) (g : Nat) (x : Group) : (s.setGroup g x).engines = s.engines := rfl
@[simp] theorem State.links_setGroup (s : State) (g : Nat) (x : Group) : (s.setGroup g x).links = s.links := rfl
@[simp] theorem State.tags_setGroup (s : State) (g : Nat) (x : Group) : (s.setGroup g x).tags = s.tags := rfl
@[simp] theorem State.landing_setGroup (s : State) (g : Nat) (x : Group) : (s.setGroup g x).landing = s.landing := rfl
@[simp] theorem State.gov_setGroup (s : State) (g : Nat) (x : Group) : (s.setGroup g x).gov = s.gov := rfl
@[simp] theorem State.port_setGroup (s : State) (g : Nat) (x : Group) : (s.setGroup g x).port = s.port := rfl
@[simp] theorem State.mod_setGroup (s : State) (g : Nat) (x : Group) : (s.setGroup g x).mod = s.mod := rfl
@[simp] theorem State.pfFlr_setGroup (s : State) (g : Nat) (x : Group) : (s.setGroup g x).pfFlr = s.pfFlr := rfl
@[simp] theorem State.aldeah_setGroup (s : State) (g : Nat) (x : Group) : (s.setGroup g x).aldeah = s.aldeah := rfl
@[simp] theorem State.flash_setGroup (s : State) (g : Nat) (x : Group) : (s.setGroup g x).flash = s.flash := rfl
@[simp] theorem State.otp_setGroup (s : State) (g : Nat) (x : Group) : (s.setGroup g x).otp = s.otp := rfl
@[simp] theorem State.journal_setGroup (s : State) (g : Nat) (x : Group) : (s.setGroup g x).journal = s.journal := rfl
@[simp] theorem State.boots_setGroup (s : State) (g : Nat) (x : Group) : (s.setGroup g x).boots = s.boots := rfl
@[simp] theorem State.hostMem_setGroup (s : State) (g : Nat) (x : Group) : (s.setGroup g x).hostMem = s.hostMem := rfl
@[simp] theorem State.hostRead_setGroup (s : State) (g : Nat) (x : Group) : (s.setGroup g x).hostRead = s.hostRead := rfl

@[simp] theorem State.variant_setPart (s : State) (p : Nat) (x : Part) : (s.setPart p x).variant = s.variant := rfl
@[simp] theorem State.pending_setPart (s : State) (p : Nat) (x : Part) : (s.setPart p x).pending = s.pending := rfl
@[simp] theorem State.free_setPart (s : State) (p : Nat) (x : Part) : (s.setPart p x).free = s.free := rfl
@[simp] theorem State.ticks_setPart (s : State) (p : Nat) (x : Part) : (s.setPart p x).ticks = s.ticks := rfl
@[simp] theorem State.regs_setPart (s : State) (p : Nat) (x : Part) : (s.setPart p x).regs = s.regs := rfl
@[simp] theorem State.cores_setPart (s : State) (p : Nat) (x : Part) : (s.setPart p x).cores = s.cores := rfl
@[simp] theorem State.towers_setPart (s : State) (p : Nat) (x : Part) : (s.setPart p x).towers = s.towers := rfl
@[simp] theorem State.cupolas_setPart (s : State) (p : Nat) (x : Part) : (s.setPart p x).cupolas = s.cupolas := rfl
@[simp] theorem State.scratch_setPart (s : State) (p : Nat) (x : Part) : (s.setPart p x).scratch = s.scratch := rfl
@[simp] theorem State.granules_setPart (s : State) (p : Nat) (x : Part) : (s.setPart p x).granules = s.granules := rfl
@[simp] theorem State.spares_setPart (s : State) (p : Nat) (x : Part) : (s.setPart p x).spares = s.spares := rfl
@[simp] theorem State.groups_setPart (s : State) (p : Nat) (x : Part) : (s.setPart p x).groups = s.groups := rfl
@[simp] theorem State.engines_setPart (s : State) (p : Nat) (x : Part) : (s.setPart p x).engines = s.engines := rfl
@[simp] theorem State.links_setPart (s : State) (p : Nat) (x : Part) : (s.setPart p x).links = s.links := rfl
@[simp] theorem State.tags_setPart (s : State) (p : Nat) (x : Part) : (s.setPart p x).tags = s.tags := rfl
@[simp] theorem State.landing_setPart (s : State) (p : Nat) (x : Part) : (s.setPart p x).landing = s.landing := rfl
@[simp] theorem State.gov_setPart (s : State) (p : Nat) (x : Part) : (s.setPart p x).gov = s.gov := rfl
@[simp] theorem State.port_setPart (s : State) (p : Nat) (x : Part) : (s.setPart p x).port = s.port := rfl
@[simp] theorem State.mod_setPart (s : State) (p : Nat) (x : Part) : (s.setPart p x).mod = s.mod := rfl
@[simp] theorem State.pfFlr_setPart (s : State) (p : Nat) (x : Part) : (s.setPart p x).pfFlr = s.pfFlr := rfl
@[simp] theorem State.aldeah_setPart (s : State) (p : Nat) (x : Part) : (s.setPart p x).aldeah = s.aldeah := rfl
@[simp] theorem State.flash_setPart (s : State) (p : Nat) (x : Part) : (s.setPart p x).flash = s.flash := rfl
@[simp] theorem State.otp_setPart (s : State) (p : Nat) (x : Part) : (s.setPart p x).otp = s.otp := rfl
@[simp] theorem State.journal_setPart (s : State) (p : Nat) (x : Part) : (s.setPart p x).journal = s.journal := rfl
@[simp] theorem State.boots_setPart (s : State) (p : Nat) (x : Part) : (s.setPart p x).boots = s.boots := rfl
@[simp] theorem State.hostMem_setPart (s : State) (p : Nat) (x : Part) : (s.setPart p x).hostMem = s.hostMem := rfl
@[simp] theorem State.hostRead_setPart (s : State) (p : Nat) (x : Part) : (s.setPart p x).hostRead = s.hostRead := rfl

@[simp] theorem State.variant_setGranule (s : State) (k : Nat) (x : Granule) : (s.setGranule k x).variant = s.variant := rfl
@[simp] theorem State.pending_setGranule (s : State) (k : Nat) (x : Granule) : (s.setGranule k x).pending = s.pending := rfl
@[simp] theorem State.free_setGranule (s : State) (k : Nat) (x : Granule) : (s.setGranule k x).free = s.free := rfl
@[simp] theorem State.ticks_setGranule (s : State) (k : Nat) (x : Granule) : (s.setGranule k x).ticks = s.ticks := rfl
@[simp] theorem State.regs_setGranule (s : State) (k : Nat) (x : Granule) : (s.setGranule k x).regs = s.regs := rfl
@[simp] theorem State.cores_setGranule (s : State) (k : Nat) (x : Granule) : (s.setGranule k x).cores = s.cores := rfl
@[simp] theorem State.towers_setGranule (s : State) (k : Nat) (x : Granule) : (s.setGranule k x).towers = s.towers := rfl
@[simp] theorem State.cupolas_setGranule (s : State) (k : Nat) (x : Granule) : (s.setGranule k x).cupolas = s.cupolas := rfl
@[simp] theorem State.scratch_setGranule (s : State) (k : Nat) (x : Granule) : (s.setGranule k x).scratch = s.scratch := rfl
@[simp] theorem State.spares_setGranule (s : State) (k : Nat) (x : Granule) : (s.setGranule k x).spares = s.spares := rfl
@[simp] theorem State.groups_setGranule (s : State) (k : Nat) (x : Granule) : (s.setGranule k x).groups = s.groups := rfl
@[simp] theorem State.parts_setGranule (s : State) (k : Nat) (x : Granule) : (s.setGranule k x).parts = s.parts := rfl
@[simp] theorem State.engines_setGranule (s : State) (k : Nat) (x : Granule) : (s.setGranule k x).engines = s.engines := rfl
@[simp] theorem State.links_setGranule (s : State) (k : Nat) (x : Granule) : (s.setGranule k x).links = s.links := rfl
@[simp] theorem State.tags_setGranule (s : State) (k : Nat) (x : Granule) : (s.setGranule k x).tags = s.tags := rfl
@[simp] theorem State.landing_setGranule (s : State) (k : Nat) (x : Granule) : (s.setGranule k x).landing = s.landing := rfl
@[simp] theorem State.gov_setGranule (s : State) (k : Nat) (x : Granule) : (s.setGranule k x).gov = s.gov := rfl
@[simp] theorem State.port_setGranule (s : State) (k : Nat) (x : Granule) : (s.setGranule k x).port = s.port := rfl
@[simp] theorem State.mod_setGranule (s : State) (k : Nat) (x : Granule) : (s.setGranule k x).mod = s.mod := rfl
@[simp] theorem State.pfFlr_setGranule (s : State) (k : Nat) (x : Granule) : (s.setGranule k x).pfFlr = s.pfFlr := rfl
@[simp] theorem State.aldeah_setGranule (s : State) (k : Nat) (x : Granule) : (s.setGranule k x).aldeah = s.aldeah := rfl
@[simp] theorem State.flash_setGranule (s : State) (k : Nat) (x : Granule) : (s.setGranule k x).flash = s.flash := rfl
@[simp] theorem State.otp_setGranule (s : State) (k : Nat) (x : Granule) : (s.setGranule k x).otp = s.otp := rfl
@[simp] theorem State.journal_setGranule (s : State) (k : Nat) (x : Granule) : (s.setGranule k x).journal = s.journal := rfl
@[simp] theorem State.boots_setGranule (s : State) (k : Nat) (x : Granule) : (s.setGranule k x).boots = s.boots := rfl
@[simp] theorem State.hostMem_setGranule (s : State) (k : Nat) (x : Granule) : (s.setGranule k x).hostMem = s.hostMem := rfl
@[simp] theorem State.hostRead_setGranule (s : State) (k : Nat) (x : Granule) : (s.setGranule k x).hostRead = s.hostRead := rfl

@[simp] theorem State.variant_setCupola (s : State) (k : Nat) (x : List Line) : (s.setCupola k x).variant = s.variant := rfl
@[simp] theorem State.pending_setCupola (s : State) (k : Nat) (x : List Line) : (s.setCupola k x).pending = s.pending := rfl
@[simp] theorem State.free_setCupola (s : State) (k : Nat) (x : List Line) : (s.setCupola k x).free = s.free := rfl
@[simp] theorem State.ticks_setCupola (s : State) (k : Nat) (x : List Line) : (s.setCupola k x).ticks = s.ticks := rfl
@[simp] theorem State.regs_setCupola (s : State) (k : Nat) (x : List Line) : (s.setCupola k x).regs = s.regs := rfl
@[simp] theorem State.cores_setCupola (s : State) (k : Nat) (x : List Line) : (s.setCupola k x).cores = s.cores := rfl
@[simp] theorem State.towers_setCupola (s : State) (k : Nat) (x : List Line) : (s.setCupola k x).towers = s.towers := rfl
@[simp] theorem State.scratch_setCupola (s : State) (k : Nat) (x : List Line) : (s.setCupola k x).scratch = s.scratch := rfl
@[simp] theorem State.granules_setCupola (s : State) (k : Nat) (x : List Line) : (s.setCupola k x).granules = s.granules := rfl
@[simp] theorem State.spares_setCupola (s : State) (k : Nat) (x : List Line) : (s.setCupola k x).spares = s.spares := rfl
@[simp] theorem State.groups_setCupola (s : State) (k : Nat) (x : List Line) : (s.setCupola k x).groups = s.groups := rfl
@[simp] theorem State.parts_setCupola (s : State) (k : Nat) (x : List Line) : (s.setCupola k x).parts = s.parts := rfl
@[simp] theorem State.engines_setCupola (s : State) (k : Nat) (x : List Line) : (s.setCupola k x).engines = s.engines := rfl
@[simp] theorem State.links_setCupola (s : State) (k : Nat) (x : List Line) : (s.setCupola k x).links = s.links := rfl
@[simp] theorem State.tags_setCupola (s : State) (k : Nat) (x : List Line) : (s.setCupola k x).tags = s.tags := rfl
@[simp] theorem State.landing_setCupola (s : State) (k : Nat) (x : List Line) : (s.setCupola k x).landing = s.landing := rfl
@[simp] theorem State.gov_setCupola (s : State) (k : Nat) (x : List Line) : (s.setCupola k x).gov = s.gov := rfl
@[simp] theorem State.port_setCupola (s : State) (k : Nat) (x : List Line) : (s.setCupola k x).port = s.port := rfl
@[simp] theorem State.mod_setCupola (s : State) (k : Nat) (x : List Line) : (s.setCupola k x).mod = s.mod := rfl
@[simp] theorem State.pfFlr_setCupola (s : State) (k : Nat) (x : List Line) : (s.setCupola k x).pfFlr = s.pfFlr := rfl
@[simp] theorem State.aldeah_setCupola (s : State) (k : Nat) (x : List Line) : (s.setCupola k x).aldeah = s.aldeah := rfl
@[simp] theorem State.flash_setCupola (s : State) (k : Nat) (x : List Line) : (s.setCupola k x).flash = s.flash := rfl
@[simp] theorem State.otp_setCupola (s : State) (k : Nat) (x : List Line) : (s.setCupola k x).otp = s.otp := rfl
@[simp] theorem State.journal_setCupola (s : State) (k : Nat) (x : List Line) : (s.setCupola k x).journal = s.journal := rfl
@[simp] theorem State.boots_setCupola (s : State) (k : Nat) (x : List Line) : (s.setCupola k x).boots = s.boots := rfl
@[simp] theorem State.hostMem_setCupola (s : State) (k : Nat) (x : List Line) : (s.setCupola k x).hostMem = s.hostMem := rfl
@[simp] theorem State.hostRead_setCupola (s : State) (k : Nat) (x : List Line) : (s.setCupola k x).hostRead = s.hostRead := rfl

@[simp] theorem State.variant_setEngine (s : State) (e : Nat) (x : Engine) : (s.setEngine e x).variant = s.variant := rfl
@[simp] theorem State.pending_setEngine (s : State) (e : Nat) (x : Engine) : (s.setEngine e x).pending = s.pending := rfl
@[simp] theorem State.free_setEngine (s : State) (e : Nat) (x : Engine) : (s.setEngine e x).free = s.free := rfl
@[simp] theorem State.ticks_setEngine (s : State) (e : Nat) (x : Engine) : (s.setEngine e x).ticks = s.ticks := rfl
@[simp] theorem State.regs_setEngine (s : State) (e : Nat) (x : Engine) : (s.setEngine e x).regs = s.regs := rfl
@[simp] theorem State.cores_setEngine (s : State) (e : Nat) (x : Engine) : (s.setEngine e x).cores = s.cores := rfl
@[simp] theorem State.towers_setEngine (s : State) (e : Nat) (x : Engine) : (s.setEngine e x).towers = s.towers := rfl
@[simp] theorem State.cupolas_setEngine (s : State) (e : Nat) (x : Engine) : (s.setEngine e x).cupolas = s.cupolas := rfl
@[simp] theorem State.scratch_setEngine (s : State) (e : Nat) (x : Engine) : (s.setEngine e x).scratch = s.scratch := rfl
@[simp] theorem State.granules_setEngine (s : State) (e : Nat) (x : Engine) : (s.setEngine e x).granules = s.granules := rfl
@[simp] theorem State.spares_setEngine (s : State) (e : Nat) (x : Engine) : (s.setEngine e x).spares = s.spares := rfl
@[simp] theorem State.groups_setEngine (s : State) (e : Nat) (x : Engine) : (s.setEngine e x).groups = s.groups := rfl
@[simp] theorem State.parts_setEngine (s : State) (e : Nat) (x : Engine) : (s.setEngine e x).parts = s.parts := rfl
@[simp] theorem State.links_setEngine (s : State) (e : Nat) (x : Engine) : (s.setEngine e x).links = s.links := rfl
@[simp] theorem State.tags_setEngine (s : State) (e : Nat) (x : Engine) : (s.setEngine e x).tags = s.tags := rfl
@[simp] theorem State.landing_setEngine (s : State) (e : Nat) (x : Engine) : (s.setEngine e x).landing = s.landing := rfl
@[simp] theorem State.gov_setEngine (s : State) (e : Nat) (x : Engine) : (s.setEngine e x).gov = s.gov := rfl
@[simp] theorem State.port_setEngine (s : State) (e : Nat) (x : Engine) : (s.setEngine e x).port = s.port := rfl
@[simp] theorem State.mod_setEngine (s : State) (e : Nat) (x : Engine) : (s.setEngine e x).mod = s.mod := rfl
@[simp] theorem State.pfFlr_setEngine (s : State) (e : Nat) (x : Engine) : (s.setEngine e x).pfFlr = s.pfFlr := rfl
@[simp] theorem State.aldeah_setEngine (s : State) (e : Nat) (x : Engine) : (s.setEngine e x).aldeah = s.aldeah := rfl
@[simp] theorem State.flash_setEngine (s : State) (e : Nat) (x : Engine) : (s.setEngine e x).flash = s.flash := rfl
@[simp] theorem State.otp_setEngine (s : State) (e : Nat) (x : Engine) : (s.setEngine e x).otp = s.otp := rfl
@[simp] theorem State.journal_setEngine (s : State) (e : Nat) (x : Engine) : (s.setEngine e x).journal = s.journal := rfl
@[simp] theorem State.boots_setEngine (s : State) (e : Nat) (x : Engine) : (s.setEngine e x).boots = s.boots := rfl
@[simp] theorem State.hostMem_setEngine (s : State) (e : Nat) (x : Engine) : (s.setEngine e x).hostMem = s.hostMem := rfl
@[simp] theorem State.hostRead_setEngine (s : State) (e : Nat) (x : Engine) : (s.setEngine e x).hostRead = s.hostRead := rfl

@[simp] theorem State.variant_setLink (s : State) (l : Nat) (x : LinkState) : (s.setLink l x).variant = s.variant := rfl
@[simp] theorem State.pending_setLink (s : State) (l : Nat) (x : LinkState) : (s.setLink l x).pending = s.pending := rfl
@[simp] theorem State.free_setLink (s : State) (l : Nat) (x : LinkState) : (s.setLink l x).free = s.free := rfl
@[simp] theorem State.ticks_setLink (s : State) (l : Nat) (x : LinkState) : (s.setLink l x).ticks = s.ticks := rfl
@[simp] theorem State.regs_setLink (s : State) (l : Nat) (x : LinkState) : (s.setLink l x).regs = s.regs := rfl
@[simp] theorem State.cores_setLink (s : State) (l : Nat) (x : LinkState) : (s.setLink l x).cores = s.cores := rfl
@[simp] theorem State.towers_setLink (s : State) (l : Nat) (x : LinkState) : (s.setLink l x).towers = s.towers := rfl
@[simp] theorem State.cupolas_setLink (s : State) (l : Nat) (x : LinkState) : (s.setLink l x).cupolas = s.cupolas := rfl
@[simp] theorem State.scratch_setLink (s : State) (l : Nat) (x : LinkState) : (s.setLink l x).scratch = s.scratch := rfl
@[simp] theorem State.granules_setLink (s : State) (l : Nat) (x : LinkState) : (s.setLink l x).granules = s.granules := rfl
@[simp] theorem State.spares_setLink (s : State) (l : Nat) (x : LinkState) : (s.setLink l x).spares = s.spares := rfl
@[simp] theorem State.groups_setLink (s : State) (l : Nat) (x : LinkState) : (s.setLink l x).groups = s.groups := rfl
@[simp] theorem State.parts_setLink (s : State) (l : Nat) (x : LinkState) : (s.setLink l x).parts = s.parts := rfl
@[simp] theorem State.engines_setLink (s : State) (l : Nat) (x : LinkState) : (s.setLink l x).engines = s.engines := rfl
@[simp] theorem State.tags_setLink (s : State) (l : Nat) (x : LinkState) : (s.setLink l x).tags = s.tags := rfl
@[simp] theorem State.landing_setLink (s : State) (l : Nat) (x : LinkState) : (s.setLink l x).landing = s.landing := rfl
@[simp] theorem State.gov_setLink (s : State) (l : Nat) (x : LinkState) : (s.setLink l x).gov = s.gov := rfl
@[simp] theorem State.port_setLink (s : State) (l : Nat) (x : LinkState) : (s.setLink l x).port = s.port := rfl
@[simp] theorem State.mod_setLink (s : State) (l : Nat) (x : LinkState) : (s.setLink l x).mod = s.mod := rfl
@[simp] theorem State.pfFlr_setLink (s : State) (l : Nat) (x : LinkState) : (s.setLink l x).pfFlr = s.pfFlr := rfl
@[simp] theorem State.aldeah_setLink (s : State) (l : Nat) (x : LinkState) : (s.setLink l x).aldeah = s.aldeah := rfl
@[simp] theorem State.flash_setLink (s : State) (l : Nat) (x : LinkState) : (s.setLink l x).flash = s.flash := rfl
@[simp] theorem State.otp_setLink (s : State) (l : Nat) (x : LinkState) : (s.setLink l x).otp = s.otp := rfl
@[simp] theorem State.journal_setLink (s : State) (l : Nat) (x : LinkState) : (s.setLink l x).journal = s.journal := rfl
@[simp] theorem State.boots_setLink (s : State) (l : Nat) (x : LinkState) : (s.setLink l x).boots = s.boots := rfl
@[simp] theorem State.hostMem_setLink (s : State) (l : Nat) (x : LinkState) : (s.setLink l x).hostMem = s.hostMem := rfl
@[simp] theorem State.hostRead_setLink (s : State) (l : Nat) (x : LinkState) : (s.setLink l x).hostRead = s.hostRead := rfl

@[simp] theorem State.variant_modLanding (s : State) (f : Landing → Landing) : (s.modLanding f).variant = s.variant := rfl
@[simp] theorem State.pending_modLanding (s : State) (f : Landing → Landing) : (s.modLanding f).pending = s.pending := rfl
@[simp] theorem State.free_modLanding (s : State) (f : Landing → Landing) : (s.modLanding f).free = s.free := rfl
@[simp] theorem State.ticks_modLanding (s : State) (f : Landing → Landing) : (s.modLanding f).ticks = s.ticks := rfl
@[simp] theorem State.regs_modLanding (s : State) (f : Landing → Landing) : (s.modLanding f).regs = s.regs := rfl
@[simp] theorem State.cores_modLanding (s : State) (f : Landing → Landing) : (s.modLanding f).cores = s.cores := rfl
@[simp] theorem State.towers_modLanding (s : State) (f : Landing → Landing) : (s.modLanding f).towers = s.towers := rfl
@[simp] theorem State.cupolas_modLanding (s : State) (f : Landing → Landing) : (s.modLanding f).cupolas = s.cupolas := rfl
@[simp] theorem State.scratch_modLanding (s : State) (f : Landing → Landing) : (s.modLanding f).scratch = s.scratch := rfl
@[simp] theorem State.granules_modLanding (s : State) (f : Landing → Landing) : (s.modLanding f).granules = s.granules := rfl
@[simp] theorem State.spares_modLanding (s : State) (f : Landing → Landing) : (s.modLanding f).spares = s.spares := rfl
@[simp] theorem State.groups_modLanding (s : State) (f : Landing → Landing) : (s.modLanding f).groups = s.groups := rfl
@[simp] theorem State.parts_modLanding (s : State) (f : Landing → Landing) : (s.modLanding f).parts = s.parts := rfl
@[simp] theorem State.engines_modLanding (s : State) (f : Landing → Landing) : (s.modLanding f).engines = s.engines := rfl
@[simp] theorem State.links_modLanding (s : State) (f : Landing → Landing) : (s.modLanding f).links = s.links := rfl
@[simp] theorem State.tags_modLanding (s : State) (f : Landing → Landing) : (s.modLanding f).tags = s.tags := rfl
@[simp] theorem State.gov_modLanding (s : State) (f : Landing → Landing) : (s.modLanding f).gov = s.gov := rfl
@[simp] theorem State.port_modLanding (s : State) (f : Landing → Landing) : (s.modLanding f).port = s.port := rfl
@[simp] theorem State.mod_modLanding (s : State) (f : Landing → Landing) : (s.modLanding f).mod = s.mod := rfl
@[simp] theorem State.pfFlr_modLanding (s : State) (f : Landing → Landing) : (s.modLanding f).pfFlr = s.pfFlr := rfl
@[simp] theorem State.aldeah_modLanding (s : State) (f : Landing → Landing) : (s.modLanding f).aldeah = s.aldeah := rfl
@[simp] theorem State.flash_modLanding (s : State) (f : Landing → Landing) : (s.modLanding f).flash = s.flash := rfl
@[simp] theorem State.otp_modLanding (s : State) (f : Landing → Landing) : (s.modLanding f).otp = s.otp := rfl
@[simp] theorem State.journal_modLanding (s : State) (f : Landing → Landing) : (s.modLanding f).journal = s.journal := rfl
@[simp] theorem State.boots_modLanding (s : State) (f : Landing → Landing) : (s.modLanding f).boots = s.boots := rfl
@[simp] theorem State.hostMem_modLanding (s : State) (f : Landing → Landing) : (s.modLanding f).hostMem = s.hostMem := rfl
@[simp] theorem State.hostRead_modLanding (s : State) (f : Landing → Landing) : (s.modLanding f).hostRead = s.hostRead := rfl

@[simp] theorem State.variant_modAldeah (s : State) (f : Aldeah → Aldeah) : (s.modAldeah f).variant = s.variant := rfl
@[simp] theorem State.pending_modAldeah (s : State) (f : Aldeah → Aldeah) : (s.modAldeah f).pending = s.pending := rfl
@[simp] theorem State.free_modAldeah (s : State) (f : Aldeah → Aldeah) : (s.modAldeah f).free = s.free := rfl
@[simp] theorem State.ticks_modAldeah (s : State) (f : Aldeah → Aldeah) : (s.modAldeah f).ticks = s.ticks := rfl
@[simp] theorem State.regs_modAldeah (s : State) (f : Aldeah → Aldeah) : (s.modAldeah f).regs = s.regs := rfl
@[simp] theorem State.cores_modAldeah (s : State) (f : Aldeah → Aldeah) : (s.modAldeah f).cores = s.cores := rfl
@[simp] theorem State.towers_modAldeah (s : State) (f : Aldeah → Aldeah) : (s.modAldeah f).towers = s.towers := rfl
@[simp] theorem State.cupolas_modAldeah (s : State) (f : Aldeah → Aldeah) : (s.modAldeah f).cupolas = s.cupolas := rfl
@[simp] theorem State.scratch_modAldeah (s : State) (f : Aldeah → Aldeah) : (s.modAldeah f).scratch = s.scratch := rfl
@[simp] theorem State.granules_modAldeah (s : State) (f : Aldeah → Aldeah) : (s.modAldeah f).granules = s.granules := rfl
@[simp] theorem State.spares_modAldeah (s : State) (f : Aldeah → Aldeah) : (s.modAldeah f).spares = s.spares := rfl
@[simp] theorem State.groups_modAldeah (s : State) (f : Aldeah → Aldeah) : (s.modAldeah f).groups = s.groups := rfl
@[simp] theorem State.parts_modAldeah (s : State) (f : Aldeah → Aldeah) : (s.modAldeah f).parts = s.parts := rfl
@[simp] theorem State.engines_modAldeah (s : State) (f : Aldeah → Aldeah) : (s.modAldeah f).engines = s.engines := rfl
@[simp] theorem State.links_modAldeah (s : State) (f : Aldeah → Aldeah) : (s.modAldeah f).links = s.links := rfl
@[simp] theorem State.tags_modAldeah (s : State) (f : Aldeah → Aldeah) : (s.modAldeah f).tags = s.tags := rfl
@[simp] theorem State.landing_modAldeah (s : State) (f : Aldeah → Aldeah) : (s.modAldeah f).landing = s.landing := rfl
@[simp] theorem State.gov_modAldeah (s : State) (f : Aldeah → Aldeah) : (s.modAldeah f).gov = s.gov := rfl
@[simp] theorem State.port_modAldeah (s : State) (f : Aldeah → Aldeah) : (s.modAldeah f).port = s.port := rfl
@[simp] theorem State.mod_modAldeah (s : State) (f : Aldeah → Aldeah) : (s.modAldeah f).mod = s.mod := rfl
@[simp] theorem State.pfFlr_modAldeah (s : State) (f : Aldeah → Aldeah) : (s.modAldeah f).pfFlr = s.pfFlr := rfl
@[simp] theorem State.flash_modAldeah (s : State) (f : Aldeah → Aldeah) : (s.modAldeah f).flash = s.flash := rfl
@[simp] theorem State.otp_modAldeah (s : State) (f : Aldeah → Aldeah) : (s.modAldeah f).otp = s.otp := rfl
@[simp] theorem State.journal_modAldeah (s : State) (f : Aldeah → Aldeah) : (s.modAldeah f).journal = s.journal := rfl
@[simp] theorem State.boots_modAldeah (s : State) (f : Aldeah → Aldeah) : (s.modAldeah f).boots = s.boots := rfl
@[simp] theorem State.hostMem_modAldeah (s : State) (f : Aldeah → Aldeah) : (s.modAldeah f).hostMem = s.hostMem := rfl
@[simp] theorem State.hostRead_modAldeah (s : State) (f : Aldeah → Aldeah) : (s.modAldeah f).hostRead = s.hostRead := rfl

@[simp] theorem State.variant_modMod (s : State) (f : Module → Module) : (s.modMod f).variant = s.variant := rfl
@[simp] theorem State.pending_modMod (s : State) (f : Module → Module) : (s.modMod f).pending = s.pending := rfl
@[simp] theorem State.free_modMod (s : State) (f : Module → Module) : (s.modMod f).free = s.free := rfl
@[simp] theorem State.ticks_modMod (s : State) (f : Module → Module) : (s.modMod f).ticks = s.ticks := rfl
@[simp] theorem State.regs_modMod (s : State) (f : Module → Module) : (s.modMod f).regs = s.regs := rfl
@[simp] theorem State.cores_modMod (s : State) (f : Module → Module) : (s.modMod f).cores = s.cores := rfl
@[simp] theorem State.towers_modMod (s : State) (f : Module → Module) : (s.modMod f).towers = s.towers := rfl
@[simp] theorem State.cupolas_modMod (s : State) (f : Module → Module) : (s.modMod f).cupolas = s.cupolas := rfl
@[simp] theorem State.scratch_modMod (s : State) (f : Module → Module) : (s.modMod f).scratch = s.scratch := rfl
@[simp] theorem State.granules_modMod (s : State) (f : Module → Module) : (s.modMod f).granules = s.granules := rfl
@[simp] theorem State.spares_modMod (s : State) (f : Module → Module) : (s.modMod f).spares = s.spares := rfl
@[simp] theorem State.groups_modMod (s : State) (f : Module → Module) : (s.modMod f).groups = s.groups := rfl
@[simp] theorem State.parts_modMod (s : State) (f : Module → Module) : (s.modMod f).parts = s.parts := rfl
@[simp] theorem State.engines_modMod (s : State) (f : Module → Module) : (s.modMod f).engines = s.engines := rfl
@[simp] theorem State.links_modMod (s : State) (f : Module → Module) : (s.modMod f).links = s.links := rfl
@[simp] theorem State.tags_modMod (s : State) (f : Module → Module) : (s.modMod f).tags = s.tags := rfl
@[simp] theorem State.landing_modMod (s : State) (f : Module → Module) : (s.modMod f).landing = s.landing := rfl
@[simp] theorem State.gov_modMod (s : State) (f : Module → Module) : (s.modMod f).gov = s.gov := rfl
@[simp] theorem State.port_modMod (s : State) (f : Module → Module) : (s.modMod f).port = s.port := rfl
@[simp] theorem State.pfFlr_modMod (s : State) (f : Module → Module) : (s.modMod f).pfFlr = s.pfFlr := rfl
@[simp] theorem State.aldeah_modMod (s : State) (f : Module → Module) : (s.modMod f).aldeah = s.aldeah := rfl
@[simp] theorem State.flash_modMod (s : State) (f : Module → Module) : (s.modMod f).flash = s.flash := rfl
@[simp] theorem State.otp_modMod (s : State) (f : Module → Module) : (s.modMod f).otp = s.otp := rfl
@[simp] theorem State.journal_modMod (s : State) (f : Module → Module) : (s.modMod f).journal = s.journal := rfl
@[simp] theorem State.boots_modMod (s : State) (f : Module → Module) : (s.modMod f).boots = s.boots := rfl
@[simp] theorem State.hostMem_modMod (s : State) (f : Module → Module) : (s.modMod f).hostMem = s.hostMem := rfl
@[simp] theorem State.hostRead_modMod (s : State) (f : Module → Module) : (s.modMod f).hostRead = s.hostRead := rfl

@[simp] theorem State.variant_tick (s : State) : (s.tick).variant = s.variant := rfl
@[simp] theorem State.pending_tick (s : State) : (s.tick).pending = s.pending := rfl
@[simp] theorem State.ticks_tick (s : State) : (s.tick).ticks = s.ticks := rfl
@[simp] theorem State.regs_tick (s : State) : (s.tick).regs = s.regs := rfl
@[simp] theorem State.cores_tick (s : State) : (s.tick).cores = s.cores := rfl
@[simp] theorem State.towers_tick (s : State) : (s.tick).towers = s.towers := rfl
@[simp] theorem State.cupolas_tick (s : State) : (s.tick).cupolas = s.cupolas := rfl
@[simp] theorem State.scratch_tick (s : State) : (s.tick).scratch = s.scratch := rfl
@[simp] theorem State.granules_tick (s : State) : (s.tick).granules = s.granules := rfl
@[simp] theorem State.spares_tick (s : State) : (s.tick).spares = s.spares := rfl
@[simp] theorem State.groups_tick (s : State) : (s.tick).groups = s.groups := rfl
@[simp] theorem State.parts_tick (s : State) : (s.tick).parts = s.parts := rfl
@[simp] theorem State.engines_tick (s : State) : (s.tick).engines = s.engines := rfl
@[simp] theorem State.links_tick (s : State) : (s.tick).links = s.links := rfl
@[simp] theorem State.tags_tick (s : State) : (s.tick).tags = s.tags := rfl
@[simp] theorem State.landing_tick (s : State) : (s.tick).landing = s.landing := rfl
@[simp] theorem State.gov_tick (s : State) : (s.tick).gov = s.gov := rfl
@[simp] theorem State.port_tick (s : State) : (s.tick).port = s.port := rfl
@[simp] theorem State.mod_tick (s : State) : (s.tick).mod = s.mod := rfl
@[simp] theorem State.pfFlr_tick (s : State) : (s.tick).pfFlr = s.pfFlr := rfl
@[simp] theorem State.aldeah_tick (s : State) : (s.tick).aldeah = s.aldeah := rfl
@[simp] theorem State.flash_tick (s : State) : (s.tick).flash = s.flash := rfl
@[simp] theorem State.otp_tick (s : State) : (s.tick).otp = s.otp := rfl
@[simp] theorem State.journal_tick (s : State) : (s.tick).journal = s.journal := rfl
@[simp] theorem State.boots_tick (s : State) : (s.tick).boots = s.boots := rfl
@[simp] theorem State.hostMem_tick (s : State) : (s.tick).hostMem = s.hostMem := rfl
@[simp] theorem State.hostRead_tick (s : State) : (s.tick).hostRead = s.hostRead := rfl

@[simp] theorem State.variant_setReg (s : State) (a v : Nat) : (s.setReg a v).variant = s.variant := rfl
@[simp] theorem State.pending_setReg (s : State) (a v : Nat) : (s.setReg a v).pending = s.pending := rfl
@[simp] theorem State.free_setReg (s : State) (a v : Nat) : (s.setReg a v).free = s.free := rfl
@[simp] theorem State.ticks_setReg (s : State) (a v : Nat) : (s.setReg a v).ticks = s.ticks := rfl
@[simp] theorem State.cores_setReg (s : State) (a v : Nat) : (s.setReg a v).cores = s.cores := rfl
@[simp] theorem State.towers_setReg (s : State) (a v : Nat) : (s.setReg a v).towers = s.towers := rfl
@[simp] theorem State.cupolas_setReg (s : State) (a v : Nat) : (s.setReg a v).cupolas = s.cupolas := rfl
@[simp] theorem State.scratch_setReg (s : State) (a v : Nat) : (s.setReg a v).scratch = s.scratch := rfl
@[simp] theorem State.granules_setReg (s : State) (a v : Nat) : (s.setReg a v).granules = s.granules := rfl
@[simp] theorem State.spares_setReg (s : State) (a v : Nat) : (s.setReg a v).spares = s.spares := rfl
@[simp] theorem State.groups_setReg (s : State) (a v : Nat) : (s.setReg a v).groups = s.groups := rfl
@[simp] theorem State.parts_setReg (s : State) (a v : Nat) : (s.setReg a v).parts = s.parts := rfl
@[simp] theorem State.engines_setReg (s : State) (a v : Nat) : (s.setReg a v).engines = s.engines := rfl
@[simp] theorem State.links_setReg (s : State) (a v : Nat) : (s.setReg a v).links = s.links := rfl
@[simp] theorem State.tags_setReg (s : State) (a v : Nat) : (s.setReg a v).tags = s.tags := rfl
@[simp] theorem State.landing_setReg (s : State) (a v : Nat) : (s.setReg a v).landing = s.landing := rfl
@[simp] theorem State.gov_setReg (s : State) (a v : Nat) : (s.setReg a v).gov = s.gov := rfl
@[simp] theorem State.port_setReg (s : State) (a v : Nat) : (s.setReg a v).port = s.port := rfl
@[simp] theorem State.mod_setReg (s : State) (a v : Nat) : (s.setReg a v).mod = s.mod := rfl
@[simp] theorem State.pfFlr_setReg (s : State) (a v : Nat) : (s.setReg a v).pfFlr = s.pfFlr := rfl
@[simp] theorem State.aldeah_setReg (s : State) (a v : Nat) : (s.setReg a v).aldeah = s.aldeah := rfl
@[simp] theorem State.flash_setReg (s : State) (a v : Nat) : (s.setReg a v).flash = s.flash := rfl
@[simp] theorem State.otp_setReg (s : State) (a v : Nat) : (s.setReg a v).otp = s.otp := rfl
@[simp] theorem State.journal_setReg (s : State) (a v : Nat) : (s.setReg a v).journal = s.journal := rfl
@[simp] theorem State.boots_setReg (s : State) (a v : Nat) : (s.setReg a v).boots = s.boots := rfl
@[simp] theorem State.hostMem_setReg (s : State) (a v : Nat) : (s.setReg a v).hostMem = s.hostMem := rfl
@[simp] theorem State.hostRead_setReg (s : State) (a v : Nat) : (s.setReg a v).hostRead = s.hostRead := rfl

/-! ## Parts of the state by number -/

@[simp] theorem State.core_setTower (s : State) (t : Nat) (x : Tower) (i : Nat) : (s.setTower t x).core i = s.core i := rfl
@[simp] theorem State.core_setGroup (s : State) (g : Nat) (x : Group) (i : Nat) : (s.setGroup g x).core i = s.core i := rfl
@[simp] theorem State.core_setPart (s : State) (p : Nat) (x : Part) (i : Nat) : (s.setPart p x).core i = s.core i := rfl
@[simp] theorem State.core_setGranule (s : State) (k : Nat) (x : Granule) (i : Nat) : (s.setGranule k x).core i = s.core i := rfl
@[simp] theorem State.core_setCupola (s : State) (k : Nat) (x : List Line) (i : Nat) : (s.setCupola k x).core i = s.core i := rfl
@[simp] theorem State.core_setEngine (s : State) (e : Nat) (x : Engine) (i : Nat) : (s.setEngine e x).core i = s.core i := rfl
@[simp] theorem State.core_setLink (s : State) (l : Nat) (x : LinkState) (i : Nat) : (s.setLink l x).core i = s.core i := rfl
@[simp] theorem State.core_modLanding (s : State) (f : Landing → Landing) (i : Nat) : (s.modLanding f).core i = s.core i := rfl
@[simp] theorem State.core_modAldeah (s : State) (f : Aldeah → Aldeah) (i : Nat) : (s.modAldeah f).core i = s.core i := rfl
@[simp] theorem State.core_modMod (s : State) (f : Module → Module) (i : Nat) : (s.modMod f).core i = s.core i := rfl
@[simp] theorem State.core_tick (s : State) (i : Nat) : (s.tick).core i = s.core i := rfl
@[simp] theorem State.core_setReg (s : State) (a v : Nat) (i : Nat) : (s.setReg a v).core i = s.core i := rfl

@[simp] theorem State.tower_setCore (s : State) (c : Nat) (x : Core) (i : Nat) : (s.setCore c x).tower i = s.tower i := rfl
@[simp] theorem State.tower_setGroup (s : State) (g : Nat) (x : Group) (i : Nat) : (s.setGroup g x).tower i = s.tower i := rfl
@[simp] theorem State.tower_setPart (s : State) (p : Nat) (x : Part) (i : Nat) : (s.setPart p x).tower i = s.tower i := rfl
@[simp] theorem State.tower_setGranule (s : State) (k : Nat) (x : Granule) (i : Nat) : (s.setGranule k x).tower i = s.tower i := rfl
@[simp] theorem State.tower_setCupola (s : State) (k : Nat) (x : List Line) (i : Nat) : (s.setCupola k x).tower i = s.tower i := rfl
@[simp] theorem State.tower_setEngine (s : State) (e : Nat) (x : Engine) (i : Nat) : (s.setEngine e x).tower i = s.tower i := rfl
@[simp] theorem State.tower_setLink (s : State) (l : Nat) (x : LinkState) (i : Nat) : (s.setLink l x).tower i = s.tower i := rfl
@[simp] theorem State.tower_modLanding (s : State) (f : Landing → Landing) (i : Nat) : (s.modLanding f).tower i = s.tower i := rfl
@[simp] theorem State.tower_modAldeah (s : State) (f : Aldeah → Aldeah) (i : Nat) : (s.modAldeah f).tower i = s.tower i := rfl
@[simp] theorem State.tower_modMod (s : State) (f : Module → Module) (i : Nat) : (s.modMod f).tower i = s.tower i := rfl
@[simp] theorem State.tower_tick (s : State) (i : Nat) : (s.tick).tower i = s.tower i := rfl
@[simp] theorem State.tower_setReg (s : State) (a v : Nat) (i : Nat) : (s.setReg a v).tower i = s.tower i := rfl

@[simp] theorem State.group_setCore (s : State) (c : Nat) (x : Core) (i : Nat) : (s.setCore c x).group i = s.group i := rfl
@[simp] theorem State.group_setTower (s : State) (t : Nat) (x : Tower) (i : Nat) : (s.setTower t x).group i = s.group i := rfl
@[simp] theorem State.group_setPart (s : State) (p : Nat) (x : Part) (i : Nat) : (s.setPart p x).group i = s.group i := rfl
@[simp] theorem State.group_setGranule (s : State) (k : Nat) (x : Granule) (i : Nat) : (s.setGranule k x).group i = s.group i := rfl
@[simp] theorem State.group_setCupola (s : State) (k : Nat) (x : List Line) (i : Nat) : (s.setCupola k x).group i = s.group i := rfl
@[simp] theorem State.group_setEngine (s : State) (e : Nat) (x : Engine) (i : Nat) : (s.setEngine e x).group i = s.group i := rfl
@[simp] theorem State.group_setLink (s : State) (l : Nat) (x : LinkState) (i : Nat) : (s.setLink l x).group i = s.group i := rfl
@[simp] theorem State.group_modLanding (s : State) (f : Landing → Landing) (i : Nat) : (s.modLanding f).group i = s.group i := rfl
@[simp] theorem State.group_modAldeah (s : State) (f : Aldeah → Aldeah) (i : Nat) : (s.modAldeah f).group i = s.group i := rfl
@[simp] theorem State.group_modMod (s : State) (f : Module → Module) (i : Nat) : (s.modMod f).group i = s.group i := rfl
@[simp] theorem State.group_tick (s : State) (i : Nat) : (s.tick).group i = s.group i := rfl
@[simp] theorem State.group_setReg (s : State) (a v : Nat) (i : Nat) : (s.setReg a v).group i = s.group i := rfl

@[simp] theorem State.part_setCore (s : State) (c : Nat) (x : Core) (i : Nat) : (s.setCore c x).part i = s.part i := rfl
@[simp] theorem State.part_setTower (s : State) (t : Nat) (x : Tower) (i : Nat) : (s.setTower t x).part i = s.part i := rfl
@[simp] theorem State.part_setGroup (s : State) (g : Nat) (x : Group) (i : Nat) : (s.setGroup g x).part i = s.part i := rfl
@[simp] theorem State.part_setGranule (s : State) (k : Nat) (x : Granule) (i : Nat) : (s.setGranule k x).part i = s.part i := rfl
@[simp] theorem State.part_setCupola (s : State) (k : Nat) (x : List Line) (i : Nat) : (s.setCupola k x).part i = s.part i := rfl
@[simp] theorem State.part_setEngine (s : State) (e : Nat) (x : Engine) (i : Nat) : (s.setEngine e x).part i = s.part i := rfl
@[simp] theorem State.part_setLink (s : State) (l : Nat) (x : LinkState) (i : Nat) : (s.setLink l x).part i = s.part i := rfl
@[simp] theorem State.part_modLanding (s : State) (f : Landing → Landing) (i : Nat) : (s.modLanding f).part i = s.part i := rfl
@[simp] theorem State.part_modAldeah (s : State) (f : Aldeah → Aldeah) (i : Nat) : (s.modAldeah f).part i = s.part i := rfl
@[simp] theorem State.part_modMod (s : State) (f : Module → Module) (i : Nat) : (s.modMod f).part i = s.part i := rfl
@[simp] theorem State.part_tick (s : State) (i : Nat) : (s.tick).part i = s.part i := rfl
@[simp] theorem State.part_setReg (s : State) (a v : Nat) (i : Nat) : (s.setReg a v).part i = s.part i := rfl

@[simp] theorem State.granule_setCore (s : State) (c : Nat) (x : Core) (i : Nat) : (s.setCore c x).granule i = s.granule i := rfl
@[simp] theorem State.granule_setTower (s : State) (t : Nat) (x : Tower) (i : Nat) : (s.setTower t x).granule i = s.granule i := rfl
@[simp] theorem State.granule_setGroup (s : State) (g : Nat) (x : Group) (i : Nat) : (s.setGroup g x).granule i = s.granule i := rfl
@[simp] theorem State.granule_setPart (s : State) (p : Nat) (x : Part) (i : Nat) : (s.setPart p x).granule i = s.granule i := rfl
@[simp] theorem State.granule_setCupola (s : State) (k : Nat) (x : List Line) (i : Nat) : (s.setCupola k x).granule i = s.granule i := rfl
@[simp] theorem State.granule_setEngine (s : State) (e : Nat) (x : Engine) (i : Nat) : (s.setEngine e x).granule i = s.granule i := rfl
@[simp] theorem State.granule_setLink (s : State) (l : Nat) (x : LinkState) (i : Nat) : (s.setLink l x).granule i = s.granule i := rfl
@[simp] theorem State.granule_modLanding (s : State) (f : Landing → Landing) (i : Nat) : (s.modLanding f).granule i = s.granule i := rfl
@[simp] theorem State.granule_modAldeah (s : State) (f : Aldeah → Aldeah) (i : Nat) : (s.modAldeah f).granule i = s.granule i := rfl
@[simp] theorem State.granule_modMod (s : State) (f : Module → Module) (i : Nat) : (s.modMod f).granule i = s.granule i := rfl
@[simp] theorem State.granule_tick (s : State) (i : Nat) : (s.tick).granule i = s.granule i := rfl
@[simp] theorem State.granule_setReg (s : State) (a v : Nat) (i : Nat) : (s.setReg a v).granule i = s.granule i := rfl

@[simp] theorem State.cupola_setCore (s : State) (c : Nat) (x : Core) (i : Nat) : (s.setCore c x).cupola i = s.cupola i := rfl
@[simp] theorem State.cupola_setTower (s : State) (t : Nat) (x : Tower) (i : Nat) : (s.setTower t x).cupola i = s.cupola i := rfl
@[simp] theorem State.cupola_setGroup (s : State) (g : Nat) (x : Group) (i : Nat) : (s.setGroup g x).cupola i = s.cupola i := rfl
@[simp] theorem State.cupola_setPart (s : State) (p : Nat) (x : Part) (i : Nat) : (s.setPart p x).cupola i = s.cupola i := rfl
@[simp] theorem State.cupola_setGranule (s : State) (k : Nat) (x : Granule) (i : Nat) : (s.setGranule k x).cupola i = s.cupola i := rfl
@[simp] theorem State.cupola_setEngine (s : State) (e : Nat) (x : Engine) (i : Nat) : (s.setEngine e x).cupola i = s.cupola i := rfl
@[simp] theorem State.cupola_setLink (s : State) (l : Nat) (x : LinkState) (i : Nat) : (s.setLink l x).cupola i = s.cupola i := rfl
@[simp] theorem State.cupola_modLanding (s : State) (f : Landing → Landing) (i : Nat) : (s.modLanding f).cupola i = s.cupola i := rfl
@[simp] theorem State.cupola_modAldeah (s : State) (f : Aldeah → Aldeah) (i : Nat) : (s.modAldeah f).cupola i = s.cupola i := rfl
@[simp] theorem State.cupola_modMod (s : State) (f : Module → Module) (i : Nat) : (s.modMod f).cupola i = s.cupola i := rfl
@[simp] theorem State.cupola_tick (s : State) (i : Nat) : (s.tick).cupola i = s.cupola i := rfl
@[simp] theorem State.cupola_setReg (s : State) (a v : Nat) (i : Nat) : (s.setReg a v).cupola i = s.cupola i := rfl

@[simp] theorem State.engine_setCore (s : State) (c : Nat) (x : Core) (i : Nat) : (s.setCore c x).engine i = s.engine i := rfl
@[simp] theorem State.engine_setTower (s : State) (t : Nat) (x : Tower) (i : Nat) : (s.setTower t x).engine i = s.engine i := rfl
@[simp] theorem State.engine_setGroup (s : State) (g : Nat) (x : Group) (i : Nat) : (s.setGroup g x).engine i = s.engine i := rfl
@[simp] theorem State.engine_setPart (s : State) (p : Nat) (x : Part) (i : Nat) : (s.setPart p x).engine i = s.engine i := rfl
@[simp] theorem State.engine_setGranule (s : State) (k : Nat) (x : Granule) (i : Nat) : (s.setGranule k x).engine i = s.engine i := rfl
@[simp] theorem State.engine_setCupola (s : State) (k : Nat) (x : List Line) (i : Nat) : (s.setCupola k x).engine i = s.engine i := rfl
@[simp] theorem State.engine_setLink (s : State) (l : Nat) (x : LinkState) (i : Nat) : (s.setLink l x).engine i = s.engine i := rfl
@[simp] theorem State.engine_modLanding (s : State) (f : Landing → Landing) (i : Nat) : (s.modLanding f).engine i = s.engine i := rfl
@[simp] theorem State.engine_modAldeah (s : State) (f : Aldeah → Aldeah) (i : Nat) : (s.modAldeah f).engine i = s.engine i := rfl
@[simp] theorem State.engine_modMod (s : State) (f : Module → Module) (i : Nat) : (s.modMod f).engine i = s.engine i := rfl
@[simp] theorem State.engine_tick (s : State) (i : Nat) : (s.tick).engine i = s.engine i := rfl
@[simp] theorem State.engine_setReg (s : State) (a v : Nat) (i : Nat) : (s.setReg a v).engine i = s.engine i := rfl

@[simp] theorem State.link_setCore (s : State) (c : Nat) (x : Core) (i : Nat) : (s.setCore c x).link i = s.link i := rfl
@[simp] theorem State.link_setTower (s : State) (t : Nat) (x : Tower) (i : Nat) : (s.setTower t x).link i = s.link i := rfl
@[simp] theorem State.link_setGroup (s : State) (g : Nat) (x : Group) (i : Nat) : (s.setGroup g x).link i = s.link i := rfl
@[simp] theorem State.link_setPart (s : State) (p : Nat) (x : Part) (i : Nat) : (s.setPart p x).link i = s.link i := rfl
@[simp] theorem State.link_setGranule (s : State) (k : Nat) (x : Granule) (i : Nat) : (s.setGranule k x).link i = s.link i := rfl
@[simp] theorem State.link_setCupola (s : State) (k : Nat) (x : List Line) (i : Nat) : (s.setCupola k x).link i = s.link i := rfl
@[simp] theorem State.link_setEngine (s : State) (e : Nat) (x : Engine) (i : Nat) : (s.setEngine e x).link i = s.link i := rfl
@[simp] theorem State.link_modLanding (s : State) (f : Landing → Landing) (i : Nat) : (s.modLanding f).link i = s.link i := rfl
@[simp] theorem State.link_modAldeah (s : State) (f : Aldeah → Aldeah) (i : Nat) : (s.modAldeah f).link i = s.link i := rfl
@[simp] theorem State.link_modMod (s : State) (f : Module → Module) (i : Nat) : (s.modMod f).link i = s.link i := rfl
@[simp] theorem State.link_tick (s : State) (i : Nat) : (s.tick).link i = s.link i := rfl
@[simp] theorem State.link_setReg (s : State) (a v : Nat) (i : Nat) : (s.setReg a v).link i = s.link i := rfl

@[simp] theorem State.reg_setCore (s : State) (c : Nat) (x : Core) (i : Nat) : (s.setCore c x).reg i = s.reg i := rfl
@[simp] theorem State.reg_setTower (s : State) (t : Nat) (x : Tower) (i : Nat) : (s.setTower t x).reg i = s.reg i := rfl
@[simp] theorem State.reg_setGroup (s : State) (g : Nat) (x : Group) (i : Nat) : (s.setGroup g x).reg i = s.reg i := rfl
@[simp] theorem State.reg_setPart (s : State) (p : Nat) (x : Part) (i : Nat) : (s.setPart p x).reg i = s.reg i := rfl
@[simp] theorem State.reg_setGranule (s : State) (k : Nat) (x : Granule) (i : Nat) : (s.setGranule k x).reg i = s.reg i := rfl
@[simp] theorem State.reg_setCupola (s : State) (k : Nat) (x : List Line) (i : Nat) : (s.setCupola k x).reg i = s.reg i := rfl
@[simp] theorem State.reg_setEngine (s : State) (e : Nat) (x : Engine) (i : Nat) : (s.setEngine e x).reg i = s.reg i := rfl
@[simp] theorem State.reg_setLink (s : State) (l : Nat) (x : LinkState) (i : Nat) : (s.setLink l x).reg i = s.reg i := rfl
@[simp] theorem State.reg_modLanding (s : State) (f : Landing → Landing) (i : Nat) : (s.modLanding f).reg i = s.reg i := rfl
@[simp] theorem State.reg_modAldeah (s : State) (f : Aldeah → Aldeah) (i : Nat) : (s.modAldeah f).reg i = s.reg i := rfl
@[simp] theorem State.reg_modMod (s : State) (f : Module → Module) (i : Nat) : (s.modMod f).reg i = s.reg i := rfl
@[simp] theorem State.reg_tick (s : State) (i : Nat) : (s.tick).reg i = s.reg i := rfl

@[simp] theorem State.core_setCore (s : State) (c : Nat) (x : Core) (i : Nat) :
    (s.setCore c x).core i = if i = c then x else s.core i := mget_mset _ _ _ _
@[simp] theorem State.tower_setTower (s : State) (t : Nat) (x : Tower) (i : Nat) :
    (s.setTower t x).tower i = if i = t then x else s.tower i := mget_mset _ _ _ _
@[simp] theorem State.group_setGroup (s : State) (g : Nat) (x : Group) (i : Nat) :
    (s.setGroup g x).group i = if i = g then x else s.group i := mget_mset _ _ _ _
@[simp] theorem State.part_setPart (s : State) (p : Nat) (x : Part) (i : Nat) :
    (s.setPart p x).part i = if i = p then x else s.part i := mget_mset _ _ _ _
@[simp] theorem State.granule_setGranule (s : State) (k : Nat) (x : Granule) (i : Nat) :
    (s.setGranule k x).granule i = if i = k then x else s.granule i := mget_mset _ _ _ _
@[simp] theorem State.cupola_setCupola (s : State) (k : Nat) (x : List Line) (i : Nat) :
    (s.setCupola k x).cupola i = if i = k then x else s.cupola i := mget_mset _ _ _ _
@[simp] theorem State.engine_setEngine (s : State) (e : Nat) (x : Engine) (i : Nat) :
    (s.setEngine e x).engine i = if i = e then x else s.engine i := mget_mset _ _ _ _
@[simp] theorem State.link_setLink (s : State) (l : Nat) (x : LinkState) (i : Nat) :
    (s.setLink l x).link i = if i = l then x else s.link i := mget_mset _ _ _ _
@[simp] theorem State.reg_setReg (s : State) (a v i : Nat) : (s.setReg a v).reg i = if i = a then v else s.reg i := by
  unfold State.reg State.setReg
  by_cases h : i = a
  · subst h; simp
  · simp only [h, if_false]; exact mget_mset_ne _ _ _ _ h

/-! ## Two updates of one part -/

@[simp] theorem State.setCore_setCore (s : State) (i : Nat) (x y : Core) : (s.setCore i x).setCore i y = s.setCore i y := by
  simp [State.setCore]
@[simp] theorem State.setTower_setTower (s : State) (i : Nat) (x y : Tower) : (s.setTower i x).setTower i y = s.setTower i y := by
  simp [State.setTower]
@[simp] theorem State.setGroup_setGroup (s : State) (i : Nat) (x y : Group) : (s.setGroup i x).setGroup i y = s.setGroup i y := by
  simp [State.setGroup]
@[simp] theorem State.setPart_setPart (s : State) (i : Nat) (x y : Part) : (s.setPart i x).setPart i y = s.setPart i y := by
  simp [State.setPart]
@[simp] theorem State.setGranule_setGranule (s : State) (i : Nat) (x y : Granule) : (s.setGranule i x).setGranule i y = s.setGranule i y := by
  simp [State.setGranule]
@[simp] theorem State.setEngine_setEngine (s : State) (i : Nat) (x y : Engine) : (s.setEngine i x).setEngine i y = s.setEngine i y := by
  simp [State.setEngine]
@[simp] theorem State.setLink_setLink (s : State) (i : Nat) (x y : LinkState) : (s.setLink i x).setLink i y = s.setLink i y := by
  simp [State.setLink]

/-! ## Changes are updates -/

@[simp] theorem State.modCore_eq (s : State) (c : Nat) (f : Core → Core) : s.modCore c f = s.setCore c (f (s.core c)) := rfl
@[simp] theorem State.modTower_eq (s : State) (t : Nat) (f : Tower → Tower) : s.modTower t f = s.setTower t (f (s.tower t)) := rfl
@[simp] theorem State.modGroup_eq (s : State) (g : Nat) (f : Group → Group) : s.modGroup g f = s.setGroup g (f (s.group g)) := rfl
@[simp] theorem State.modPart_eq (s : State) (p : Nat) (f : Part → Part) : s.modPart p f = s.setPart p (f (s.part p)) := rfl
@[simp] theorem State.modEngine_eq (s : State) (e : Nat) (f : Engine → Engine) : s.modEngine e f = s.setEngine e (f (s.engine e)) := rfl
@[simp] theorem State.modLink_eq (s : State) (l : Nat) (f : LinkState → LinkState) : s.modLink l f = s.setLink l (f (s.link l)) := rfl

@[simp] theorem State.setRegField_eq (s : State) (a lo n v : Nat) :
    s.setRegField a lo n v = s.setReg a (putField (s.reg a) lo n v) := rfl
@[simp] theorem State.setRegBit_eq (s : State) (a i : Nat) (b : Bool) :
    s.setRegBit a i b = s.setReg a (putField (s.reg a) i 1 (b2n b)) := rfl

/-! ## Channels and jobs -/

@[simp] theorem State.chan_setChan (s : State) (e c i k : Nat) (x : Channel) :
    (s.setChan e c x).chan i k = if i = e ∧ k = c then x else s.chan i k := by
  unfold State.chan State.setChan
  by_cases h : i = e
  · subst h; simp
  · simp [h]
@[simp] theorem State.job_setJob (s : State) (p j q k : Nat) (x : Job) :
    (s.setJob p j x).job q k = if q = p ∧ k = j then x else s.job q k := by
  unfold State.job State.setJob
  by_cases h : q = p
  · subst h; simp
  · simp [h]
@[simp] theorem State.modChan_eq (s : State) (e c : Nat) (f : Channel → Channel) :
    s.modChan e c f = s.setChan e c (f (s.chan e c)) := rfl
@[simp] theorem State.modJob_eq (s : State) (p j : Nat) (f : Job → Job) : s.modJob p j f = s.setJob p j (f (s.job p j)) := rfl

/-- A job written leaves the rest of its partition. -/
theorem State.part_setJob (s : State) (p j q : Nat) (x : Job) :
    (s.setJob p j x).part q = if q = p then { s.part p with jobs := mset {} (s.part p).jobs j x } else s.part q := by
  simp [State.setJob]

/-- A channel written leaves the rest of its engine. -/
theorem State.engine_setChan (s : State) (e c i : Nat) (x : Channel) :
    (s.setChan e c x).engine i =
      if i = e then { s.engine e with channels := mset {} (s.engine e).channels c x } else s.engine i := by
  simp [State.setChan]

end Sys2Proof.Machine
end

