-- ==== Sys2Proof/Laws/Core.lean ====
section
/-! SUPPORT. What each operation on a core leaves alone, field by field, and what registers, queue ends and banks read as after
it. -/

namespace Sys2Proof.Machine

set_option Elab.async false

/-! ## Fields -/

@[simp] theorem Core.pc_wr (c : Core) (r : Nat) (v : Word) : (c.wr r v).pc = c.pc := by
  unfold Core.wr; split <;> rfl
@[simp] theorem Core.dmem_wr (c : Core) (r : Nat) (v : Word) : (c.wr r v).dmem = c.dmem := by
  unfold Core.wr; split <;> rfl
@[simp] theorem Core.tiles_wr (c : Core) (r : Nat) (v : Word) : (c.wr r v).tiles = c.tiles := by
  unfold Core.wr; split <;> rfl
@[simp] theorem Core.queues_wr (c : Core) (r : Nat) (v : Word) : (c.wr r v).queues = c.queues := by
  unfold Core.wr; split <;> rfl
@[simp] theorem Core.acc_wr (c : Core) (r : Nat) (v : Word) : (c.wr r v).acc = c.acc := by
  unfold Core.wr; split <;> rfl
@[simp] theorem Core.live_wr (c : Core) (r : Nat) (v : Word) : (c.wr r v).live = c.live := by
  unfold Core.wr; split <;> rfl
@[simp] theorem Core.flags_wr (c : Core) (r : Nat) (v : Word) : (c.wr r v).flags = c.flags := by
  unfold Core.wr; split <;> rfl
@[simp] theorem Core.lost_wr (c : Core) (r : Nat) (v : Word) : (c.wr r v).lost = c.lost := by
  unfold Core.wr; split <;> rfl
@[simp] theorem Core.fpstat_wr (c : Core) (r : Nat) (v : Word) : (c.wr r v).fpstat = c.fpstat := by
  unfold Core.wr; split <;> rfl
@[simp] theorem Core.ctimeout_wr (c : Core) (r : Nat) (v : Word) : (c.wr r v).ctimeout = c.ctimeout := by
  unfold Core.wr; split <;> rfl
@[simp] theorem Core.trapVec_wr (c : Core) (r : Nat) (v : Word) : (c.wr r v).trapVec = c.trapVec := by
  unfold Core.wr; split <;> rfl
@[simp] theorem Core.trapCause_wr (c : Core) (r : Nat) (v : Word) : (c.wr r v).trapCause = c.trapCause := by
  unfold Core.wr; split <;> rfl
@[simp] theorem Core.trapPc_wr (c : Core) (r : Nat) (v : Word) : (c.wr r v).trapPc = c.trapPc := by
  unfold Core.wr; split <;> rfl
@[simp] theorem Core.trapAddr_wr (c : Core) (r : Nat) (v : Word) : (c.wr r v).trapAddr = c.trapAddr := by
  unfold Core.wr; split <;> rfl
@[simp] theorem Core.cycles_wr (c : Core) (r : Nat) (v : Word) : (c.wr r v).cycles = c.cycles := by
  unfold Core.wr; split <;> rfl
@[simp] theorem Core.cycleHi_wr (c : Core) (r : Nat) (v : Word) : (c.wr r v).cycleHi = c.cycleHi := by
  unfold Core.wr; split <;> rfl
@[simp] theorem Core.discSel_wr (c : Core) (r : Nat) (v : Word) : (c.wr r v).discSel = c.discSel := by
  unfold Core.wr; split <;> rfl
@[simp] theorem Core.trapMode_wr (c : Core) (r : Nat) (v : Word) : (c.wr r v).trapMode = c.trapMode := by
  unfold Core.wr; split <;> rfl
@[simp] theorem Core.trapLen_wr (c : Core) (r : Nat) (v : Word) : (c.wr r v).trapLen = c.trapLen := by
  unfold Core.wr; split <;> rfl
@[simp] theorem Core.inflight_wr (c : Core) (r : Nat) (v : Word) : (c.wr r v).inflight = c.inflight := by
  unfold Core.wr; split <;> rfl
@[simp] theorem Core.stall_wr (c : Core) (r : Nat) (v : Word) : (c.wr r v).stall = c.stall := by
  unfold Core.wr; split <;> rfl
@[simp] theorem Core.ending_wr (c : Core) (r : Nat) (v : Word) : (c.wr r v).ending = c.ending := by
  unfold Core.wr; split <;> rfl
@[simp] theorem Core.icache_wr (c : Core) (r : Nat) (v : Word) : (c.wr r v).icache = c.icache := by
  unfold Core.wr; split <;> rfl
@[simp] theorem Core.task_wr (c : Core) (r : Nat) (v : Word) : (c.wr r v).task = c.task := by
  unfold Core.wr; split <;> rfl
@[simp] theorem Core.lastJob_wr (c : Core) (r : Nat) (v : Word) : (c.wr r v).lastJob = c.lastJob := by
  unfold Core.wr; split <;> rfl
@[simp] theorem Core.seq_wr (c : Core) (r : Nat) (v : Word) : (c.wr r v).seq = c.seq := by
  unfold Core.wr; split <;> rfl
@[simp] theorem Core.halted_wr (c : Core) (r : Nat) (v : Word) : (c.wr r v).halted = c.halted := by
  unfold Core.wr; split <;> rfl
@[simp] theorem Core.phys_wr (c : Core) (r : Nat) (v : Word) : (c.wr r v).phys = c.phys := by
  unfold Core.wr; split <;> rfl
@[simp] theorem Core.retired_wr (c : Core) (r : Nat) (v : Word) : (c.wr r v).retired = c.retired := by
  unfold Core.wr; split <;> rfl
@[simp] theorem Core.testing_wr (c : Core) (r : Nat) (v : Word) : (c.wr r v).testing = c.testing := by
  unfold Core.wr; split <;> rfl
@[simp] theorem Core.drained_wr (c : Core) (r : Nat) (v : Word) : (c.wr r v).drained = c.drained := by
  unfold Core.wr; split <;> rfl
@[simp] theorem Core.ucodeB_wr (c : Core) (r : Nat) (v : Word) : (c.wr r v).ucodeB = c.ucodeB := by
  unfold Core.wr; split <;> rfl
@[simp] theorem Core.paidClass_wr (c : Core) (r : Nat) (v : Word) : (c.wr r v).paidClass = c.paidClass := by
  unfold Core.wr; split <;> rfl

@[simp] theorem Core.pc_wrPair (c : Core) (r v : Nat) : (c.wrPair r v).pc = c.pc := by simp [Core.wrPair]
@[simp] theorem Core.dmem_wrPair (c : Core) (r v : Nat) : (c.wrPair r v).dmem = c.dmem := by simp [Core.wrPair]
@[simp] theorem Core.tiles_wrPair (c : Core) (r v : Nat) : (c.wrPair r v).tiles = c.tiles := by simp [Core.wrPair]
@[simp] theorem Core.queues_wrPair (c : Core) (r v : Nat) : (c.wrPair r v).queues = c.queues := by simp [Core.wrPair]
@[simp] theorem Core.acc_wrPair (c : Core) (r v : Nat) : (c.wrPair r v).acc = c.acc := by simp [Core.wrPair]
@[simp] theorem Core.live_wrPair (c : Core) (r v : Nat) : (c.wrPair r v).live = c.live := by simp [Core.wrPair]
@[simp] theorem Core.flags_wrPair (c : Core) (r v : Nat) : (c.wrPair r v).flags = c.flags := by simp [Core.wrPair]
@[simp] theorem Core.lost_wrPair (c : Core) (r v : Nat) : (c.wrPair r v).lost = c.lost := by simp [Core.wrPair]
@[simp] theorem Core.fpstat_wrPair (c : Core) (r v : Nat) : (c.wrPair r v).fpstat = c.fpstat := by simp [Core.wrPair]
@[simp] theorem Core.ctimeout_wrPair (c : Core) (r v : Nat) : (c.wrPair r v).ctimeout = c.ctimeout := by simp [Core.wrPair]
@[simp] theorem Core.trapVec_wrPair (c : Core) (r v : Nat) : (c.wrPair r v).trapVec = c.trapVec := by simp [Core.wrPair]
@[simp] theorem Core.trapCause_wrPair (c : Core) (r v : Nat) : (c.wrPair r v).trapCause = c.trapCause := by simp [Core.wrPair]
@[simp] theorem Core.trapPc_wrPair (c : Core) (r v : Nat) : (c.wrPair r v).trapPc = c.trapPc := by simp [Core.wrPair]
@[simp] theorem Core.trapAddr_wrPair (c : Core) (r v : Nat) : (c.wrPair r v).trapAddr = c.trapAddr := by simp [Core.wrPair]
@[simp] theorem Core.cycles_wrPair (c : Core) (r v : Nat) : (c.wrPair r v).cycles = c.cycles := by simp [Core.wrPair]
@[simp] theorem Core.cycleHi_wrPair (c : Core) (r v : Nat) : (c.wrPair r v).cycleHi = c.cycleHi := by simp [Core.wrPair]
@[simp] theorem Core.discSel_wrPair (c : Core) (r v : Nat) : (c.wrPair r v).discSel = c.discSel := by simp [Core.wrPair]
@[simp] theorem Core.trapMode_wrPair (c : Core) (r v : Nat) : (c.wrPair r v).trapMode = c.trapMode := by simp [Core.wrPair]
@[simp] theorem Core.trapLen_wrPair (c : Core) (r v : Nat) : (c.wrPair r v).trapLen = c.trapLen := by simp [Core.wrPair]
@[simp] theorem Core.inflight_wrPair (c : Core) (r v : Nat) : (c.wrPair r v).inflight = c.inflight := by simp [Core.wrPair]
@[simp] theorem Core.stall_wrPair (c : Core) (r v : Nat) : (c.wrPair r v).stall = c.stall := by simp [Core.wrPair]
@[simp] theorem Core.ending_wrPair (c : Core) (r v : Nat) : (c.wrPair r v).ending = c.ending := by simp [Core.wrPair]
@[simp] theorem Core.icache_wrPair (c : Core) (r v : Nat) : (c.wrPair r v).icache = c.icache := by simp [Core.wrPair]
@[simp] theorem Core.task_wrPair (c : Core) (r v : Nat) : (c.wrPair r v).task = c.task := by simp [Core.wrPair]
@[simp] theorem Core.lastJob_wrPair (c : Core) (r v : Nat) : (c.wrPair r v).lastJob = c.lastJob := by simp [Core.wrPair]
@[simp] theorem Core.seq_wrPair (c : Core) (r v : Nat) : (c.wrPair r v).seq = c.seq := by simp [Core.wrPair]
@[simp] theorem Core.halted_wrPair (c : Core) (r v : Nat) : (c.wrPair r v).halted = c.halted := by simp [Core.wrPair]
@[simp] theorem Core.phys_wrPair (c : Core) (r v : Nat) : (c.wrPair r v).phys = c.phys := by simp [Core.wrPair]
@[simp] theorem Core.retired_wrPair (c : Core) (r v : Nat) : (c.wrPair r v).retired = c.retired := by simp [Core.wrPair]
@[simp] theorem Core.testing_wrPair (c : Core) (r v : Nat) : (c.wrPair r v).testing = c.testing := by simp [Core.wrPair]
@[simp] theorem Core.drained_wrPair (c : Core) (r v : Nat) : (c.wrPair r v).drained = c.drained := by simp [Core.wrPair]
@[simp] theorem Core.ucodeB_wrPair (c : Core) (r v : Nat) : (c.wrPair r v).ucodeB = c.ucodeB := by simp [Core.wrPair]
@[simp] theorem Core.paidClass_wrPair (c : Core) (r v : Nat) : (c.wrPair r v).paidClass = c.paidClass := by simp [Core.wrPair]

@[simp] theorem Core.sregs_setQueue (c : Core) (q : Nat) (x : Queue) : (c.setQueue q x).sregs = c.sregs := rfl
@[simp] theorem Core.pc_setQueue (c : Core) (q : Nat) (x : Queue) : (c.setQueue q x).pc = c.pc := rfl
@[simp] theorem Core.dmem_setQueue (c : Core) (q : Nat) (x : Queue) : (c.setQueue q x).dmem = c.dmem := rfl
@[simp] theorem Core.tiles_setQueue (c : Core) (q : Nat) (x : Queue) : (c.setQueue q x).tiles = c.tiles := rfl
@[simp] theorem Core.acc_setQueue (c : Core) (q : Nat) (x : Queue) : (c.setQueue q x).acc = c.acc := rfl
@[simp] theorem Core.live_setQueue (c : Core) (q : Nat) (x : Queue) : (c.setQueue q x).live = c.live := rfl
@[simp] theorem Core.flags_setQueue (c : Core) (q : Nat) (x : Queue) : (c.setQueue q x).flags = c.flags := rfl
@[simp] theorem Core.lost_setQueue (c : Core) (q : Nat) (x : Queue) : (c.setQueue q x).lost = c.lost := rfl
@[simp] theorem Core.fpstat_setQueue (c : Core) (q : Nat) (x : Queue) : (c.setQueue q x).fpstat = c.fpstat := rfl
@[simp] theorem Core.ctimeout_setQueue (c : Core) (q : Nat) (x : Queue) : (c.setQueue q x).ctimeout = c.ctimeout := rfl
@[simp] theorem Core.trapVec_setQueue (c : Core) (q : Nat) (x : Queue) : (c.setQueue q x).trapVec = c.trapVec := rfl
@[simp] theorem Core.trapCause_setQueue (c : Core) (q : Nat) (x : Queue) : (c.setQueue q x).trapCause = c.trapCause := rfl
@[simp] theorem Core.trapPc_setQueue (c : Core) (q : Nat) (x : Queue) : (c.setQueue q x).trapPc = c.trapPc := rfl
@[simp] theorem Core.trapAddr_setQueue (c : Core) (q : Nat) (x : Queue) : (c.setQueue q x).trapAddr = c.trapAddr := rfl
@[simp] theorem Core.cycles_setQueue (c : Core) (q : Nat) (x : Queue) : (c.setQueue q x).cycles = c.cycles := rfl
@[simp] theorem Core.cycleHi_setQueue (c : Core) (q : Nat) (x : Queue) : (c.setQueue q x).cycleHi = c.cycleHi := rfl
@[simp] theorem Core.discSel_setQueue (c : Core) (q : Nat) (x : Queue) : (c.setQueue q x).discSel = c.discSel := rfl
@[simp] theorem Core.trapMode_setQueue (c : Core) (q : Nat) (x : Queue) : (c.setQueue q x).trapMode = c.trapMode := rfl
@[simp] theorem Core.trapLen_setQueue (c : Core) (q : Nat) (x : Queue) : (c.setQueue q x).trapLen = c.trapLen := rfl
@[simp] theorem Core.inflight_setQueue (c : Core) (q : Nat) (x : Queue) : (c.setQueue q x).inflight = c.inflight := rfl
@[simp] theorem Core.stall_setQueue (c : Core) (q : Nat) (x : Queue) : (c.setQueue q x).stall = c.stall := rfl
@[simp] theorem Core.ending_setQueue (c : Core) (q : Nat) (x : Queue) : (c.setQueue q x).ending = c.ending := rfl
@[simp] theorem Core.icache_setQueue (c : Core) (q : Nat) (x : Queue) : (c.setQueue q x).icache = c.icache := rfl
@[simp] theorem Core.task_setQueue (c : Core) (q : Nat) (x : Queue) : (c.setQueue q x).task = c.task := rfl
@[simp] theorem Core.lastJob_setQueue (c : Core) (q : Nat) (x : Queue) : (c.setQueue q x).lastJob = c.lastJob := rfl
@[simp] theorem Core.seq_setQueue (c : Core) (q : Nat) (x : Queue) : (c.setQueue q x).seq = c.seq := rfl
@[simp] theorem Core.halted_setQueue (c : Core) (q : Nat) (x : Queue) : (c.setQueue q x).halted = c.halted := rfl
@[simp] theorem Core.phys_setQueue (c : Core) (q : Nat) (x : Queue) : (c.setQueue q x).phys = c.phys := rfl
@[simp] theorem Core.retired_setQueue (c : Core) (q : Nat) (x : Queue) : (c.setQueue q x).retired = c.retired := rfl
@[simp] theorem Core.testing_setQueue (c : Core) (q : Nat) (x : Queue) : (c.setQueue q x).testing = c.testing := rfl
@[simp] theorem Core.drained_setQueue (c : Core) (q : Nat) (x : Queue) : (c.setQueue q x).drained = c.drained := rfl
@[simp] theorem Core.ucodeB_setQueue (c : Core) (q : Nat) (x : Queue) : (c.setQueue q x).ucodeB = c.ucodeB := rfl
@[simp] theorem Core.paidClass_setQueue (c : Core) (q : Nat) (x : Queue) : (c.setQueue q x).paidClass = c.paidClass := rfl

@[simp] theorem Core.sregs_pop (c : Core) (q : Nat) : (c.pop q).sregs = c.sregs := rfl
@[simp] theorem Core.pc_pop (c : Core) (q : Nat) : (c.pop q).pc = c.pc := rfl
@[simp] theorem Core.dmem_pop (c : Core) (q : Nat) : (c.pop q).dmem = c.dmem := rfl
@[simp] theorem Core.tiles_pop (c : Core) (q : Nat) : (c.pop q).tiles = c.tiles := rfl
@[simp] theorem Core.acc_pop (c : Core) (q : Nat) : (c.pop q).acc = c.acc := rfl
@[simp] theorem Core.live_pop (c : Core) (q : Nat) : (c.pop q).live = c.live := rfl
@[simp] theorem Core.flags_pop (c : Core) (q : Nat) : (c.pop q).flags = c.flags := rfl
@[simp] theorem Core.lost_pop (c : Core) (q : Nat) : (c.pop q).lost = c.lost := rfl
@[simp] theorem Core.fpstat_pop (c : Core) (q : Nat) : (c.pop q).fpstat = c.fpstat := rfl
@[simp] theorem Core.ctimeout_pop (c : Core) (q : Nat) : (c.pop q).ctimeout = c.ctimeout := rfl
@[simp] theorem Core.trapVec_pop (c : Core) (q : Nat) : (c.pop q).trapVec = c.trapVec := rfl
@[simp] theorem Core.trapCause_pop (c : Core) (q : Nat) : (c.pop q).trapCause = c.trapCause := rfl
@[simp] theorem Core.trapPc_pop (c : Core) (q : Nat) : (c.pop q).trapPc = c.trapPc := rfl
@[simp] theorem Core.trapAddr_pop (c : Core) (q : Nat) : (c.pop q).trapAddr = c.trapAddr := rfl
@[simp] theorem Core.cycles_pop (c : Core) (q : Nat) : (c.pop q).cycles = c.cycles := rfl
@[simp] theorem Core.cycleHi_pop (c : Core) (q : Nat) : (c.pop q).cycleHi = c.cycleHi := rfl
@[simp] theorem Core.discSel_pop (c : Core) (q : Nat) : (c.pop q).discSel = c.discSel := rfl
@[simp] theorem Core.trapMode_pop (c : Core) (q : Nat) : (c.pop q).trapMode = c.trapMode := rfl
@[simp] theorem Core.trapLen_pop (c : Core) (q : Nat) : (c.pop q).trapLen = c.trapLen := rfl
@[simp] theorem Core.inflight_pop (c : Core) (q : Nat) : (c.pop q).inflight = c.inflight := rfl
@[simp] theorem Core.stall_pop (c : Core) (q : Nat) : (c.pop q).stall = c.stall := rfl
@[simp] theorem Core.ending_pop (c : Core) (q : Nat) : (c.pop q).ending = c.ending := rfl
@[simp] theorem Core.icache_pop (c : Core) (q : Nat) : (c.pop q).icache = c.icache := rfl
@[simp] theorem Core.task_pop (c : Core) (q : Nat) : (c.pop q).task = c.task := rfl
@[simp] theorem Core.lastJob_pop (c : Core) (q : Nat) : (c.pop q).lastJob = c.lastJob := rfl
@[simp] theorem Core.seq_pop (c : Core) (q : Nat) : (c.pop q).seq = c.seq := rfl
@[simp] theorem Core.halted_pop (c : Core) (q : Nat) : (c.pop q).halted = c.halted := rfl
@[simp] theorem Core.phys_pop (c : Core) (q : Nat) : (c.pop q).phys = c.phys := rfl
@[simp] theorem Core.retired_pop (c : Core) (q : Nat) : (c.pop q).retired = c.retired := rfl
@[simp] theorem Core.testing_pop (c : Core) (q : Nat) : (c.pop q).testing = c.testing := rfl
@[simp] theorem Core.drained_pop (c : Core) (q : Nat) : (c.pop q).drained = c.drained := rfl
@[simp] theorem Core.ucodeB_pop (c : Core) (q : Nat) : (c.pop q).ucodeB = c.ucodeB := rfl
@[simp] theorem Core.paidClass_pop (c : Core) (q : Nat) : (c.pop q).paidClass = c.paidClass := rfl

@[simp] theorem Core.sregs_push (c : Core) (q : Nat) (m : Memory) (t : Word) : (c.push q m t).sregs = c.sregs := rfl
@[simp] theorem Core.pc_push (c : Core) (q : Nat) (m : Memory) (t : Word) : (c.push q m t).pc = c.pc := rfl
@[simp] theorem Core.dmem_push (c : Core) (q : Nat) (m : Memory) (t : Word) : (c.push q m t).dmem = c.dmem := rfl
@[simp] theorem Core.acc_push (c : Core) (q : Nat) (m : Memory) (t : Word) : (c.push q m t).acc = c.acc := rfl
@[simp] theorem Core.live_push (c : Core) (q : Nat) (m : Memory) (t : Word) : (c.push q m t).live = c.live := rfl
@[simp] theorem Core.flags_push (c : Core) (q : Nat) (m : Memory) (t : Word) : (c.push q m t).flags = c.flags := rfl
@[simp] theorem Core.lost_push (c : Core) (q : Nat) (m : Memory) (t : Word) : (c.push q m t).lost = c.lost := rfl
@[simp] theorem Core.fpstat_push (c : Core) (q : Nat) (m : Memory) (t : Word) : (c.push q m t).fpstat = c.fpstat := rfl
@[simp] theorem Core.ctimeout_push (c : Core) (q : Nat) (m : Memory) (t : Word) : (c.push q m t).ctimeout = c.ctimeout := rfl
@[simp] theorem Core.trapVec_push (c : Core) (q : Nat) (m : Memory) (t : Word) : (c.push q m t).trapVec = c.trapVec := rfl
@[simp] theorem Core.trapCause_push (c : Core) (q : Nat) (m : Memory) (t : Word) : (c.push q m t).trapCause = c.trapCause := rfl
@[simp] theorem Core.trapPc_push (c : Core) (q : Nat) (m : Memory) (t : Word) : (c.push q m t).trapPc = c.trapPc := rfl
@[simp] theorem Core.trapAddr_push (c : Core) (q : Nat) (m : Memory) (t : Word) : (c.push q m t).trapAddr = c.trapAddr := rfl
@[simp] theorem Core.cycles_push (c : Core) (q : Nat) (m : Memory) (t : Word) : (c.push q m t).cycles = c.cycles := rfl
@[simp] theorem Core.cycleHi_push (c : Core) (q : Nat) (m : Memory) (t : Word) : (c.push q m t).cycleHi = c.cycleHi := rfl
@[simp] theorem Core.discSel_push (c : Core) (q : Nat) (m : Memory) (t : Word) : (c.push q m t).discSel = c.discSel := rfl
@[simp] theorem Core.trapMode_push (c : Core) (q : Nat) (m : Memory) (t : Word) : (c.push q m t).trapMode = c.trapMode := rfl
@[simp] theorem Core.trapLen_push (c : Core) (q : Nat) (m : Memory) (t : Word) : (c.push q m t).trapLen = c.trapLen := rfl
@[simp] theorem Core.inflight_push (c : Core) (q : Nat) (m : Memory) (t : Word) : (c.push q m t).inflight = c.inflight := rfl
@[simp] theorem Core.stall_push (c : Core) (q : Nat) (m : Memory) (t : Word) : (c.push q m t).stall = c.stall := rfl
@[simp] theorem Core.ending_push (c : Core) (q : Nat) (m : Memory) (t : Word) : (c.push q m t).ending = c.ending := rfl
@[simp] theorem Core.icache_push (c : Core) (q : Nat) (m : Memory) (t : Word) : (c.push q m t).icache = c.icache := rfl
@[simp] theorem Core.task_push (c : Core) (q : Nat) (m : Memory) (t : Word) : (c.push q m t).task = c.task := rfl
@[simp] theorem Core.lastJob_push (c : Core) (q : Nat) (m : Memory) (t : Word) : (c.push q m t).lastJob = c.lastJob := rfl
@[simp] theorem Core.seq_push (c : Core) (q : Nat) (m : Memory) (t : Word) : (c.push q m t).seq = c.seq := rfl
@[simp] theorem Core.halted_push (c : Core) (q : Nat) (m : Memory) (t : Word) : (c.push q m t).halted = c.halted := rfl
@[simp] theorem Core.phys_push (c : Core) (q : Nat) (m : Memory) (t : Word) : (c.push q m t).phys = c.phys := rfl
@[simp] theorem Core.retired_push (c : Core) (q : Nat) (m : Memory) (t : Word) : (c.push q m t).retired = c.retired := rfl
@[simp] theorem Core.testing_push (c : Core) (q : Nat) (m : Memory) (t : Word) : (c.push q m t).testing = c.testing := rfl
@[simp] theorem Core.drained_push (c : Core) (q : Nat) (m : Memory) (t : Word) : (c.push q m t).drained = c.drained := rfl
@[simp] theorem Core.ucodeB_push (c : Core) (q : Nat) (m : Memory) (t : Word) : (c.push q m t).ucodeB = c.ucodeB := rfl
@[simp] theorem Core.paidClass_push (c : Core) (q : Nat) (m : Memory) (t : Word) : (c.push q m t).paidClass = c.paidClass := rfl

@[simp] theorem Core.sregs_orFp (c : Core) (f : FpFlags) : (c.orFp f).sregs = c.sregs := rfl
@[simp] theorem Core.pc_orFp (c : Core) (f : FpFlags) : (c.orFp f).pc = c.pc := rfl
@[simp] theorem Core.dmem_orFp (c : Core) (f : FpFlags) : (c.orFp f).dmem = c.dmem := rfl
@[simp] theorem Core.tiles_orFp (c : Core) (f : FpFlags) : (c.orFp f).tiles = c.tiles := rfl
@[simp] theorem Core.queues_orFp (c : Core) (f : FpFlags) : (c.orFp f).queues = c.queues := rfl
@[simp] theorem Core.acc_orFp (c : Core) (f : FpFlags) : (c.orFp f).acc = c.acc := rfl
@[simp] theorem Core.live_orFp (c : Core) (f : FpFlags) : (c.orFp f).live = c.live := rfl
@[simp] theorem Core.flags_orFp (c : Core) (f : FpFlags) : (c.orFp f).flags = c.flags := rfl
@[simp] theorem Core.lost_orFp (c : Core) (f : FpFlags) : (c.orFp f).lost = c.lost := rfl
@[simp] theorem Core.ctimeout_orFp (c : Core) (f : FpFlags) : (c.orFp f).ctimeout = c.ctimeout := rfl
@[simp] theorem Core.trapVec_orFp (c : Core) (f : FpFlags) : (c.orFp f).trapVec = c.trapVec := rfl
@[simp] theorem Core.trapCause_orFp (c : Core) (f : FpFlags) : (c.orFp f).trapCause = c.trapCause := rfl
@[simp] theorem Core.trapPc_orFp (c : Core) (f : FpFlags) : (c.orFp f).trapPc = c.trapPc := rfl
@[simp] theorem Core.trapAddr_orFp (c : Core) (f : FpFlags) : (c.orFp f).trapAddr = c.trapAddr := rfl
@[simp] theorem Core.cycles_orFp (c : Core) (f : FpFlags) : (c.orFp f).cycles = c.cycles := rfl
@[simp] theorem Core.cycleHi_orFp (c : Core) (f : FpFlags) : (c.orFp f).cycleHi = c.cycleHi := rfl
@[simp] theorem Core.discSel_orFp (c : Core) (f : FpFlags) : (c.orFp f).discSel = c.discSel := rfl
@[simp] theorem Core.trapMode_orFp (c : Core) (f : FpFlags) : (c.orFp f).trapMode = c.trapMode := rfl
@[simp] theorem Core.trapLen_orFp (c : Core) (f : FpFlags) : (c.orFp f).trapLen = c.trapLen := rfl
@[simp] theorem Core.inflight_orFp (c : Core) (f : FpFlags) : (c.orFp f).inflight = c.inflight := rfl
@[simp] theorem Core.stall_orFp (c : Core) (f : FpFlags) : (c.orFp f).stall = c.stall := rfl
@[simp] theorem Core.ending_orFp (c : Core) (f : FpFlags) : (c.orFp f).ending = c.ending := rfl
@[simp] theorem Core.icache_orFp (c : Core) (f : FpFlags) : (c.orFp f).icache = c.icache := rfl
@[simp] theorem Core.task_orFp (c : Core) (f : FpFlags) : (c.orFp f).task = c.task := rfl
@[simp] theorem Core.lastJob_orFp (c : Core) (f : FpFlags) : (c.orFp f).lastJob = c.lastJob := rfl
@[simp] theorem Core.seq_orFp (c : Core) (f : FpFlags) : (c.orFp f).seq = c.seq := rfl
@[simp] theorem Core.halted_orFp (c : Core) (f : FpFlags) : (c.orFp f).halted = c.halted := rfl
@[simp] theorem Core.phys_orFp (c : Core) (f : FpFlags) : (c.orFp f).phys = c.phys := rfl
@[simp] theorem Core.retired_orFp (c : Core) (f : FpFlags) : (c.orFp f).retired = c.retired := rfl
@[simp] theorem Core.testing_orFp (c : Core) (f : FpFlags) : (c.orFp f).testing = c.testing := rfl
@[simp] theorem Core.drained_orFp (c : Core) (f : FpFlags) : (c.orFp f).drained = c.drained := rfl
@[simp] theorem Core.ucodeB_orFp (c : Core) (f : FpFlags) : (c.orFp f).ucodeB = c.ucodeB := rfl
@[simp] theorem Core.paidClass_orFp (c : Core) (f : FpFlags) : (c.orFp f).paidClass = c.paidClass := rfl

@[simp] theorem Core.sregs_setBank (c : Core) (n : Nat) (b : AccBank) : (c.setBank n b).sregs = c.sregs := rfl
@[simp] theorem Core.pc_setBank (c : Core) (n : Nat) (b : AccBank) : (c.setBank n b).pc = c.pc := rfl
@[simp] theorem Core.dmem_setBank (c : Core) (n : Nat) (b : AccBank) : (c.setBank n b).dmem = c.dmem := rfl
@[simp] theorem Core.tiles_setBank (c : Core) (n : Nat) (b : AccBank) : (c.setBank n b).tiles = c.tiles := rfl
@[simp] theorem Core.queues_setBank (c : Core) (n : Nat) (b : AccBank) : (c.setBank n b).queues = c.queues := rfl
@[simp] theorem Core.live_setBank (c : Core) (n : Nat) (b : AccBank) : (c.setBank n b).live = c.live := rfl
@[simp] theorem Core.flags_setBank (c : Core) (n : Nat) (b : AccBank) : (c.setBank n b).flags = c.flags := rfl
@[simp] theorem Core.lost_setBank (c : Core) (n : Nat) (b : AccBank) : (c.setBank n b).lost = c.lost := rfl
@[simp] theorem Core.fpstat_setBank (c : Core) (n : Nat) (b : AccBank) : (c.setBank n b).fpstat = c.fpstat := rfl
@[simp] theorem Core.ctimeout_setBank (c : Core) (n : Nat) (b : AccBank) : (c.setBank n b).ctimeout = c.ctimeout := rfl
@[simp] theorem Core.trapVec_setBank (c : Core) (n : Nat) (b : AccBank) : (c.setBank n b).trapVec = c.trapVec := rfl
@[simp] theorem Core.trapCause_setBank (c : Core) (n : Nat) (b : AccBank) : (c.setBank n b).trapCause = c.trapCause := rfl
@[simp] theorem Core.trapPc_setBank (c : Core) (n : Nat) (b : AccBank) : (c.setBank n b).trapPc = c.trapPc := rfl
@[simp] theorem Core.trapAddr_setBank (c : Core) (n : Nat) (b : AccBank) : (c.setBank n b).trapAddr = c.trapAddr := rfl
@[simp] theorem Core.cycles_setBank (c : Core) (n : Nat) (b : AccBank) : (c.setBank n b).cycles = c.cycles := rfl
@[simp] theorem Core.cycleHi_setBank (c : Core) (n : Nat) (b : AccBank) : (c.setBank n b).cycleHi = c.cycleHi := rfl
@[simp] theorem Core.discSel_setBank (c : Core) (n : Nat) (b : AccBank) : (c.setBank n b).discSel = c.discSel := rfl
@[simp] theorem Core.trapMode_setBank (c : Core) (n : Nat) (b : AccBank) : (c.setBank n b).trapMode = c.trapMode := rfl
@[simp] theorem Core.trapLen_setBank (c : Core) (n : Nat) (b : AccBank) : (c.setBank n b).trapLen = c.trapLen := rfl
@[simp] theorem Core.inflight_setBank (c : Core) (n : Nat) (b : AccBank) : (c.setBank n b).inflight = c.inflight := rfl
@[simp] theorem Core.stall_setBank (c : Core) (n : Nat) (b : AccBank) : (c.setBank n b).stall = c.stall := rfl
@[simp] theorem Core.ending_setBank (c : Core) (n : Nat) (b : AccBank) : (c.setBank n b).ending = c.ending := rfl
@[simp] theorem Core.icache_setBank (c : Core) (n : Nat) (b : AccBank) : (c.setBank n b).icache = c.icache := rfl
@[simp] theorem Core.task_setBank (c : Core) (n : Nat) (b : AccBank) : (c.setBank n b).task = c.task := rfl
@[simp] theorem Core.lastJob_setBank (c : Core) (n : Nat) (b : AccBank) : (c.setBank n b).lastJob = c.lastJob := rfl
@[simp] theorem Core.seq_setBank (c : Core) (n : Nat) (b : AccBank) : (c.setBank n b).seq = c.seq := rfl
@[simp] theorem Core.halted_setBank (c : Core) (n : Nat) (b : AccBank) : (c.setBank n b).halted = c.halted := rfl
@[simp] theorem Core.phys_setBank (c : Core) (n : Nat) (b : AccBank) : (c.setBank n b).phys = c.phys := rfl
@[simp] theorem Core.retired_setBank (c : Core) (n : Nat) (b : AccBank) : (c.setBank n b).retired = c.retired := rfl
@[simp] theorem Core.testing_setBank (c : Core) (n : Nat) (b : AccBank) : (c.setBank n b).testing = c.testing := rfl
@[simp] theorem Core.drained_setBank (c : Core) (n : Nat) (b : AccBank) : (c.setBank n b).drained = c.drained := rfl
@[simp] theorem Core.ucodeB_setBank (c : Core) (n : Nat) (b : AccBank) : (c.setBank n b).ucodeB = c.ucodeB := rfl
@[simp] theorem Core.paidClass_setBank (c : Core) (n : Nat) (b : AccBank) : (c.setBank n b).paidClass = c.paidClass := rfl

@[simp] theorem Core.sregs_start (c : Core) (o : DOp) (f : Option Nat) : (c.start o f).sregs = c.sregs := rfl
@[simp] theorem Core.pc_start (c : Core) (o : DOp) (f : Option Nat) : (c.start o f).pc = c.pc := rfl
@[simp] theorem Core.dmem_start (c : Core) (o : DOp) (f : Option Nat) : (c.start o f).dmem = c.dmem := rfl
@[simp] theorem Core.tiles_start (c : Core) (o : DOp) (f : Option Nat) : (c.start o f).tiles = c.tiles := rfl
@[simp] theorem Core.queues_start (c : Core) (o : DOp) (f : Option Nat) : (c.start o f).queues = c.queues := rfl
@[simp] theorem Core.acc_start (c : Core) (o : DOp) (f : Option Nat) : (c.start o f).acc = c.acc := rfl
@[simp] theorem Core.live_start (c : Core) (o : DOp) (f : Option Nat) : (c.start o f).live = c.live := rfl
@[simp] theorem Core.flags_start (c : Core) (o : DOp) (f : Option Nat) : (c.start o f).flags = c.flags := rfl
@[simp] theorem Core.lost_start (c : Core) (o : DOp) (f : Option Nat) : (c.start o f).lost = c.lost := rfl
@[simp] theorem Core.fpstat_start (c : Core) (o : DOp) (f : Option Nat) : (c.start o f).fpstat = c.fpstat := rfl
@[simp] theorem Core.ctimeout_start (c : Core) (o : DOp) (f : Option Nat) : (c.start o f).ctimeout = c.ctimeout := rfl
@[simp] theorem Core.trapVec_start (c : Core) (o : DOp) (f : Option Nat) : (c.start o f).trapVec = c.trapVec := rfl
@[simp] theorem Core.trapCause_start (c : Core) (o : DOp) (f : Option Nat) : (c.start o f).trapCause = c.trapCause := rfl
@[simp] theorem Core.trapPc_start (c : Core) (o : DOp) (f : Option Nat) : (c.start o f).trapPc = c.trapPc := rfl
@[simp] theorem Core.trapAddr_start (c : Core) (o : DOp) (f : Option Nat) : (c.start o f).trapAddr = c.trapAddr := rfl
@[simp] theorem Core.cycles_start (c : Core) (o : DOp) (f : Option Nat) : (c.start o f).cycles = c.cycles := rfl
@[simp] theorem Core.cycleHi_start (c : Core) (o : DOp) (f : Option Nat) : (c.start o f).cycleHi = c.cycleHi := rfl
@[simp] theorem Core.discSel_start (c : Core) (o : DOp) (f : Option Nat) : (c.start o f).discSel = c.discSel := rfl
@[simp] theorem Core.trapMode_start (c : Core) (o : DOp) (f : Option Nat) : (c.start o f).trapMode = c.trapMode := rfl
@[simp] theorem Core.trapLen_start (c : Core) (o : DOp) (f : Option Nat) : (c.start o f).trapLen = c.trapLen := rfl
@[simp] theorem Core.stall_start (c : Core) (o : DOp) (f : Option Nat) : (c.start o f).stall = c.stall := rfl
@[simp] theorem Core.ending_start (c : Core) (o : DOp) (f : Option Nat) : (c.start o f).ending = c.ending := rfl
@[simp] theorem Core.icache_start (c : Core) (o : DOp) (f : Option Nat) : (c.start o f).icache = c.icache := rfl
@[simp] theorem Core.task_start (c : Core) (o : DOp) (f : Option Nat) : (c.start o f).task = c.task := rfl
@[simp] theorem Core.lastJob_start (c : Core) (o : DOp) (f : Option Nat) : (c.start o f).lastJob = c.lastJob := rfl
@[simp] theorem Core.seq_start (c : Core) (o : DOp) (f : Option Nat) : (c.start o f).seq = c.seq := rfl
@[simp] theorem Core.halted_start (c : Core) (o : DOp) (f : Option Nat) : (c.start o f).halted = c.halted := rfl
@[simp] theorem Core.phys_start (c : Core) (o : DOp) (f : Option Nat) : (c.start o f).phys = c.phys := rfl
@[simp] theorem Core.retired_start (c : Core) (o : DOp) (f : Option Nat) : (c.start o f).retired = c.retired := rfl
@[simp] theorem Core.testing_start (c : Core) (o : DOp) (f : Option Nat) : (c.start o f).testing = c.testing := rfl
@[simp] theorem Core.drained_start (c : Core) (o : DOp) (f : Option Nat) : (c.start o f).drained = c.drained := rfl
@[simp] theorem Core.ucodeB_start (c : Core) (o : DOp) (f : Option Nat) : (c.start o f).ucodeB = c.ucodeB := rfl
@[simp] theorem Core.paidClass_start (c : Core) (o : DOp) (f : Option Nat) : (c.start o f).paidClass = c.paidClass := rfl

@[simp] theorem Core.sregs_consume (c : Core) (w : BitVec 8) : (c.consume w).sregs = c.sregs := rfl
@[simp] theorem Core.pc_consume (c : Core) (w : BitVec 8) : (c.consume w).pc = c.pc := rfl
@[simp] theorem Core.dmem_consume (c : Core) (w : BitVec 8) : (c.consume w).dmem = c.dmem := rfl
@[simp] theorem Core.tiles_consume (c : Core) (w : BitVec 8) : (c.consume w).tiles = c.tiles := rfl
@[simp] theorem Core.queues_consume (c : Core) (w : BitVec 8) : (c.consume w).queues = c.queues := rfl
@[simp] theorem Core.acc_consume (c : Core) (w : BitVec 8) : (c.consume w).acc = c.acc := rfl
@[simp] theorem Core.live_consume (c : Core) (w : BitVec 8) : (c.consume w).live = c.live := rfl
@[simp] theorem Core.lost_consume (c : Core) (w : BitVec 8) : (c.consume w).lost = c.lost := rfl
@[simp] theorem Core.fpstat_consume (c : Core) (w : BitVec 8) : (c.consume w).fpstat = c.fpstat := rfl
@[simp] theorem Core.ctimeout_consume (c : Core) (w : BitVec 8) : (c.consume w).ctimeout = c.ctimeout := rfl
@[simp] theorem Core.trapVec_consume (c : Core) (w : BitVec 8) : (c.consume w).trapVec = c.trapVec := rfl
@[simp] theorem Core.trapCause_consume (c : Core) (w : BitVec 8) : (c.consume w).trapCause = c.trapCause := rfl
@[simp] theorem Core.trapPc_consume (c : Core) (w : BitVec 8) : (c.consume w).trapPc = c.trapPc := rfl
@[simp] theorem Core.trapAddr_consume (c : Core) (w : BitVec 8) : (c.consume w).trapAddr = c.trapAddr := rfl
@[simp] theorem Core.cycles_consume (c : Core) (w : BitVec 8) : (c.consume w).cycles = c.cycles := rfl
@[simp] theorem Core.cycleHi_consume (c : Core) (w : BitVec 8) : (c.consume w).cycleHi = c.cycleHi := rfl
@[simp] theorem Core.discSel_consume (c : Core) (w : BitVec 8) : (c.consume w).discSel = c.discSel := rfl
@[simp] theorem Core.trapMode_consume (c : Core) (w : BitVec 8) : (c.consume w).trapMode = c.trapMode := rfl
@[simp] theorem Core.trapLen_consume (c : Core) (w : BitVec 8) : (c.consume w).trapLen = c.trapLen := rfl
@[simp] theorem Core.inflight_consume (c : Core) (w : BitVec 8) : (c.consume w).inflight = c.inflight := rfl
@[simp] theorem Core.stall_consume (c : Core) (w : BitVec 8) : (c.consume w).stall = c.stall := rfl
@[simp] theorem Core.ending_consume (c : Core) (w : BitVec 8) : (c.consume w).ending = c.ending := rfl
@[simp] theorem Core.icache_consume (c : Core) (w : BitVec 8) : (c.consume w).icache = c.icache := rfl
@[simp] theorem Core.task_consume (c : Core) (w : BitVec 8) : (c.consume w).task = c.task := rfl
@[simp] theorem Core.lastJob_consume (c : Core) (w : BitVec 8) : (c.consume w).lastJob = c.lastJob := rfl
@[simp] theorem Core.seq_consume (c : Core) (w : BitVec 8) : (c.consume w).seq = c.seq := rfl
@[simp] theorem Core.halted_consume (c : Core) (w : BitVec 8) : (c.consume w).halted = c.halted := rfl
@[simp] theorem Core.phys_consume (c : Core) (w : BitVec 8) : (c.consume w).phys = c.phys := rfl
@[simp] theorem Core.retired_consume (c : Core) (w : BitVec 8) : (c.consume w).retired = c.retired := rfl
@[simp] theorem Core.testing_consume (c : Core) (w : BitVec 8) : (c.consume w).testing = c.testing := rfl
@[simp] theorem Core.drained_consume (c : Core) (w : BitVec 8) : (c.consume w).drained = c.drained := rfl
@[simp] theorem Core.ucodeB_consume (c : Core) (w : BitVec 8) : (c.consume w).ucodeB = c.ucodeB := rfl
@[simp] theorem Core.paidClass_consume (c : Core) (w : BitVec 8) : (c.consume w).paidClass = c.paidClass := rfl

@[simp] theorem Core.sregs_advance (c : Core) (w : BitVec 8) (n : Word) : (c.advance w n).sregs = c.sregs := rfl
@[simp] theorem Core.dmem_advance (c : Core) (w : BitVec 8) (n : Word) : (c.advance w n).dmem = c.dmem := rfl
@[simp] theorem Core.tiles_advance (c : Core) (w : BitVec 8) (n : Word) : (c.advance w n).tiles = c.tiles := rfl
@[simp] theorem Core.queues_advance (c : Core) (w : BitVec 8) (n : Word) : (c.advance w n).queues = c.queues := rfl
@[simp] theorem Core.acc_advance (c : Core) (w : BitVec 8) (n : Word) : (c.advance w n).acc = c.acc := rfl
@[simp] theorem Core.live_advance (c : Core) (w : BitVec 8) (n : Word) : (c.advance w n).live = c.live := rfl
@[simp] theorem Core.lost_advance (c : Core) (w : BitVec 8) (n : Word) : (c.advance w n).lost = c.lost := rfl
@[simp] theorem Core.fpstat_advance (c : Core) (w : BitVec 8) (n : Word) : (c.advance w n).fpstat = c.fpstat := rfl
@[simp] theorem Core.ctimeout_advance (c : Core) (w : BitVec 8) (n : Word) : (c.advance w n).ctimeout = c.ctimeout := rfl
@[simp] theorem Core.trapVec_advance (c : Core) (w : BitVec 8) (n : Word) : (c.advance w n).trapVec = c.trapVec := rfl
@[simp] theorem Core.trapCause_advance (c : Core) (w : BitVec 8) (n : Word) : (c.advance w n).trapCause = c.trapCause := rfl
@[simp] theorem Core.trapPc_advance (c : Core) (w : BitVec 8) (n : Word) : (c.advance w n).trapPc = c.trapPc := rfl
@[simp] theorem Core.trapAddr_advance (c : Core) (w : BitVec 8) (n : Word) : (c.advance w n).trapAddr = c.trapAddr := rfl
@[simp] theorem Core.cycles_advance (c : Core) (w : BitVec 8) (n : Word) : (c.advance w n).cycles = c.cycles := rfl
@[simp] theorem Core.cycleHi_advance (c : Core) (w : BitVec 8) (n : Word) : (c.advance w n).cycleHi = c.cycleHi := rfl
@[simp] theorem Core.discSel_advance (c : Core) (w : BitVec 8) (n : Word) : (c.advance w n).discSel = c.discSel := rfl
@[simp] theorem Core.trapMode_advance (c : Core) (w : BitVec 8) (n : Word) : (c.advance w n).trapMode = c.trapMode := rfl
@[simp] theorem Core.trapLen_advance (c : Core) (w : BitVec 8) (n : Word) : (c.advance w n).trapLen = c.trapLen := rfl
@[simp] theorem Core.inflight_advance (c : Core) (w : BitVec 8) (n : Word) : (c.advance w n).inflight = c.inflight := rfl
@[simp] theorem Core.ending_advance (c : Core) (w : BitVec 8) (n : Word) : (c.advance w n).ending = c.ending := rfl
@[simp] theorem Core.icache_advance (c : Core) (w : BitVec 8) (n : Word) : (c.advance w n).icache = c.icache := rfl
@[simp] theorem Core.task_advance (c : Core) (w : BitVec 8) (n : Word) : (c.advance w n).task = c.task := rfl
@[simp] theorem Core.lastJob_advance (c : Core) (w : BitVec 8) (n : Word) : (c.advance w n).lastJob = c.lastJob := rfl
@[simp] theorem Core.seq_advance (c : Core) (w : BitVec 8) (n : Word) : (c.advance w n).seq = c.seq := rfl
@[simp] theorem Core.halted_advance (c : Core) (w : BitVec 8) (n : Word) : (c.advance w n).halted = c.halted := rfl
@[simp] theorem Core.phys_advance (c : Core) (w : BitVec 8) (n : Word) : (c.advance w n).phys = c.phys := rfl
@[simp] theorem Core.retired_advance (c : Core) (w : BitVec 8) (n : Word) : (c.advance w n).retired = c.retired := rfl
@[simp] theorem Core.testing_advance (c : Core) (w : BitVec 8) (n : Word) : (c.advance w n).testing = c.testing := rfl
@[simp] theorem Core.drained_advance (c : Core) (w : BitVec 8) (n : Word) : (c.advance w n).drained = c.drained := rfl
@[simp] theorem Core.ucodeB_advance (c : Core) (w : BitVec 8) (n : Word) : (c.advance w n).ucodeB = c.ucodeB := rfl
@[simp] theorem Core.paidClass_advance (c : Core) (w : BitVec 8) (n : Word) : (c.advance w n).paidClass = c.paidClass := rfl
@[simp] theorem Core.pc_advance (c : Core) (w : BitVec 8) (n : Word) : (c.advance w n).pc = n := rfl
@[simp] theorem Core.flags_advance (c : Core) (w : BitVec 8) (n : Word) : (c.advance w n).flags = c.flags &&& ~~~w := rfl

@[simp] theorem Core.sregs_postFlag (c : Core) (n : Nat) : (c.postFlag n).sregs = c.sregs := by
  unfold Core.postFlag; dsimp only; split <;> rfl
@[simp] theorem Core.pc_postFlag (c : Core) (n : Nat) : (c.postFlag n).pc = c.pc := by
  unfold Core.postFlag; dsimp only; split <;> rfl
@[simp] theorem Core.dmem_postFlag (c : Core) (n : Nat) : (c.postFlag n).dmem = c.dmem := by
  unfold Core.postFlag; dsimp only; split <;> rfl
@[simp] theorem Core.tiles_postFlag (c : Core) (n : Nat) : (c.postFlag n).tiles = c.tiles := by
  unfold Core.postFlag; dsimp only; split <;> rfl
@[simp] theorem Core.queues_postFlag (c : Core) (n : Nat) : (c.postFlag n).queues = c.queues := by
  unfold Core.postFlag; dsimp only; split <;> rfl
@[simp] theorem Core.acc_postFlag (c : Core) (n : Nat) : (c.postFlag n).acc = c.acc := by
  unfold Core.postFlag; dsimp only; split <;> rfl
@[simp] theorem Core.live_postFlag (c : Core) (n : Nat) : (c.postFlag n).live = c.live := by
  unfold Core.postFlag; dsimp only; split <;> rfl
@[simp] theorem Core.fpstat_postFlag (c : Core) (n : Nat) : (c.postFlag n).fpstat = c.fpstat := by
  unfold Core.postFlag; dsimp only; split <;> rfl
@[simp] theorem Core.ctimeout_postFlag (c : Core) (n : Nat) : (c.postFlag n).ctimeout = c.ctimeout := by
  unfold Core.postFlag; dsimp only; split <;> rfl
@[simp] theorem Core.trapVec_postFlag (c : Core) (n : Nat) : (c.postFlag n).trapVec = c.trapVec := by
  unfold Core.postFlag; dsimp only; split <;> rfl
@[simp] theorem Core.trapCause_postFlag (c : Core) (n : Nat) : (c.postFlag n).trapCause = c.trapCause := by
  unfold Core.postFlag; dsimp only; split <;> rfl
@[simp] theorem Core.trapPc_postFlag (c : Core) (n : Nat) : (c.postFlag n).trapPc = c.trapPc := by
  unfold Core.postFlag; dsimp only; split <;> rfl
@[simp] theorem Core.trapAddr_postFlag (c : Core) (n : Nat) : (c.postFlag n).trapAddr = c.trapAddr := by
  unfold Core.postFlag; dsimp only; split <;> rfl
@[simp] theorem Core.cycles_postFlag (c : Core) (n : Nat) : (c.postFlag n).cycles = c.cycles := by
  unfold Core.postFlag; dsimp only; split <;> rfl
@[simp] theorem Core.cycleHi_postFlag (c : Core) (n : Nat) : (c.postFlag n).cycleHi = c.cycleHi := by
  unfold Core.postFlag; dsimp only; split <;> rfl
@[simp] theorem Core.discSel_postFlag (c : Core) (n : Nat) : (c.postFlag n).discSel = c.discSel := by
  unfold Core.postFlag; dsimp only; split <;> rfl
@[simp] theorem Core.trapMode_postFlag (c : Core) (n : Nat) : (c.postFlag n).trapMode = c.trapMode := by
  unfold Core.postFlag; dsimp only; split <;> rfl
@[simp] theorem Core.trapLen_postFlag (c : Core) (n : Nat) : (c.postFlag n).trapLen = c.trapLen := by
  unfold Core.postFlag; dsimp only; split <;> rfl
@[simp] theorem Core.inflight_postFlag (c : Core) (n : Nat) : (c.postFlag n).inflight = c.inflight := by
  unfold Core.postFlag; dsimp only; split <;> rfl
@[simp] theorem Core.stall_postFlag (c : Core) (n : Nat) : (c.postFlag n).stall = c.stall := by
  unfold Core.postFlag; dsimp only; split <;> rfl
@[simp] theorem Core.ending_postFlag (c : Core) (n : Nat) : (c.postFlag n).ending = c.ending := by
  unfold Core.postFlag; dsimp only; split <;> rfl
@[simp] theorem Core.icache_postFlag (c : Core) (n : Nat) : (c.postFlag n).icache = c.icache := by
  unfold Core.postFlag; dsimp only; split <;> rfl
@[simp] theorem Core.task_postFlag (c : Core) (n : Nat) : (c.postFlag n).task = c.task := by
  unfold Core.postFlag; dsimp only; split <;> rfl
@[simp] theorem Core.lastJob_postFlag (c : Core) (n : Nat) : (c.postFlag n).lastJob = c.lastJob := by
  unfold Core.postFlag; dsimp only; split <;> rfl
@[simp] theorem Core.seq_postFlag (c : Core) (n : Nat) : (c.postFlag n).seq = c.seq := by
  unfold Core.postFlag; dsimp only; split <;> rfl
@[simp] theorem Core.halted_postFlag (c : Core) (n : Nat) : (c.postFlag n).halted = c.halted := by
  unfold Core.postFlag; dsimp only; split <;> rfl
@[simp] theorem Core.phys_postFlag (c : Core) (n : Nat) : (c.postFlag n).phys = c.phys := by
  unfold Core.postFlag; dsimp only; split <;> rfl
@[simp] theorem Core.retired_postFlag (c : Core) (n : Nat) : (c.postFlag n).retired = c.retired := by
  unfold Core.postFlag; dsimp only; split <;> rfl
@[simp] theorem Core.testing_postFlag (c : Core) (n : Nat) : (c.postFlag n).testing = c.testing := by
  unfold Core.postFlag; dsimp only; split <;> rfl
@[simp] theorem Core.drained_postFlag (c : Core) (n : Nat) : (c.postFlag n).drained = c.drained := by
  unfold Core.postFlag; dsimp only; split <;> rfl
@[simp] theorem Core.ucodeB_postFlag (c : Core) (n : Nat) : (c.postFlag n).ucodeB = c.ucodeB := by
  unfold Core.postFlag; dsimp only; split <;> rfl
@[simp] theorem Core.paidClass_postFlag (c : Core) (n : Nat) : (c.postFlag n).paidClass = c.paidClass := by
  unfold Core.postFlag; dsimp only; split <;> rfl

@[simp] theorem Core.sregs_postFlagOpt (c : Core) (n : Option Nat) : (c.postFlag? n).sregs = c.sregs := by
  cases n <;> simp [Core.postFlag?]
@[simp] theorem Core.pc_postFlagOpt (c : Core) (n : Option Nat) : (c.postFlag? n).pc = c.pc := by
  cases n <;> simp [Core.postFlag?]
@[simp] theorem Core.dmem_postFlagOpt (c : Core) (n : Option Nat) : (c.postFlag? n).dmem = c.dmem := by
  cases n <;> simp [Core.postFlag?]
@[simp] theorem Core.tiles_postFlagOpt (c : Core) (n : Option Nat) : (c.postFlag? n).tiles = c.tiles := by
  cases n <;> simp [Core.postFlag?]
@[simp] theorem Core.queues_postFlagOpt (c : Core) (n : Option Nat) : (c.postFlag? n).queues = c.queues := by
  cases n <;> simp [Core.postFlag?]
@[simp] theorem Core.acc_postFlagOpt (c : Core) (n : Option Nat) : (c.postFlag? n).acc = c.acc := by
  cases n <;> simp [Core.postFlag?]
@[simp] theorem Core.live_postFlagOpt (c : Core) (n : Option Nat) : (c.postFlag? n).live = c.live := by
  cases n <;> simp [Core.postFlag?]
@[simp] theorem Core.fpstat_postFlagOpt (c : Core) (n : Option Nat) : (c.postFlag? n).fpstat = c.fpstat := by
  cases n <;> simp [Core.postFlag?]
@[simp] theorem Core.ctimeout_postFlagOpt (c : Core) (n : Option Nat) : (c.postFlag? n).ctimeout = c.ctimeout := by
  cases n <;> simp [Core.postFlag?]
@[simp] theorem Core.trapVec_postFlagOpt (c : Core) (n : Option Nat) : (c.postFlag? n).trapVec = c.trapVec := by
  cases n <;> simp [Core.postFlag?]
@[simp] theorem Core.trapCause_postFlagOpt (c : Core) (n : Option Nat) : (c.postFlag? n).trapCause = c.trapCause := by
  cases n <;> simp [Core.postFlag?]
@[simp] theorem Core.trapPc_postFlagOpt (c : Core) (n : Option Nat) : (c.postFlag? n).trapPc = c.trapPc := by
  cases n <;> simp [Core.postFlag?]
@[simp] theorem Core.trapAddr_postFlagOpt (c : Core) (n : Option Nat) : (c.postFlag? n).trapAddr = c.trapAddr := by
  cases n <;> simp [Core.postFlag?]
@[simp] theorem Core.cycles_postFlagOpt (c : Core) (n : Option Nat) : (c.postFlag? n).cycles = c.cycles := by
  cases n <;> simp [Core.postFlag?]
@[simp] theorem Core.cycleHi_postFlagOpt (c : Core) (n : Option Nat) : (c.postFlag? n).cycleHi = c.cycleHi := by
  cases n <;> simp [Core.postFlag?]
@[simp] theorem Core.discSel_postFlagOpt (c : Core) (n : Option Nat) : (c.postFlag? n).discSel = c.discSel := by
  cases n <;> simp [Core.postFlag?]
@[simp] theorem Core.trapMode_postFlagOpt (c : Core) (n : Option Nat) : (c.postFlag? n).trapMode = c.trapMode := by
  cases n <;> simp [Core.postFlag?]
@[simp] theorem Core.trapLen_postFlagOpt (c : Core) (n : Option Nat) : (c.postFlag? n).trapLen = c.trapLen := by
  cases n <;> simp [Core.postFlag?]
@[simp] theorem Core.inflight_postFlagOpt (c : Core) (n : Option Nat) : (c.postFlag? n).inflight = c.inflight := by
  cases n <;> simp [Core.postFlag?]
@[simp] theorem Core.stall_postFlagOpt (c : Core) (n : Option Nat) : (c.postFlag? n).stall = c.stall := by
  cases n <;> simp [Core.postFlag?]
@[simp] theorem Core.ending_postFlagOpt (c : Core) (n : Option Nat) : (c.postFlag? n).ending = c.ending := by
  cases n <;> simp [Core.postFlag?]
@[simp] theorem Core.icache_postFlagOpt (c : Core) (n : Option Nat) : (c.postFlag? n).icache = c.icache := by
  cases n <;> simp [Core.postFlag?]
@[simp] theorem Core.task_postFlagOpt (c : Core) (n : Option Nat) : (c.postFlag? n).task = c.task := by
  cases n <;> simp [Core.postFlag?]
@[simp] theorem Core.lastJob_postFlagOpt (c : Core) (n : Option Nat) : (c.postFlag? n).lastJob = c.lastJob := by
  cases n <;> simp [Core.postFlag?]
@[simp] theorem Core.seq_postFlagOpt (c : Core) (n : Option Nat) : (c.postFlag? n).seq = c.seq := by
  cases n <;> simp [Core.postFlag?]
@[simp] theorem Core.halted_postFlagOpt (c : Core) (n : Option Nat) : (c.postFlag? n).halted = c.halted := by
  cases n <;> simp [Core.postFlag?]
@[simp] theorem Core.phys_postFlagOpt (c : Core) (n : Option Nat) : (c.postFlag? n).phys = c.phys := by
  cases n <;> simp [Core.postFlag?]
@[simp] theorem Core.retired_postFlagOpt (c : Core) (n : Option Nat) : (c.postFlag? n).retired = c.retired := by
  cases n <;> simp [Core.postFlag?]
@[simp] theorem Core.testing_postFlagOpt (c : Core) (n : Option Nat) : (c.postFlag? n).testing = c.testing := by
  cases n <;> simp [Core.postFlag?]
@[simp] theorem Core.drained_postFlagOpt (c : Core) (n : Option Nat) : (c.postFlag? n).drained = c.drained := by
  cases n <;> simp [Core.postFlag?]
@[simp] theorem Core.ucodeB_postFlagOpt (c : Core) (n : Option Nat) : (c.postFlag? n).ucodeB = c.ucodeB := by
  cases n <;> simp [Core.postFlag?]
@[simp] theorem Core.paidClass_postFlagOpt (c : Core) (n : Option Nat) : (c.postFlag? n).paidClass = c.paidClass := by
  cases n <;> simp [Core.postFlag?]

@[simp] theorem Core.sregs_csrLatch (c : Core) (i : Nat) : (c.csrLatch i).sregs = c.sregs := by
  unfold Core.csrLatch; split <;> rfl
@[simp] theorem Core.pc_csrLatch (c : Core) (i : Nat) : (c.csrLatch i).pc = c.pc := by
  unfold Core.csrLatch; split <;> rfl
@[simp] theorem Core.dmem_csrLatch (c : Core) (i : Nat) : (c.csrLatch i).dmem = c.dmem := by
  unfold Core.csrLatch; split <;> rfl
@[simp] theorem Core.tiles_csrLatch (c : Core) (i : Nat) : (c.csrLatch i).tiles = c.tiles := by
  unfold Core.csrLatch; split <;> rfl
@[simp] theorem Core.queues_csrLatch (c : Core) (i : Nat) : (c.csrLatch i).queues = c.queues := by
  unfold Core.csrLatch; split <;> rfl
@[simp] theorem Core.acc_csrLatch (c : Core) (i : Nat) : (c.csrLatch i).acc = c.acc := by
  unfold Core.csrLatch; split <;> rfl
@[simp] theorem Core.live_csrLatch (c : Core) (i : Nat) : (c.csrLatch i).live = c.live := by
  unfold Core.csrLatch; split <;> rfl
@[simp] theorem Core.flags_csrLatch (c : Core) (i : Nat) : (c.csrLatch i).flags = c.flags := by
  unfold Core.csrLatch; split <;> rfl
@[simp] theorem Core.lost_csrLatch (c : Core) (i : Nat) : (c.csrLatch i).lost = c.lost := by
  unfold Core.csrLatch; split <;> rfl
@[simp] theorem Core.fpstat_csrLatch (c : Core) (i : Nat) : (c.csrLatch i).fpstat = c.fpstat := by
  unfold Core.csrLatch; split <;> rfl
@[simp] theorem Core.ctimeout_csrLatch (c : Core) (i : Nat) : (c.csrLatch i).ctimeout = c.ctimeout := by
  unfold Core.csrLatch; split <;> rfl
@[simp] theorem Core.trapVec_csrLatch (c : Core) (i : Nat) : (c.csrLatch i).trapVec = c.trapVec := by
  unfold Core.csrLatch; split <;> rfl
@[simp] theorem Core.trapCause_csrLatch (c : Core) (i : Nat) : (c.csrLatch i).trapCause = c.trapCause := by
  unfold Core.csrLatch; split <;> rfl
@[simp] theorem Core.trapPc_csrLatch (c : Core) (i : Nat) : (c.csrLatch i).trapPc = c.trapPc := by
  unfold Core.csrLatch; split <;> rfl
@[simp] theorem Core.trapAddr_csrLatch (c : Core) (i : Nat) : (c.csrLatch i).trapAddr = c.trapAddr := by
  unfold Core.csrLatch; split <;> rfl
@[simp] theorem Core.cycles_csrLatch (c : Core) (i : Nat) : (c.csrLatch i).cycles = c.cycles := by
  unfold Core.csrLatch; split <;> rfl
@[simp] theorem Core.discSel_csrLatch (c : Core) (i : Nat) : (c.csrLatch i).discSel = c.discSel := by
  unfold Core.csrLatch; split <;> rfl
@[simp] theorem Core.trapMode_csrLatch (c : Core) (i : Nat) : (c.csrLatch i).trapMode = c.trapMode := by
  unfold Core.csrLatch; split <;> rfl
@[simp] theorem Core.trapLen_csrLatch (c : Core) (i : Nat) : (c.csrLatch i).trapLen = c.trapLen := by
  unfold Core.csrLatch; split <;> rfl
@[simp] theorem Core.inflight_csrLatch (c : Core) (i : Nat) : (c.csrLatch i).inflight = c.inflight := by
  unfold Core.csrLatch; split <;> rfl
@[simp] theorem Core.stall_csrLatch (c : Core) (i : Nat) : (c.csrLatch i).stall = c.stall := by
  unfold Core.csrLatch; split <;> rfl
@[simp] theorem Core.ending_csrLatch (c : Core) (i : Nat) : (c.csrLatch i).ending = c.ending := by
  unfold Core.csrLatch; split <;> rfl
@[simp] theorem Core.icache_csrLatch (c : Core) (i : Nat) : (c.csrLatch i).icache = c.icache := by
  unfold Core.csrLatch; split <;> rfl
@[simp] theorem Core.task_csrLatch (c : Core) (i : Nat) : (c.csrLatch i).task = c.task := by
  unfold Core.csrLatch; split <;> rfl
@[simp] theorem Core.lastJob_csrLatch (c : Core) (i : Nat) : (c.csrLatch i).lastJob = c.lastJob := by
  unfold Core.csrLatch; split <;> rfl
@[simp] theorem Core.seq_csrLatch (c : Core) (i : Nat) : (c.csrLatch i).seq = c.seq := by
  unfold Core.csrLatch; split <;> rfl
@[simp] theorem Core.halted_csrLatch (c : Core) (i : Nat) : (c.csrLatch i).halted = c.halted := by
  unfold Core.csrLatch; split <;> rfl
@[simp] theorem Core.phys_csrLatch (c : Core) (i : Nat) : (c.csrLatch i).phys = c.phys := by
  unfold Core.csrLatch; split <;> rfl
@[simp] theorem Core.retired_csrLatch (c : Core) (i : Nat) : (c.csrLatch i).retired = c.retired := by
  unfold Core.csrLatch; split <;> rfl
@[simp] theorem Core.testing_csrLatch (c : Core) (i : Nat) : (c.csrLatch i).testing = c.testing := by
  unfold Core.csrLatch; split <;> rfl
@[simp] theorem Core.drained_csrLatch (c : Core) (i : Nat) : (c.csrLatch i).drained = c.drained := by
  unfold Core.csrLatch; split <;> rfl
@[simp] theorem Core.ucodeB_csrLatch (c : Core) (i : Nat) : (c.csrLatch i).ucodeB = c.ucodeB := by
  unfold Core.csrLatch; split <;> rfl
@[simp] theorem Core.paidClass_csrLatch (c : Core) (i : Nat) : (c.csrLatch i).paidClass = c.paidClass := by
  unfold Core.csrLatch; split <;> rfl

@[simp] theorem Core.sregs_csrWrite (c : Core) (i : Nat) (v : Word) : (c.csrWrite i v).sregs = c.sregs := by
  unfold Core.csrWrite; split <;> rfl
@[simp] theorem Core.pc_csrWrite (c : Core) (i : Nat) (v : Word) : (c.csrWrite i v).pc = c.pc := by
  unfold Core.csrWrite; split <;> rfl
@[simp] theorem Core.dmem_csrWrite (c : Core) (i : Nat) (v : Word) : (c.csrWrite i v).dmem = c.dmem := by
  unfold Core.csrWrite; split <;> rfl
@[simp] theorem Core.tiles_csrWrite (c : Core) (i : Nat) (v : Word) : (c.csrWrite i v).tiles = c.tiles := by
  unfold Core.csrWrite; split <;> rfl
@[simp] theorem Core.queues_csrWrite (c : Core) (i : Nat) (v : Word) : (c.csrWrite i v).queues = c.queues := by
  unfold Core.csrWrite; split <;> rfl
@[simp] theorem Core.acc_csrWrite (c : Core) (i : Nat) (v : Word) : (c.csrWrite i v).acc = c.acc := by
  unfold Core.csrWrite; split <;> rfl
@[simp] theorem Core.live_csrWrite (c : Core) (i : Nat) (v : Word) : (c.csrWrite i v).live = c.live := by
  unfold Core.csrWrite; split <;> rfl
@[simp] theorem Core.trapCause_csrWrite (c : Core) (i : Nat) (v : Word) : (c.csrWrite i v).trapCause = c.trapCause := by
  unfold Core.csrWrite; split <;> rfl
@[simp] theorem Core.trapPc_csrWrite (c : Core) (i : Nat) (v : Word) : (c.csrWrite i v).trapPc = c.trapPc := by
  unfold Core.csrWrite; split <;> rfl
@[simp] theorem Core.trapAddr_csrWrite (c : Core) (i : Nat) (v : Word) : (c.csrWrite i v).trapAddr = c.trapAddr := by
  unfold Core.csrWrite; split <;> rfl
@[simp] theorem Core.cycles_csrWrite (c : Core) (i : Nat) (v : Word) : (c.csrWrite i v).cycles = c.cycles := by
  unfold Core.csrWrite; split <;> rfl
@[simp] theorem Core.cycleHi_csrWrite (c : Core) (i : Nat) (v : Word) : (c.csrWrite i v).cycleHi = c.cycleHi := by
  unfold Core.csrWrite; split <;> rfl
@[simp] theorem Core.trapMode_csrWrite (c : Core) (i : Nat) (v : Word) : (c.csrWrite i v).trapMode = c.trapMode := by
  unfold Core.csrWrite; split <;> rfl
@[simp] theorem Core.trapLen_csrWrite (c : Core) (i : Nat) (v : Word) : (c.csrWrite i v).trapLen = c.trapLen := by
  unfold Core.csrWrite; split <;> rfl
@[simp] theorem Core.inflight_csrWrite (c : Core) (i : Nat) (v : Word) : (c.csrWrite i v).inflight = c.inflight := by
  unfold Core.csrWrite; split <;> rfl
@[simp] theorem Core.stall_csrWrite (c : Core) (i : Nat) (v : Word) : (c.csrWrite i v).stall = c.stall := by
  unfold Core.csrWrite; split <;> rfl
@[simp] theorem Core.ending_csrWrite (c : Core) (i : Nat) (v : Word) : (c.csrWrite i v).ending = c.ending := by
  unfold Core.csrWrite; split <;> rfl
@[simp] theorem Core.icache_csrWrite (c : Core) (i : Nat) (v : Word) : (c.csrWrite i v).icache = c.icache := by
  unfold Core.csrWrite; split <;> rfl
@[simp] theorem Core.task_csrWrite (c : Core) (i : Nat) (v : Word) : (c.csrWrite i v).task = c.task := by
  unfold Core.csrWrite; split <;> rfl
@[simp] theorem Core.lastJob_csrWrite (c : Core) (i : Nat) (v : Word) : (c.csrWrite i v).lastJob = c.lastJob := by
  unfold Core.csrWrite; split <;> rfl
@[simp] theorem Core.seq_csrWrite (c : Core) (i : Nat) (v : Word) : (c.csrWrite i v).seq = c.seq := by
  unfold Core.csrWrite; split <;> rfl
@[simp] theorem Core.halted_csrWrite (c : Core) (i : Nat) (v : Word) : (c.csrWrite i v).halted = c.halted := by
  unfold Core.csrWrite; split <;> rfl
@[simp] theorem Core.phys_csrWrite (c : Core) (i : Nat) (v : Word) : (c.csrWrite i v).phys = c.phys := by
  unfold Core.csrWrite; split <;> rfl
@[simp] theorem Core.retired_csrWrite (c : Core) (i : Nat) (v : Word) : (c.csrWrite i v).retired = c.retired := by
  unfold Core.csrWrite; split <;> rfl
@[simp] theorem Core.testing_csrWrite (c : Core) (i : Nat) (v : Word) : (c.csrWrite i v).testing = c.testing := by
  unfold Core.csrWrite; split <;> rfl
@[simp] theorem Core.drained_csrWrite (c : Core) (i : Nat) (v : Word) : (c.csrWrite i v).drained = c.drained := by
  unfold Core.csrWrite; split <;> rfl
@[simp] theorem Core.ucodeB_csrWrite (c : Core) (i : Nat) (v : Word) : (c.csrWrite i v).ucodeB = c.ucodeB := by
  unfold Core.csrWrite; split <;> rfl
@[simp] theorem Core.paidClass_csrWrite (c : Core) (i : Nat) (v : Word) : (c.csrWrite i v).paidClass = c.paidClass := by
  unfold Core.csrWrite; split <;> rfl

@[simp] theorem Core.sregs_csrSet (c : Core) (i : Nat) (v : Word) : (c.csrSet i v).sregs = c.sregs := by
  unfold Core.csrSet; split <;> rfl
@[simp] theorem Core.pc_csrSet (c : Core) (i : Nat) (v : Word) : (c.csrSet i v).pc = c.pc := by
  unfold Core.csrSet; split <;> rfl
@[simp] theorem Core.dmem_csrSet (c : Core) (i : Nat) (v : Word) : (c.csrSet i v).dmem = c.dmem := by
  unfold Core.csrSet; split <;> rfl
@[simp] theorem Core.tiles_csrSet (c : Core) (i : Nat) (v : Word) : (c.csrSet i v).tiles = c.tiles := by
  unfold Core.csrSet; split <;> rfl
@[simp] theorem Core.queues_csrSet (c : Core) (i : Nat) (v : Word) : (c.csrSet i v).queues = c.queues := by
  unfold Core.csrSet; split <;> rfl
@[simp] theorem Core.acc_csrSet (c : Core) (i : Nat) (v : Word) : (c.csrSet i v).acc = c.acc := by
  unfold Core.csrSet; split <;> rfl
@[simp] theorem Core.live_csrSet (c : Core) (i : Nat) (v : Word) : (c.csrSet i v).live = c.live := by
  unfold Core.csrSet; split <;> rfl
@[simp] theorem Core.lost_csrSet (c : Core) (i : Nat) (v : Word) : (c.csrSet i v).lost = c.lost := by
  unfold Core.csrSet; split <;> rfl
@[simp] theorem Core.fpstat_csrSet (c : Core) (i : Nat) (v : Word) : (c.csrSet i v).fpstat = c.fpstat := by
  unfold Core.csrSet; split <;> rfl
@[simp] theorem Core.trapCause_csrSet (c : Core) (i : Nat) (v : Word) : (c.csrSet i v).trapCause = c.trapCause := by
  unfold Core.csrSet; split <;> rfl
@[simp] theorem Core.trapPc_csrSet (c : Core) (i : Nat) (v : Word) : (c.csrSet i v).trapPc = c.trapPc := by
  unfold Core.csrSet; split <;> rfl
@[simp] theorem Core.trapAddr_csrSet (c : Core) (i : Nat) (v : Word) : (c.csrSet i v).trapAddr = c.trapAddr := by
  unfold Core.csrSet; split <;> rfl
@[simp] theorem Core.cycles_csrSet (c : Core) (i : Nat) (v : Word) : (c.csrSet i v).cycles = c.cycles := by
  unfold Core.csrSet; split <;> rfl
@[simp] theorem Core.cycleHi_csrSet (c : Core) (i : Nat) (v : Word) : (c.csrSet i v).cycleHi = c.cycleHi := by
  unfold Core.csrSet; split <;> rfl
@[simp] theorem Core.trapMode_csrSet (c : Core) (i : Nat) (v : Word) : (c.csrSet i v).trapMode = c.trapMode := by
  unfold Core.csrSet; split <;> rfl
@[simp] theorem Core.trapLen_csrSet (c : Core) (i : Nat) (v : Word) : (c.csrSet i v).trapLen = c.trapLen := by
  unfold Core.csrSet; split <;> rfl
@[simp] theorem Core.inflight_csrSet (c : Core) (i : Nat) (v : Word) : (c.csrSet i v).inflight = c.inflight := by
  unfold Core.csrSet; split <;> rfl
@[simp] theorem Core.stall_csrSet (c : Core) (i : Nat) (v : Word) : (c.csrSet i v).stall = c.stall := by
  unfold Core.csrSet; split <;> rfl
@[simp] theorem Core.ending_csrSet (c : Core) (i : Nat) (v : Word) : (c.csrSet i v).ending = c.ending := by
  unfold Core.csrSet; split <;> rfl
@[simp] theorem Core.icache_csrSet (c : Core) (i : Nat) (v : Word) : (c.csrSet i v).icache = c.icache := by
  unfold Core.csrSet; split <;> rfl
@[simp] theorem Core.task_csrSet (c : Core) (i : Nat) (v : Word) : (c.csrSet i v).task = c.task := by
  unfold Core.csrSet; split <;> rfl
@[simp] theorem Core.lastJob_csrSet (c : Core) (i : Nat) (v : Word) : (c.csrSet i v).lastJob = c.lastJob := by
  unfold Core.csrSet; split <;> rfl
@[simp] theorem Core.seq_csrSet (c : Core) (i : Nat) (v : Word) : (c.csrSet i v).seq = c.seq := by
  unfold Core.csrSet; split <;> rfl
@[simp] theorem Core.halted_csrSet (c : Core) (i : Nat) (v : Word) : (c.csrSet i v).halted = c.halted := by
  unfold Core.csrSet; split <;> rfl
@[simp] theorem Core.phys_csrSet (c : Core) (i : Nat) (v : Word) : (c.csrSet i v).phys = c.phys := by
  unfold Core.csrSet; split <;> rfl
@[simp] theorem Core.retired_csrSet (c : Core) (i : Nat) (v : Word) : (c.csrSet i v).retired = c.retired := by
  unfold Core.csrSet; split <;> rfl
@[simp] theorem Core.testing_csrSet (c : Core) (i : Nat) (v : Word) : (c.csrSet i v).testing = c.testing := by
  unfold Core.csrSet; split <;> rfl
@[simp] theorem Core.drained_csrSet (c : Core) (i : Nat) (v : Word) : (c.csrSet i v).drained = c.drained := by
  unfold Core.csrSet; split <;> rfl
@[simp] theorem Core.ucodeB_csrSet (c : Core) (i : Nat) (v : Word) : (c.csrSet i v).ucodeB = c.ucodeB := by
  unfold Core.csrSet; split <;> rfl
@[simp] theorem Core.paidClass_csrSet (c : Core) (i : Nat) (v : Word) : (c.csrSet i v).paidClass = c.paidClass := by
  unfold Core.csrSet; split <;> rfl

@[simp] theorem Core.sregs_csrClear (c : Core) (i : Nat) (v : Word) : (c.csrClear i v).sregs = c.sregs := by
  unfold Core.csrClear; split <;> rfl
@[simp] theorem Core.pc_csrClear (c : Core) (i : Nat) (v : Word) : (c.csrClear i v).pc = c.pc := by
  unfold Core.csrClear; split <;> rfl
@[simp] theorem Core.dmem_csrClear (c : Core) (i : Nat) (v : Word) : (c.csrClear i v).dmem = c.dmem := by
  unfold Core.csrClear; split <;> rfl
@[simp] theorem Core.tiles_csrClear (c : Core) (i : Nat) (v : Word) : (c.csrClear i v).tiles = c.tiles := by
  unfold Core.csrClear; split <;> rfl
@[simp] theorem Core.queues_csrClear (c : Core) (i : Nat) (v : Word) : (c.csrClear i v).queues = c.queues := by
  unfold Core.csrClear; split <;> rfl
@[simp] theorem Core.acc_csrClear (c : Core) (i : Nat) (v : Word) : (c.csrClear i v).acc = c.acc := by
  unfold Core.csrClear; split <;> rfl
@[simp] theorem Core.live_csrClear (c : Core) (i : Nat) (v : Word) : (c.csrClear i v).live = c.live := by
  unfold Core.csrClear; split <;> rfl
@[simp] theorem Core.lost_csrClear (c : Core) (i : Nat) (v : Word) : (c.csrClear i v).lost = c.lost := by
  unfold Core.csrClear; split <;> rfl
@[simp] theorem Core.fpstat_csrClear (c : Core) (i : Nat) (v : Word) : (c.csrClear i v).fpstat = c.fpstat := by
  unfold Core.csrClear; split <;> rfl
@[simp] theorem Core.trapCause_csrClear (c : Core) (i : Nat) (v : Word) : (c.csrClear i v).trapCause = c.trapCause := by
  unfold Core.csrClear; split <;> rfl
@[simp] theorem Core.trapPc_csrClear (c : Core) (i : Nat) (v : Word) : (c.csrClear i v).trapPc = c.trapPc := by
  unfold Core.csrClear; split <;> rfl
@[simp] theorem Core.trapAddr_csrClear (c : Core) (i : Nat) (v : Word) : (c.csrClear i v).trapAddr = c.trapAddr := by
  unfold Core.csrClear; split <;> rfl
@[simp] theorem Core.cycles_csrClear (c : Core) (i : Nat) (v : Word) : (c.csrClear i v).cycles = c.cycles := by
  unfold Core.csrClear; split <;> rfl
@[simp] theorem Core.cycleHi_csrClear (c : Core) (i : Nat) (v : Word) : (c.csrClear i v).cycleHi = c.cycleHi := by
  unfold Core.csrClear; split <;> rfl
@[simp] theorem Core.trapMode_csrClear (c : Core) (i : Nat) (v : Word) : (c.csrClear i v).trapMode = c.trapMode := by
  unfold Core.csrClear; split <;> rfl
@[simp] theorem Core.trapLen_csrClear (c : Core) (i : Nat) (v : Word) : (c.csrClear i v).trapLen = c.trapLen := by
  unfold Core.csrClear; split <;> rfl
@[simp] theorem Core.inflight_csrClear (c : Core) (i : Nat) (v : Word) : (c.csrClear i v).inflight = c.inflight := by
  unfold Core.csrClear; split <;> rfl
@[simp] theorem Core.stall_csrClear (c : Core) (i : Nat) (v : Word) : (c.csrClear i v).stall = c.stall := by
  unfold Core.csrClear; split <;> rfl
@[simp] theorem Core.ending_csrClear (c : Core) (i : Nat) (v : Word) : (c.csrClear i v).ending = c.ending := by
  unfold Core.csrClear; split <;> rfl
@[simp] theorem Core.icache_csrClear (c : Core) (i : Nat) (v : Word) : (c.csrClear i v).icache = c.icache := by
  unfold Core.csrClear; split <;> rfl
@[simp] theorem Core.task_csrClear (c : Core) (i : Nat) (v : Word) : (c.csrClear i v).task = c.task := by
  unfold Core.csrClear; split <;> rfl
@[simp] theorem Core.lastJob_csrClear (c : Core) (i : Nat) (v : Word) : (c.csrClear i v).lastJob = c.lastJob := by
  unfold Core.csrClear; split <;> rfl
@[simp] theorem Core.seq_csrClear (c : Core) (i : Nat) (v : Word) : (c.csrClear i v).seq = c.seq := by
  unfold Core.csrClear; split <;> rfl
@[simp] theorem Core.halted_csrClear (c : Core) (i : Nat) (v : Word) : (c.csrClear i v).halted = c.halted := by
  unfold Core.csrClear; split <;> rfl
@[simp] theorem Core.phys_csrClear (c : Core) (i : Nat) (v : Word) : (c.csrClear i v).phys = c.phys := by
  unfold Core.csrClear; split <;> rfl
@[simp] theorem Core.retired_csrClear (c : Core) (i : Nat) (v : Word) : (c.csrClear i v).retired = c.retired := by
  unfold Core.csrClear; split <;> rfl
@[simp] theorem Core.testing_csrClear (c : Core) (i : Nat) (v : Word) : (c.csrClear i v).testing = c.testing := by
  unfold Core.csrClear; split <;> rfl
@[simp] theorem Core.drained_csrClear (c : Core) (i : Nat) (v : Word) : (c.csrClear i v).drained = c.drained := by
  unfold Core.csrClear; split <;> rfl
@[simp] theorem Core.ucodeB_csrClear (c : Core) (i : Nat) (v : Word) : (c.csrClear i v).ucodeB = c.ucodeB := by
  unfold Core.csrClear; split <;> rfl
@[simp] theorem Core.paidClass_csrClear (c : Core) (i : Nat) (v : Word) : (c.csrClear i v).paidClass = c.paidClass := by
  unfold Core.csrClear; split <;> rfl

/-! ## Registers, queue ends and banks -/

theorem Core.rd_congr {c d : Core} (h : c.sregs = d.sregs) (r : Nat) : c.rd r = d.rd r := by simp [Core.rd, h]
theorem Core.queue_congr {c d : Core} (h : c.queues = d.queues) (q : Nat) : c.queue q = d.queue q := by simp [Core.queue, h]
theorem Core.bank_congr {c d : Core} (h : c.acc = d.acc) (n : Nat) : c.bank n = d.bank n := by simp [Core.bank, h]

@[simp] theorem Core.rd_zero (c : Core) : c.rd 0 = 0 := by simp [Core.rd]

@[simp] theorem Core.rd_wr (c : Core) (r x : Nat) (v : Word) :
    (c.wr r v).rd x = if x = r then (if r = 0 then 0 else v) else c.rd x := by
  unfold Core.wr Core.rd
  grind [mget_mset]

@[simp] theorem Core.queue_setQueue (c : Core) (q y : Nat) (x : Queue) :
    (c.setQueue q x).queue y = if y = q then x else c.queue y := by
  simp [Core.setQueue, Core.queue]

@[simp] theorem Core.queue_pop (c : Core) (q y : Nat) :
    (c.pop q).queue y = if y = q then
      { c.queue q with
        head := ((c.queue q).head + 1) % (c.queue q).depth
        tags := (c.queue q).tags.tail
        stamps := (c.queue q).stamps.tail }
      else c.queue y := by
  simp [Core.pop]

@[simp] theorem Core.queue_push (c : Core) (q y : Nat) (m : Memory) (t : Word) :
    (c.push q m t).queue y = if y = q then
      { c.queue q with
        tags := (c.queue q).tags ++ [t]
        stamps := if (c.queue q).kind = .cupolaOut then (c.queue q).stamps ++ [c.pushes + 1] else (c.queue q).stamps
        flowDone := if (c.queue q).kind = .cupolaOut then (c.queue q).flowDone + 1 else (c.queue q).flowDone }
      else c.queue y := by
  by_cases h : (c.queue q).kind = .cupolaOut
  · simp only [Core.push, Core.queue_setQueue, h, decide_true, b2n, if_true]
    rfl
  · simp only [Core.push, Core.queue_setQueue, h, decide_false, b2n, if_false, Bool.false_eq_true, Nat.add_zero]
    rfl

@[simp] theorem Core.bank_setBank (c : Core) (n x : Nat) (b : AccBank) :
    (c.setBank n b).bank x = if x = n then b else c.bank x := by
  simp [Core.setBank, Core.bank]

/-- The tile store after a push: the tile stands at the tail, and no other byte changes. -/
theorem Core.tiles_push (c : Core) (q : Nat) (m : Memory) (t : Word) (x : Nat) :
    (c.push q m t).tiles.get x =
      if (c.queue q).slotAt (c.queue q).count ≤ x ∧ x < (c.queue q).slotAt (c.queue q).count + tileBytes (c.queue q).fmt
      then m.get (x - (c.queue q).slotAt (c.queue q).count) else c.tiles.get x := by
  simp only [Core.push, Core.tiles_setQueue, Memory.get_paste]

@[simp] theorem Core.rd_setQueue (c : Core) (q : Nat) (x : Queue) (i : Nat) : (c.setQueue q x).rd i = c.rd i :=
  Core.rd_congr (by simp) i
@[simp] theorem Core.rd_pop (c : Core) (q : Nat) (i : Nat) : (c.pop q).rd i = c.rd i :=
  Core.rd_congr (by simp) i
@[simp] theorem Core.rd_push (c : Core) (q : Nat) (m : Memory) (t : Word) (i : Nat) : (c.push q m t).rd i = c.rd i :=
  Core.rd_congr (by simp) i
@[simp] theorem Core.rd_orFp (c : Core) (f : FpFlags) (i : Nat) : (c.orFp f).rd i = c.rd i :=
  Core.rd_congr (by simp) i
@[simp] theorem Core.rd_setBank (c : Core) (n : Nat) (b : AccBank) (i : Nat) : (c.setBank n b).rd i = c.rd i :=
  Core.rd_congr (by simp) i
@[simp] theorem Core.rd_start (c : Core) (o : DOp) (f : Option Nat) (i : Nat) : (c.start o f).rd i = c.rd i :=
  Core.rd_congr (by simp) i
@[simp] theorem Core.rd_consume (c : Core) (w : BitVec 8) (i : Nat) : (c.consume w).rd i = c.rd i :=
  Core.rd_congr (by simp) i
@[simp] theorem Core.rd_advance (c : Core) (w : BitVec 8) (n : Word) (i : Nat) : (c.advance w n).rd i = c.rd i := Core.rd_congr (by simp) i
@[simp] theorem Core.queue_advance (c : Core) (w : BitVec 8) (n : Word) (i : Nat) : (c.advance w n).queue i = c.queue i :=
  Core.queue_congr (by simp) i
@[simp] theorem Core.bank_advance (c : Core) (w : BitVec 8) (n : Word) (i : Nat) : (c.advance w n).bank i = c.bank i :=
  Core.bank_congr (by simp) i
@[simp] theorem Core.rd_postFlag (c : Core) (n : Nat) (i : Nat) : (c.postFlag n).rd i = c.rd i :=
  Core.rd_congr (by simp) i
@[simp] theorem Core.rd_postFlagOpt (c : Core) (n : Option Nat) (i : Nat) : (c.postFlag? n).rd i = c.rd i :=
  Core.rd_congr (by simp) i
@[simp] theorem Core.rd_csrLatch (c : Core) (i : Nat) (j : Nat) : (c.csrLatch i).rd j = c.rd j :=
  Core.rd_congr (by simp) j
@[simp] theorem Core.rd_csrWrite (c : Core) (i : Nat) (v : Word) (j : Nat) : (c.csrWrite i v).rd j = c.rd j :=
  Core.rd_congr (by simp) j
@[simp] theorem Core.rd_csrSet (c : Core) (i : Nat) (v : Word) (j : Nat) : (c.csrSet i v).rd j = c.rd j :=
  Core.rd_congr (by simp) j
@[simp] theorem Core.rd_csrClear (c : Core) (i : Nat) (v : Word) (j : Nat) : (c.csrClear i v).rd j = c.rd j :=
  Core.rd_congr (by simp) j
@[simp] theorem Core.queue_wr (c : Core) (r : Nat) (v : Word) (i : Nat) : (c.wr r v).queue i = c.queue i :=
  Core.queue_congr (by simp) i
@[simp] theorem Core.queue_wrPair (c : Core) (r v : Nat) (i : Nat) : (c.wrPair r v).queue i = c.queue i :=
  Core.queue_congr (by simp) i
@[simp] theorem Core.queue_orFp (c : Core) (f : FpFlags) (i : Nat) : (c.orFp f).queue i = c.queue i :=
  Core.queue_congr (by simp) i
@[simp] theorem Core.queue_setBank (c : Core) (n : Nat) (b : AccBank) (i : Nat) : (c.setBank n b).queue i = c.queue i :=
  Core.queue_congr (by simp) i
@[simp] theorem Core.queue_start (c : Core) (o : DOp) (f : Option Nat) (i : Nat) : (c.start o f).queue i = c.queue i :=
  Core.queue_congr (by simp) i
@[simp] theorem Core.queue_consume (c : Core) (w : BitVec 8) (i : Nat) : (c.consume w).queue i = c.queue i :=
  Core.queue_congr (by simp) i
@[simp] theorem Core.queue_postFlag (c : Core) (n : Nat) (i : Nat) : (c.postFlag n).queue i = c.queue i :=
  Core.queue_congr (by simp) i
@[simp] theorem Core.queue_postFlagOpt (c : Core) (n : Option Nat) (i : Nat) : (c.postFlag? n).queue i = c.queue i :=
  Core.queue_congr (by simp) i
@[simp] theorem Core.queue_csrLatch (c : Core) (i : Nat) (j : Nat) : (c.csrLatch i).queue j = c.queue j :=
  Core.queue_congr (by simp) j
@[simp] theorem Core.queue_csrWrite (c : Core) (i : Nat) (v : Word) (j : Nat) : (c.csrWrite i v).queue j = c.queue j :=
  Core.queue_congr (by simp) j
@[simp] theorem Core.queue_csrSet (c : Core) (i : Nat) (v : Word) (j : Nat) : (c.csrSet i v).queue j = c.queue j :=
  Core.queue_congr (by simp) j
@[simp] theorem Core.queue_csrClear (c : Core) (i : Nat) (v : Word) (j : Nat) : (c.csrClear i v).queue j = c.queue j :=
  Core.queue_congr (by simp) j
@[simp] theorem Core.bank_wr (c : Core) (r : Nat) (v : Word) (i : Nat) : (c.wr r v).bank i = c.bank i :=
  Core.bank_congr (by simp) i
@[simp] theorem Core.bank_wrPair (c : Core) (r v : Nat) (i : Nat) : (c.wrPair r v).bank i = c.bank i :=
  Core.bank_congr (by simp) i
@[simp] theorem Core.bank_setQueue (c : Core) (q : Nat) (x : Queue) (i : Nat) : (c.setQueue q x).bank i = c.bank i :=
  Core.bank_congr (by simp) i
@[simp] theorem Core.bank_pop (c : Core) (q : Nat) (i : Nat) : (c.pop q).bank i = c.bank i :=
  Core.bank_congr (by simp) i
@[simp] theorem Core.bank_push (c : Core) (q : Nat) (m : Memory) (t : Word) (i : Nat) : (c.push q m t).bank i = c.bank i :=
  Core.bank_congr (by simp) i
@[simp] theorem Core.bank_orFp (c : Core) (f : FpFlags) (i : Nat) : (c.orFp f).bank i = c.bank i :=
  Core.bank_congr (by simp) i
@[simp] theorem Core.bank_start (c : Core) (o : DOp) (f : Option Nat) (i : Nat) : (c.start o f).bank i = c.bank i :=
  Core.bank_congr (by simp) i
@[simp] theorem Core.bank_consume (c : Core) (w : BitVec 8) (i : Nat) : (c.consume w).bank i = c.bank i :=
  Core.bank_congr (by simp) i
@[simp] theorem Core.bank_postFlag (c : Core) (n : Nat) (i : Nat) : (c.postFlag n).bank i = c.bank i :=
  Core.bank_congr (by simp) i
@[simp] theorem Core.bank_postFlagOpt (c : Core) (n : Option Nat) (i : Nat) : (c.postFlag? n).bank i = c.bank i :=
  Core.bank_congr (by simp) i
@[simp] theorem Core.bank_csrLatch (c : Core) (i : Nat) (j : Nat) : (c.csrLatch i).bank j = c.bank j :=
  Core.bank_congr (by simp) j
@[simp] theorem Core.bank_csrWrite (c : Core) (i : Nat) (v : Word) (j : Nat) : (c.csrWrite i v).bank j = c.bank j :=
  Core.bank_congr (by simp) j
@[simp] theorem Core.bank_csrSet (c : Core) (i : Nat) (v : Word) (j : Nat) : (c.csrSet i v).bank j = c.bank j :=
  Core.bank_congr (by simp) j
@[simp] theorem Core.bank_csrClear (c : Core) (i : Nat) (v : Word) (j : Nat) : (c.csrClear i v).bank j = c.bank j :=
  Core.bank_congr (by simp) j

end Sys2Proof.Machine
end

