-- ==== Sys2Proof/Laws/Completion.lean ====
section
/-! SUPPORT. Completions in a core: what delivering a value, setting a flag and taking an operation off the list leave. -/

namespace Sys2Proof.Machine

set_option Elab.async false

/-- A value that arrives is in its register, and the high half of eight bytes in the next. -/
@[simp] theorem Core.rd_deliver (c : Core) (b rd v : Nat) (h : rd ≠ 0) : (c.deliver b rd v).rd rd = BitVec.ofNat 32 v := by
  unfold Core.deliver Core.wrPair
  split <;> simp [h]

theorem Core.rd_succ_deliver (c : Core) (rd v : Nat) : (c.deliver 8 rd v).rd (rd + 1) = BitVec.ofNat 32 (v / 2 ^ 32) := by
  simp [Core.deliver, Core.wrPair]

@[simp] theorem Core.inflight_deliver (c : Core) (b rd v : Nat) : (c.deliver b rd v).inflight = c.inflight := by
  unfold Core.deliver Core.wrPair
  split <;> simp

@[simp] theorem Core.rd_postFlag? (c : Core) (f : Option Nat) (x : Nat) : (c.postFlag? f).rd x = c.rd x := by
  cases f with
  | none => rfl
  | some n => unfold Core.postFlag? Core.postFlag; dsimp only; split <;> rfl
@[simp] theorem Core.inflight_postFlag? (c : Core) (f : Option Nat) : (c.postFlag? f).inflight = c.inflight := by
  cases f with
  | none => rfl
  | some n => unfold Core.postFlag? Core.postFlag; dsimp only; split <;> rfl
@[simp] theorem Core.seq_postFlag? (c : Core) (f : Option Nat) : (c.postFlag? f).seq = c.seq := by
  cases f with
  | none => rfl
  | some n => unfold Core.postFlag? Core.postFlag; dsimp only; split <;> rfl

/-- An operation that completes leaves the list. -/
@[simp] theorem Core.inflight_complete (c : Core) (i : Nat) : (c.complete i).inflight = c.inflight.eraseIdx i := by
  unfold Core.complete
  split
  · simp
  · rename_i h
    rw [List.eraseIdx_of_length_le (by simpa using h)]

@[simp] theorem Core.rd_complete (c : Core) (i x : Nat) : (c.complete i).rd x = c.rd x := by
  unfold Core.complete
  split
  · simp; rfl
  · rfl
@[simp] theorem Core.seq_complete (c : Core) (i : Nat) : (c.complete i).seq = c.seq := by
  unfold Core.complete
  split
  · simp
  · rfl

/-- An operation in flight is one of a core that has a task, while the block runs. -/
theorem State.flying_some {s : State} {c i : Nat} {t : Task} {x : InFlight} (h : s.flying c i = some (t, x)) :
    (s.core c).task = some t ∧ (s.core c).inflight[i]? = some x ∧ s.runs = true := by
  unfold State.flying at h
  split at h
  · rename_i h1 h2
    cases h
    refine ⟨?_, ?_, ?_⟩ <;> simp_all
  · cases h

/-- A flag that is posted is set. -/
theorem Core.flag_postFlag (c : Core) (f : Nat) (hf : f < 8) : (c.postFlag f).flags.getLsbD f = true := by
  have hb : (BitVec.ofNat 8 (2 ^ (f % 8))).getLsbD f = true := by
    interval_cases f <;> rfl
  unfold Core.postFlag
  dsimp only
  split
  · simp only [BitVec.getLsbD_or, hb, Bool.or_true]
  · rename_i h
    by_contra hn
    apply h
    simp only [Bool.not_eq_true] at hn
    interval_cases f <;> (apply BitVec.eq_of_getLsbD_eq; intro i hi; interval_cases i <;> simp_all)

/-- The flag of an operation that completes is set. -/
theorem Core.flag_complete (c : Core) (i f : Nat) (x : InFlight) (h : c.inflight[i]? = some x) (hx : x.flag = some f) (hf : f < 8) :
    (c.complete i).flags.getLsbD f = true := by
  simp only [Core.complete, h, hx, Core.postFlag?]
  exact Core.flag_postFlag _ f hf

end Sys2Proof.Machine
end

