-- ==== Sys2Proof/Laws/Frames.lean ====
section
/-! SUPPORT. The frames of the shared operations: each lemma says once which parts of the state an operation may change, by
giving the others as they were. -/

namespace Sys2Proof.Machine

set_option Elab.async false

/-! ## Records and messages -/

theorem State.logError_frame (s : State) (e : ErrRec) : ∃ l, s.logError e = { s with landing := l } := by
  unfold State.logError
  split
  · exact ⟨_, rfl⟩
  · split <;> exact ⟨_, rfl⟩

theorem State.signal_frame (s : State) (v : Nat) : ∃ l, s.signal v = { s with landing := l } := by
  unfold State.signal
  dsimp only
  split
  · exact ⟨s.landing, rfl⟩
  · split <;> exact ⟨_, rfl⟩

theorem State.signalPart_frame (s : State) (p v : Nat) : ∃ l, s.signalPart p v = { s with landing := l } := by
  unfold State.signalPart
  split <;> exact State.signal_frame _ _

theorem State.partEvent_frame (s : State) (p : Nat) : ∃ l, s.partEvent p = { s with landing := l } :=
  State.signalPart_frame _ _ _

theorem State.setPartState_frame (s : State) (p : Nat) (x : PartState) :
    ∃ q l, s.setPartState p x = { s with parts := q, landing := l } := by
  unfold State.setPartState
  split
  · exact ⟨s.parts, s.landing, rfl⟩
  · obtain ⟨l, h⟩ := State.partEvent_frame (s.modPart p fun d => { d with state := x }) p
    exact ⟨_, l, h⟩

@[simp] theorem State.part_setPartState (s : State) (p q : Nat) (x : PartState) :
    (s.setPartState p x).part q = if q = p then { s.part p with state := x } else s.part q := by
  unfold State.setPartState
  split
  · rename_i h
    split
    · rename_i e
      subst e h
      rfl
    · rfl
  · obtain ⟨l, h⟩ := State.partEvent_frame (s.modPart p fun d => { d with state := x }) p
    rw [h]
    exact State.part_setPart _ _ _ _

/-! ## Links -/

theorem State.countReg_frame (s : State) (a n : Nat) : ∃ r, s.countReg a n = { s with regs := r } := ⟨_, rfl⟩

theorem State.freeBuffers_frame (xs : List (Nat × Nat)) (s : State) : ∃ k, xs.foldl State.freeBuffer s = { s with links := k } := by
  induction xs generalizing s with
  | nil => exact ⟨s.links, rfl⟩
  | cons x xs ih =>
    obtain ⟨k, hk⟩ := ih (s.freeBuffer x)
    exact ⟨k, hk⟩

theorem State.pumpLink_frame (s : State) (l : Nat) : ∃ k, s.pumpLink l = { s with links := k } := by
  unfold State.pumpLink
  split
  · obtain ⟨k, hk⟩ := State.freeBuffers_frame (s.link l).pump.freed (s.setLink l (s.link l).pump.link)
    exact ⟨k, hk⟩
  · exact ⟨s.links, rfl⟩

theorem State.forward_frame (s : State) (i : Option Nat) (h : Nat) (f : Flit) :
    ∃ k, (s.forward i h f).1 = { s with links := k } := by
  unfold State.forward
  split
  · exact ⟨_, rfl⟩
  · exact ⟨s.links, rfl⟩
  · split
    · exact ⟨s.links, rfl⟩
    · split
      · exact ⟨s.links, rfl⟩
      · obtain ⟨k, hk⟩ := State.pumpLink_frame (s.modLink _ _) _
        exact ⟨k, hk⟩

theorem State.logDrop_frame (s : State) (i : Option Nat) (f : Flit) (r : Nat) :
    ∃ g l, s.logDrop i f r = { s with regs := g, landing := l } := by
  unfold State.logDrop
  obtain ⟨g, hg⟩ := State.countReg_frame s (routerBase + Off.volDropCount) 1
  simp only [hg]
  obtain ⟨l, hl⟩ := State.logError_frame (({ s with regs := g } : State).setReg (routerBase + Off.volDropLast) (r * 2 ^ 16 + f.dstId.toNat))
    { errOf .linkDrop 15 3 (i.getD 0xFFF) with
      detail := r, cycles := (({ s with regs := g } : State).setReg (routerBase + Off.volDropLast) (r * 2 ^ 16 + f.dstId.toNat)).landing.fclk.toNat }
  rw [hl]
  obtain ⟨l', hl'⟩ := State.signal_frame { ({ s with regs := g } : State).setReg (routerBase + Off.volDropLast) (r * 2 ^ 16 + f.dstId.toNat) with landing := l } 4
  exact ⟨_, l', hl'⟩

theorem State.sendFlit_frame (s : State) (i : Option Nat) (h : Nat) (f : Flit) :
    ∃ k g l, s.sendFlit i h f = { s with links := k, regs := g, landing := l } := by
  unfold State.sendFlit
  obtain ⟨k, hk⟩ := State.forward_frame s i h f
  rcases hf : s.forward i h f with ⟨s0, _ | r⟩
  · rw [hf] at hk; exact ⟨k, s.regs, s.landing, hk⟩
  · rw [hf] at hk
    dsimp only at hk ⊢
    obtain ⟨k1, h1⟩ := State.freeBuffers_frame (i.map (·, f.vc.toNat)).toList s0
    rw [h1, hk]
    generalize hs : ({ s with links := k1 } : State) = s1
    replace hk := hs.symm
    obtain ⟨g, l, hl⟩ := State.logDrop_frame s1 i f r
    split
    · obtain ⟨k2, hk2⟩ := State.forward_frame (s1.logDrop i f r) none h ((s1.logDrop i f r).errFlit f .linkDown)
      rcases hf2 : (s1.logDrop i f r).forward none h ((s1.logDrop i f r).errFlit f .linkDown) with ⟨s2, _ | r2⟩
      · rw [hf2] at hk2; dsimp only at hk2 ⊢
        exact ⟨k2, g, l, by rw [hk2, hl, hk]⟩
      · rw [hf2] at hk2; dsimp only at hk2 ⊢
        obtain ⟨g3, l3, h3⟩ := State.logDrop_frame s2 none (s2.errFlit f .linkDown) r2
        exact ⟨k2, g3, l3, by rw [h3, hk2, hl, hk]⟩
    · exact ⟨k1, g, l, by rw [hl, hk]⟩

theorem State.sendCore_frame (s : State) (c tag : Nat) (f : Flit) :
    ∃ k g l x, s.sendCore c tag f = { s with links := k, regs := g, landing := l, tags := x } := by
  unfold State.sendCore
  obtain ⟨k, g, l, h⟩ := State.sendFlit_frame ({ s with tags := mset 0xFFFF s.tags tag c } : State) none (2 * s.spireOf c)
    { f with tag := BitVec.ofNat 12 tag }
  exact ⟨k, g, l, _, h⟩

/-! ## Long words -/

theorem State.beginChain_frame (s : State) (e c p a : Nat) (k : Kicker) : ∃ g, s.beginChain e c p a k = { s with engines := g } :=
  ⟨_, rfl⟩

theorem State.startFar_frame (s : State) (core p a : Nat) (op : Option Nat → DOp) (f : Flit → Flit) :
    ∃ x k g l t, s.startFar core p a op f =
      { s.setCore core ((s.core core).start (op x) none) with links := k, regs := g, landing := l, tags := t } := by
  unfold State.startFar
  split
  · exact ⟨none, s.links, s.regs, s.landing, s.tags, rfl⟩
  · rename_i off _
    obtain ⟨k, g, l, t, h⟩ := State.sendCore_frame (s.modCore core fun c => c.start (op (some s.freeTag)) none) core s.freeTag
      (f (s.remoteFlit p off))
    exact ⟨some s.freeTag, k, g, l, t, h⟩

/-- An operation of the D slot but START: the core's list of operations, the links, the engines and the semaphores' lines. -/
theorem State.dEffect_frame (s : State) (core : Nat) (t : Task) (c0 : Core) (x : DSlot) (h : ∀ r, x ≠ .start r) :
    ∃ i k g l tg e p, s.dEffect core t c0 x = { s.setCore core { s.core core with inflight := (s.core core).inflight ++ [i] } with
      links := k, regs := g, landing := l, tags := tg, engines := e, parts := p } := by
  cases x with
  | fld size rd ra =>
    obtain ⟨x, k, g, l, t, h⟩ := State.startFar_frame s core t.part ((c0.addr ra.toNat).getD 0)
      (.fld (if size then 8 else 4) rd.toNat ((c0.addr ra.toNat).getD 0))
      (fun f => { f with op := 2, len := BitVec.ofNat 9 (if size then 8 else 4) })
    exact ⟨_, k, g, l, t, s.engines, s.parts, h⟩
  | fst size rv ra cntEn counter =>
    obtain ⟨x, k, g, l, t, h⟩ := State.startFar_frame s core t.part ((c0.addr ra.toNat).getD 0)
      (.fst (if size then 8 else 4) ((c0.addr ra.toNat).getD 0) (if size then c0.pair rv.toNat else (c0.rd rv.toNat).toNat)
        (if cntEn then some counter.toNat else none))
      (fun f => { f with
        ackReq := true, op := 0, len := BitVec.ofNat 9 (if size then 8 else 4), cntEn := cntEn, counter := if cntEn then counter else 0,
        payload := leBytes (if size then 8 else 4) (if size then c0.pair rv.toNat else (c0.rd rv.toNat).toNat) })
    exact ⟨_, k, g, l, t, s.engines, s.parts, h⟩
  | atom size aop scope rd ra rb =>
    let x := atomArgs c0 size aop.toNat rb.toNat
    obtain ⟨y, k, g, l, t, h⟩ := State.startFar_frame s core t.part ((c0.addr ra.toNat).getD 0)
      (.atom x scope.toNat rd.toNat ((c0.addr ra.toNat).getD 0))
      (fun f => { f with
        ackReq := true, op := 3, len := BitVec.ofNat 9 x.size, aop := aop, payload := leBytes x.size x.value ++ leBytes x.size x.new })
    exact ⟨_, k, g, l, t, s.engines, s.parts, h⟩
  | start r => exact absurd rfl (h r)
  | fence | semacq | semrel | cntwait | dmak | tflush | tinval | lcfg =>
    exact ⟨_, s.links, s.regs, s.landing, s.tags, _, _, rfl⟩

theorem State.tEffect_frame (s : State) (core : Nat) (t : Task) (c0 : Core) (x : TSlot) :
    ∃ w, s.tEffect core t c0 x = { s with towers := w } := ⟨_, rfl⟩

end Sys2Proof.Machine
end

