-- ==== Sys2Proof/Laws/Issue.lean ====
section
/-! SUPPORT. Issue: when a long word issues its effects are those of `issueEffects`, and what each slot leaves of its core and
of the rest of the state. -/

namespace Sys2Proof.Machine

set_option Elab.async false

/-- A long word that issues has its effects on the state that its fetch and its checks leave. -/
theorem State.issue_eq {s : State} {w : LongWord} {t : Task} {u : State} (h : s.IssuesFrom w t u) :
    s.issue w = u.issueEffects w t := by
  obtain ⟨h1, h2, h3, h4, h5, h6, h7, h8⟩ := h
  unfold State.issue
  rcases hf : s.fetch w.core (longWordLen w) with ⟨f, r⟩
  rw [hf] at h4 h5 h6 h7
  simp_all

/-- Every command of a slot offers its long word for issue. -/
theorem exec_word {i : Instr} {w : LongWord} (h : i.word = some w) (s : State) : exec i s = .next (s.issue w) := by
  cases i <;> first | (cases h; rfl) | cases h

/-- A trap that a handler takes: the core's trap registers and its PC, and nothing else. -/
theorem State.takeTrap_handled {s : State} {c : Nat} {t : Trap} (source slots len : Nat) (addr : Option Nat)
    (hm : (s.core c).trapMode = false) (hv : (s.core c).trapVec ≠ 0) (ht : trapHandled t = true) :
    s.takeTrap c t source slots len addr = s.setCore c { s.core c with
      trapCause := causeWord t source slots, trapPc := (s.core c).pc, trapLen := len, stall := none,
      trapAddr := match addr with
        | some a => BitVec.ofNat 48 a
        | none => (s.core c).trapAddr
      trapMode := true, pc := (s.core c).trapVec + BitVec.ofNat 32 (32 * trapCode t) } := by
  have hv : ¬(s.core c).trapVec = 0#32 := hv
  simp [State.takeTrap, hm, hv, ht] <;> rfl

/-! ## START -/

theorem State.charge_frame (s : State) (g n : Nat) : ∃ x, s.charge g n = { s with groups := x } := ⟨_, rfl⟩

/-- Charging a core touches its purse and the class it has paid for. -/
theorem State.chargeCore_frame (s : State) (c k : Nat) :
    ∃ x g, s.chargeCore c k = { s.setCore c { s.core c with paidClass := x } with groups := g } ∨ s.chargeCore c k = s := by
  unfold State.chargeCore
  dsimp only
  split
  · split
    · exact ⟨none, [], .inr rfl⟩
    · exact ⟨_, _, .inl rfl⟩
  · exact ⟨_, _, .inl rfl⟩

/-- What the sequencer's work on a core leaves: its queues, the sequencer, its flags and its payment may change. -/
def Core.SeqOnly (c d : Core) : Prop :=
  ∃ q l f o p, d = { c with queues := q, seq := l, flags := f, lost := o, paidClass := p }

theorem Core.SeqOnly.refl (c : Core) : c.SeqOnly c := ⟨c.queues, c.seq, c.flags, c.lost, c.paidClass, rfl⟩

theorem Core.SeqOnly.trans {a b c : Core} (h : a.SeqOnly b) (k : b.SeqOnly c) : a.SeqOnly c := by
  obtain ⟨q, l, f, o, p, rfl⟩ := h
  obtain ⟨q', l', f', o', p', rfl⟩ := k
  exact ⟨q', l', f', o', p', rfl⟩

/-- The sequencer's own core, its group's purse, its tower's queue and the free values may change, and nothing else. -/
def State.SeqFrame (s n : State) (core : Nat) : Prop :=
  (s.core core).SeqOnly (n.core core) ∧ (∀ k, k ≠ core → n.core k = s.core k) ∧
  ∃ c t g f, n = { s with cores := c, towers := t, groups := g, free := f }

theorem State.SeqFrame.refl (s : State) (core : Nat) : s.SeqFrame s core :=
  ⟨Core.SeqOnly.refl _, fun _ _ => rfl, s.cores, s.towers, s.groups, s.free, rfl⟩

theorem State.SeqFrame.trans {a b c : State} {core : Nat} (h : a.SeqFrame b core) (k : b.SeqFrame c core) :
    a.SeqFrame c core := by
  obtain ⟨h1, h2, x, t, g, f, rfl⟩ := h
  obtain ⟨k1, k2, x', t', g', f', rfl⟩ := k
  exact ⟨h1.trans k1, fun i hi => (k2 i hi).trans (h2 i hi), x', t', g', f', rfl⟩

theorem State.SeqFrame.setCore (s : State) (core : Nat) (x : Core) (h : (s.core core).SeqOnly x) :
    s.SeqFrame (s.setCore core x) core :=
  ⟨by simpa using h, fun k hk => by simp [hk], _, s.towers, s.groups, s.free, rfl⟩

theorem State.seqBind_frame (s : State) (core p : Nat) (q : LayerSeq) (e : Nat × Format) :
    s.SeqFrame (s.seqBind core p q e).1 core := by
  unfold State.seqBind
  dsimp only
  split
  · split
    · exact .setCore _ _ _ ⟨_, (s.core core).seq, (s.core core).flags, (s.core core).lost, (s.core core).paidClass, rfl⟩
    · exact .refl _ _
  · split
    · exact .setCore _ _ _ ⟨_, (s.core core).seq, (s.core core).flags, (s.core core).lost, (s.core core).paidClass, rfl⟩
    · exact .refl _ _

theorem State.seqBinds_frame (l : List (Nat × Format)) (core p : Nat) (q : LayerSeq) (s : State) :
    s.SeqFrame (s.seqBinds core p q l).1 core := by
  induction l generalizing s with
  | nil => exact .refl _ _
  | cons e r ih =>
    have h := State.seqBind_frame s core p q e
    unfold State.seqBinds
    rcases hb : s.seqBind core p q e with ⟨s1, _ | n⟩
    · rwa [hb] at h
    · rw [hb] at h
      exact h.trans (ih _)

theorem State.seqIssue_frame (n core : Nat) (s : State) : s.SeqFrame (s.seqIssue core n) core := by
  induction n generalizing s with
  | zero => exact .refl _ _
  | succ n ih =>
    unfold State.seqIssue
    dsimp only
    split
    · split
      · exact .refl _ _
      · split
        · exact .refl _ _
        · refine State.SeqFrame.trans ?_ (ih _)
          refine ⟨?_, fun k hk => by simp [hk], _, _, s.groups, s.free, rfl⟩
          simp only [State.core_setCore, if_true]
          exact ⟨(s.core core).queues, _, (s.core core).flags, (s.core core).lost, (s.core core).paidClass, rfl⟩
    · exact .refl _ _

theorem State.chargeCore_seqFrame (s : State) (core k : Nat) : s.SeqFrame (s.chargeCore core k) core := by
  obtain ⟨x, g, h | h⟩ := State.chargeCore_frame s core k
  · rw [h]
    refine ⟨?_, fun k hk => ?_, _, s.towers, g, s.free, rfl⟩
    · show (s.core core).SeqOnly ((s.setCore core _).core core)
      rw [State.core_setCore, if_pos rfl]
      exact ⟨(s.core core).queues, (s.core core).seq, (s.core core).flags, (s.core core).lost, x, rfl⟩
    · show (s.setCore core _).core k = _
      rw [State.core_setCore, if_neg hk]
  · rw [h]
    exact .refl _ _

theorem Core.seqOnly_postFlag (c : Core) (q : LayerSeq) (n : Nat) : c.SeqOnly ({ c with seq := q }.postFlag n) := by
  unfold Core.postFlag
  dsimp only
  split
  · exact ⟨c.queues, q, _, c.lost, c.paidClass, rfl⟩
  · exact ⟨c.queues, q, c.flags, _, c.paidClass, rfl⟩

theorem State.tick_seqFrame (s : State) (core : Nat) : s.SeqFrame s.tick core :=
  ⟨.refl _, fun _ _ => rfl, s.cores, s.towers, s.groups, _, rfl⟩

theorem State.seqRun_frame (s : State) (core : Nat) (r : SliceRun) (f : LayerSeq → Option (Option Nat)) :
    s.SeqFrame (s.modCore core fun c => { c with seq := { c.seq with run := some r, status := .ok, trap := f c.seq } }) core :=
  .setCore _ _ _ ⟨(s.core core).queues, _, (s.core core).flags, (s.core core).lost, (s.core core).paidClass, rfl⟩

theorem State.startSlice_frame (s : State) (core p i : Nat) : s.SeqFrame (s.startSlice core p i) core := by
  have refuse (st : Status) : s.SeqFrame (s.modCore core fun c =>
      { c with seq := { c.seq with status := st } }.postFlag (s.core core).seq.doneFlag) core :=
    .setCore _ _ _ (Core.seqOnly_postFlag _ _ _)
  unfold State.startSlice
  dsimp only
  split
  · exact refuse _
  · split
    · exact refuse _
    · refine State.SeqFrame.trans ?_ (State.seqIssue_frame _ _ _)
      refine State.SeqFrame.trans ?_ (State.tick_seqFrame _ _)
      refine State.SeqFrame.trans ?_ (State.chargeCore_seqFrame _ _ _)
      refine State.SeqFrame.trans ?_ (State.seqRun_frame _ _ _ fun l =>
        if (s.seqBinds core p (s.core core).seq (s.core core).seq.bindOrder).2.isNone then some none else l.trap)
      exact State.seqBinds_frame _ _ _ _ _

/-! ## Every slot together -/

/-- What the D slot and a BIND leave of their core: its queue ends, operations, sequencer, flags and payment may change. -/
def Core.IssueOnly (c d : Core) : Prop :=
  ∃ q i l f o p, d = { c with queues := q, inflight := i, seq := l, flags := f, lost := o, paidClass := p }

theorem Core.IssueOnly.refl (c : Core) : c.IssueOnly c := ⟨c.queues, c.inflight, c.seq, c.flags, c.lost, c.paidClass, rfl⟩

theorem Core.IssueOnly.trans {a b c : Core} (h : a.IssueOnly b) (k : b.IssueOnly c) : a.IssueOnly c := by
  obtain ⟨q, i, l, f, o, p, rfl⟩ := h
  obtain ⟨q', i', l', f', o', p', rfl⟩ := k
  exact ⟨q', i', l', f', o', p', rfl⟩

/-- The parts of the state that a long word's slots may change beside its core. -/
def State.IssueFrame (s n : State) (core : Nat) : Prop :=
  (s.core core).IssueOnly (n.core core) ∧ (∀ k, k ≠ core → n.core k = s.core k) ∧
  ∃ c t g f k r l tg e p, n = { s with
    cores := c, towers := t, groups := g, free := f, links := k, regs := r, landing := l, tags := tg, engines := e, parts := p }

theorem State.IssueFrame.refl (s : State) (core : Nat) : s.IssueFrame s core :=
  ⟨.refl _, fun _ _ => rfl, s.cores, s.towers, s.groups, s.free, s.links, s.regs, s.landing, s.tags, s.engines, s.parts, rfl⟩

theorem State.IssueFrame.trans {a b c : State} {core : Nat} (h : a.IssueFrame b core) (k : b.IssueFrame c core) :
    a.IssueFrame c core := by
  obtain ⟨h1, h2, x1, x2, x3, x4, x5, x6, x7, x8, x9, x10, rfl⟩ := h
  obtain ⟨k1, k2, y1, y2, y3, y4, y5, y6, y7, y8, y9, y10, rfl⟩ := k
  exact ⟨h1.trans k1, fun i hi => (k2 i hi).trans (h2 i hi), y1, y2, y3, y4, y5, y6, y7, y8, y9, y10, rfl⟩

theorem State.dEffect_issueFrame (s : State) (core : Nat) (t : Task) (c0 : Core) (x : DSlot) :
    s.IssueFrame (s.dEffect core t c0 x) core := by
  by_cases hx : ∃ r, x = .start r
  · obtain ⟨r, rfl⟩ := hx
    obtain ⟨⟨q, l, f, o, p, h1⟩, h2, c, tw, g, fr, h⟩ := State.startSlice_frame s core t.part (c0.rd r.toNat).toNat
    refine ⟨⟨q, (s.core core).inflight, l, f, o, p, h1⟩, h2, c, tw, g, fr, s.links, s.regs, s.landing, s.tags, s.engines,
      s.parts, h⟩
  · obtain ⟨i, k, g, l, tg, e, p, h⟩ := State.dEffect_frame s core t c0 x (fun r hr => hx ⟨r, hr⟩)
    rw [h]
    refine ⟨?_, fun j hj => ?_, _, s.towers, s.groups, s.free, k, g, l, tg, e, p, rfl⟩
    · show (s.core core).IssueOnly ((s.setCore core _).core core)
      rw [State.core_setCore, if_pos rfl]
      exact ⟨(s.core core).queues, _, (s.core core).seq, (s.core core).flags, (s.core core).lost, (s.core core).paidClass, rfl⟩
    · show (s.setCore core _).core j = _
      rw [State.core_setCore, if_neg hj]

theorem State.bindEffect_issueFrame (s : State) (core : Nat) (c0 : Core) (n kind fmt depth param rb : Nat) :
    s.IssueFrame (s.bindEffect core c0 n kind fmt depth param rb) core := by
  refine ⟨?_, fun j hj => ?_, _, s.towers, s.groups, s.free, s.links, s.regs, s.landing, s.tags, s.engines, s.parts, rfl⟩
  · unfold State.bindEffect
    simp only [State.modCore_eq, State.core_setCore, if_true]
    split <;> exact ⟨_, _, (s.core core).seq, (s.core core).flags, (s.core core).lost, (s.core core).paidClass, rfl⟩
  · unfold State.bindEffect
    simp [hj]

/-- A hint touches only the code that a core keeps resident. -/
theorem Core.keepLoop_frame (c : Core) (w : LongWord) (base : Nat) (pc : Word) :
    ∃ l, c.keepLoop w base pc = { c with loopHead := l } := by
  unfold Core.keepLoop
  dsimp only
  split
  · exact ⟨_, rfl⟩
  · split
    · split
      · exact ⟨c.loopHead, rfl⟩
      · exact ⟨_, rfl⟩
    · exact ⟨c.loopHead, rfl⟩

/-- What a long word that issues changes: its core by its slots, and beside it what its D and T slots and a BIND may. -/
theorem State.issueEffects_frame (u : State) (w : LongWord) (t : Task) :
    ∃ l, (u.setCore w.core { u.coreEffects w with loopHead := l }).IssueFrame (u.issueEffects w t) w.core := by
  obtain ⟨l, hl⟩ := Core.keepLoop_frame (u.coreEffects w) w t.codeBase (u.core w.core).pc
  refine ⟨l, ?_⟩
  unfold State.issueEffects
  dsimp only
  rw [hl]
  generalize ({ u.coreEffects w with loopHead := l } : Core) = d
  have h0 : (u.setCore w.core d).IssueFrame (u.setCore w.core d).tick w.core :=
    ⟨.refl _, fun _ _ => rfl, _, u.towers, u.groups, _, u.links, u.regs, u.landing, u.tags, u.engines, u.parts, rfl⟩
  refine h0.trans ?_
  generalize (u.setCore w.core d).tick = v
  have hd (n : State) (x : Option DSlot) : n.IssueFrame (onSlot x (fun s x => s.dEffect w.core t (u.core w.core) x) n) w.core := by
    cases x with
    | none => exact .refl _ _
    | some d => exact State.dEffect_issueFrame _ _ _ _ _
  have ht (n : State) (x : Option TSlot) : n.IssueFrame (onSlot x (fun s x => s.tEffect w.core t (u.core w.core) x) n) w.core := by
    cases x with
    | none => exact .refl _ _
    | some d => exact ⟨.refl _, fun _ _ => rfl, n.cores, _, n.groups, n.free, n.links, n.regs, n.landing, n.tags, n.engines,
        n.parts, rfl⟩
  refine (hd v w.d).trans ((ht _ w.t).trans ?_)
  split
  · exact State.bindEffect_issueFrame _ _ _ _ _ _ _ _ _
  · exact .refl _ _

end Sys2Proof.Machine
end

