-- ==== Sys2Proof/Laws/Memory.lean ====
section
/-! SUPPORT. What a read or a write of memory leaves alone, whatever it wakes and reports on its way: everything outside the
memories and their reports, and every core of a group that runs. -/

namespace Sys2Proof.Machine

set_option Elab.async false

/-- The state without what an access to memory can change. -/
def State.outside (s : State) : State := { s with
    free := 0, cores := [], towers := [], cupolas := [], scratch := {}, spares := [], groups := [],
    engines := [], landing := {}, journal := [], hostMem := [] }
/-- Core `i` stands at `k`, in a group that runs. -/
def State.awake (s : State) (i : Nat) (k : Core) : Prop := (s.group (Config.groupOfCore i)).pstate = .g0 ∧ s.core i = k
/-! ## Repeated accesses -/

theorem foldl_outside {α : Type} (f : State → α → State) (l : List α) (s : State)
    (h : ∀ s x, (f s x).outside = s.outside) :
    (l.foldl f s).outside = s.outside := by
  induction l generalizing s with
  | nil => rfl
  | cons x l ih => simp only [List.foldl_cons, ih, h]

theorem foldl_outside1 {α β : Type} (f : State × β → α → State × β) (l : List α) (s : State × β)
    (h : ∀ s x, (f s x).1.outside = s.1.outside) :
    (l.foldl f s).1.outside = s.1.outside := by
  induction l generalizing s with
  | nil => rfl
  | cons x l ih => simp only [List.foldl_cons, ih, h]

theorem foldl_awake {α : Type} (l : List α) (f : State → α → State) (s : State) (i : Nat) (k : Core)
    (h : ∀ s a, s.awake i k → (f s a).awake i k) (hs : s.awake i k) : (l.foldl f s).awake i k := by
  induction l generalizing s with
  | nil => exact hs
  | cons a r ih => exact ih _ (h _ _ hs)

theorem foldl_awake1 {α β : Type} (l : List α) (f : State × β → α → State × β) (s : State × β) (i : Nat) (k : Core)
    (h : ∀ s a, s.1.awake i k → (f s a).1.awake i k) (hs : s.1.awake i k) : (l.foldl f s).1.awake i k := by
  induction l generalizing s with
  | nil => exact hs
  | cons a r ih => exact ih _ (h _ _ hs)
/-! ## Waking a group -/

theorem State.awake_congr {s n : State} {i : Nat} {k : Core} (hc : n.cores = s.cores) (hg : n.groups = s.groups) :
    s.awake i k → n.awake i k := by
  unfold State.awake State.core State.group
  rw [hc, hg]; exact id

theorem State.exitG3_awake (s : State) (g : Nat) (i0 : Nat) (k0 : Core) (hg : g ≠ Config.groupOfCore i0) :
    s.awake i0 k0 → (s.exitG3 g).awake i0 k0 := by
  intro h
  refine ⟨h.1, ?_⟩
  unfold State.exitG3 State.core
  refine (mget_mmapv _ _ _ ?_).trans ?_
  · unfold bareCore; split <;> rfl
  · rw [if_neg (fun e => hg e.symm)]; exact h.2

theorem State.wake_awake (s : State) (g : Nat) (i0 : Nat) (k0 : Core) : s.awake i0 k0 → (s.wake g).awake i0 k0 := by
  intro h
  unfold State.wake
  by_cases hg : g = Config.groupOfCore i0
  · subst hg
    simp [h.1]; exact h
  · split
    · exact h
    · exact ⟨by simp [State.group_setGroup, Ne.symm hg, h.1], by simpa using h.2⟩
    · exact ⟨by simp [State.group_setGroup, Ne.symm hg, h.1], by simpa using h.2⟩
    · have := State.exitG3_awake s g i0 k0 hg h
      exact ⟨by simpa [State.group_setGroup, Ne.symm hg] using this.1, by simpa using this.2⟩
    · exact h

/-! ## Everything else stays as it is -/

theorem State.setCore_outside (s : State) (c : Nat) (x : Core) : (State.setCore s c x).outside = s.outside := rfl

theorem State.setTower_outside (s : State) (t : Nat) (x : Tower) : (State.setTower s t x).outside = s.outside := rfl

theorem State.setGroup_outside (s : State) (g : Nat) (x : Group) : (State.setGroup s g x).outside = s.outside := rfl

theorem State.setCupola_outside (s : State) (k : Nat) (x : List Line) : (State.setCupola s k x).outside = s.outside := rfl

theorem State.modCore_outside (s : State) (c : Nat) (f : Core → Core) : (State.modCore s c f).outside = s.outside := rfl

theorem State.modTower_outside (s : State) (t : Nat) (f : Tower → Tower) : (State.modTower s t f).outside = s.outside := rfl

theorem State.modGroup_outside (s : State) (g : Nat) (f : Group → Group) : (State.modGroup s g f).outside = s.outside := rfl

theorem State.modLanding_outside (s : State) (f : Landing → Landing) : (State.modLanding s f).outside = s.outside := rfl

theorem State.setEngine_outside (s : State) (e : Nat) (x : Engine) : (State.setEngine s e x).outside = s.outside := rfl

theorem State.modEngine_outside (s : State) (e : Nat) (f : Engine → Engine) : (State.modEngine s e f).outside = s.outside := rfl

theorem State.setChan_outside (s : State) (e c : Nat) (x : Channel) : (State.setChan s e c x).outside = s.outside := rfl

theorem State.modChan_outside (s : State) (e c : Nat) (f : Channel → Channel) : (State.modChan s e c f).outside = s.outside := rfl

theorem State.tick_outside (s : State) : (State.tick s).outside = s.outside := rfl

theorem State.logError_outside (s : State) (e : ErrRec) : (State.logError s e).outside = s.outside := by
  unfold State.logError; grind [State.modLanding_outside]

theorem State.reportCe_outside (s : State) (pl : Place) (symbols : Nat) : (State.reportCe s pl symbols).outside = s.outside := by
  unfold State.reportCe; grind [State.logError_outside, State.setTower_outside]

theorem State.reportUe_outside (s : State) (pl : Place) : (State.reportUe s pl).outside = s.outside := by
  unfold State.reportUe; grind [State.logError_outside, State.modTower_outside]

theorem State.writeJournal_outside (s : State) (kind unit floor bank place : Nat) :
    (State.writeJournal s kind unit floor bank place).1.outside = s.outside := by
  fun_cases State.writeJournal <;> grind [State.outside]

theorem State.bankOut_outside (s : State) (pl : Place) : (State.bankOut s pl).outside = s.outside := by
  unfold State.bankOut; grind [State.logError_outside, State.modTower_outside]

theorem State.startColumn_outside (s : State) (pl : Place) : (State.startColumn s pl).outside = s.outside := by
  unfold State.startColumn; grind [State.bankOut_outside, State.setTower_outside]

theorem State.repairRow_outside (s : State) (pl : Place) (w : Nat) : (State.repairRow s pl w).outside = s.outside := by
  unfold State.repairRow; grind [State.bankOut_outside, State.logError_outside, State.setTower_outside,
      State.startColumn_outside, State.writeJournal_outside]

theorem State.report_outside (s : State) (pl : Place) (f : Finding) : (State.report s pl f).outside = s.outside := by
  unfold State.report; grind [State.reportCe_outside, State.reportUe_outside]

theorem State.readTower_outside (s : State) (pl : Place) (u : Upset) : (State.readTower s pl u).1.outside = s.outside := by
  unfold State.readTower; grind [State.modTower_outside, State.repairRow_outside, State.report_outside,
      State.setTower_outside, State.tick_outside]

theorem State.writeTower_outside (s : State) (pl : Place) (d : Memory) (poison : Bool) :
    (State.writeTower s pl d poison).outside = s.outside := rfl

theorem State.narrowTower_outside (s : State) (pl : Place) (off : Nat) (bs : List Byte) (u : Upset) :
    (State.narrowTower s pl off bs u).outside = s.outside := by
  unfold State.narrowTower; grind [State.readTower_outside, State.writeTower_outside]

theorem State.exitG3_outside (s : State) (g : Nat) : (State.exitG3 s g).outside = s.outside := rfl

theorem State.wake_outside (s : State) (g : Nat) : (State.wake s g).outside = s.outside := by
  unfold State.wake; grind [State.exitG3_outside, State.modGroup_outside]

theorem State.wakeTower_outside (s : State) (g : Nat) : (State.wakeTower s g).outside = s.outside := by
  unfold State.wakeTower; grind [State.wake_outside]

theorem State.logUnmapped_outside (s : State) (ag : Agent) (p t a : Nat) (dark completion : Bool) :
    (State.logUnmapped s ag p t a dark completion).outside = s.outside := by
  unfold State.logUnmapped; grind [State.logError_outside]

theorem State.markDegraded_outside (s : State) (ag : Agent) (t : Nat) : (State.markDegraded s ag t).outside = s.outside := by
  unfold State.markDegraded; grind [State.modChan_outside]

theorem State.admit_outside (s : State) (ag : Agent) (p a : Nat) (pl : Place) (write completion : Bool) :
    (State.admitAccess s ag p a pl write completion).1.outside = s.outside := by
  unfold State.admitAccess; grind [State.logUnmapped_outside, State.markDegraded_outside, State.wakeTower_outside]

theorem State.readScratch_outside (s : State) (p k off : Nat) (u : Upset) :
    (State.readScratch s p k off u).1.outside = s.outside := by
  fun_cases State.readScratch <;> grind [State.outside, State.logError_outside]

theorem State.writeScratch_outside (s : State) (k off : Nat) (d : Memory) (poison : Bool) :
    (State.writeScratch s k off d poison).outside = s.outside := rfl

theorem State.narrowScratch_outside (s : State) (p k off : Nat) (bs : List Byte) (u : Upset) :
    (State.narrowScratch s p k off bs u).outside = s.outside := by
  unfold State.narrowScratch; grind [State.readScratch_outside, State.writeScratch_outside]

theorem State.putLine_outside (s : State) (k : Nat) (l : Line) : (State.putLine s k l).outside = s.outside := rfl

theorem State.dropLine_outside (s : State) (k p la : Nat) : (State.dropLine s k p la).outside = s.outside := rfl

theorem State.writeLineWord_outside (s : State) (l : Line) (i : Nat) : (State.writeLineWord s l i).outside = s.outside := by
  unfold State.writeLineWord; grind [State.writeTower_outside]

theorem State.writeBack_outside (s : State) (k : Nat) (l : Line) : (State.writeBack s k l).outside = s.outside := by
  unfold State.writeBack; grind [foldl_outside, foldl_outside1, State.admit_outside, State.writeLineWord_outside]

theorem State.cleanLine_outside (s : State) (k p la : Nat) : (State.cleanLine s k p la).outside = s.outside := by
  unfold State.cleanLine; grind [State.putLine_outside, State.writeBack_outside]

theorem State.makeRoom_outside (s : State) (k p la : Nat) : (State.makeRoom s k p la).outside = s.outside := by
  unfold State.makeRoom; grind [State.cleanLine_outside, State.dropLine_outside, State.tick_outside]

theorem State.addLine_outside (s : State) (k : Nat) (l : Line) : (State.addLine s k l).outside = s.outside := by
  unfold State.addLine; grind [State.makeRoom_outside, State.putLine_outside]

theorem State.dropAll_outside (s : State) (p la : Nat) : (State.dropAll s p la).outside = s.outside := by
  unfold State.dropAll; grind [State.cleanLine_outside, State.dropLine_outside]

theorem State.fillWords_outside (s : State) (p la x0 x1 : Nat) : (State.fillWords s p la x0 x1).1.outside = s.outside := by
  fun_induction State.fillWords <;> grind [State.outside, foldl_outside, State.readTower_outside]

theorem State.getLine_outside (s : State) (k p la : Nat) : (State.getLine s k p la).1.outside = s.outside := by
  unfold State.getLine; grind [State.fillWords_outside]

theorem State.readCached_outside (s : State) (k p wa : Nat) : (State.readCached s k p wa).1.outside = s.outside := by
  unfold State.readCached; grind [State.addLine_outside, State.getLine_outside, State.putLine_outside, State.readTower_outside]

theorem State.dropOthers_outside (s : State) (k p la : Nat) : (State.dropOthers s k p la).outside = s.outside := by
  unfold State.dropOthers; grind [State.dropLine_outside]

theorem State.writeCached_outside (s : State) (k p a : Nat) (bs : List Byte) :
    (State.writeCached s k p a bs).outside = s.outside := by
  unfold State.writeCached; grind [State.addLine_outside, State.dropAll_outside, State.dropOthers_outside, State.getLine_outside,
      State.narrowTower_outside, State.putLine_outside, State.writeTower_outside]

theorem State.putHost_outside (s : State) (a : Nat) (bs : List Byte) : (State.putHost s a bs).outside = s.outside := rfl

theorem State.readWord_outside (s : State) (ag : Agent) (p wa : Nat) : (State.readWord s ag p wa).1.outside = s.outside := by
  unfold State.readWord
  split <;> try dsimp only
  · exact State.readScratch_outside _ _ _ _ _
  all_goals
    split
    · first | rfl | (split <;> rfl)
    all_goals
      first
      | rfl
      | (split
         · exact State.admit_outside _ _ _ _ _ _ _
         · split
           · exact (State.readTower_outside _ _ _).trans (State.admit_outside _ _ _ _ _ _ _)
           · split
             · exact (State.readCached_outside _ _ _ _).trans (State.admit_outside _ _ _ _ _ _ _)
             · exact State.admit_outside _ _ _ _ _ _ _
             · exact (State.readTower_outside _ _ _).trans (State.admit_outside _ _ _ _ _ _ _))

theorem State.writeWord_outside (s : State) (ag : Agent) (p a : Nat) (bs : List Byte) (poison completion : Bool) :
    (State.writeWord s ag p a bs poison completion).1.outside = s.outside := by
  unfold State.writeWord; grind [State.admit_outside, State.dropAll_outside, State.narrowScratch_outside,
      State.narrowTower_outside, State.putHost_outside, State.writeCached_outside, State.writeScratch_outside,
      State.writeTower_outside]

theorem State.readRunGo_outside (s : State) (ag : Agent) (p a n x0 x1 : Nat) :
    (State.readRunGo s ag p a n x0 x1).1.outside = s.outside := by
  fun_induction State.readRunGo <;> grind [State.outside, foldl_outside, State.readWord_outside]

theorem State.readRun_outside (s : State) (ag : Agent) (p a n : Nat) : (State.readRun s ag p a n).1.outside = s.outside := by
  unfold State.readRun; grind [State.readRunGo_outside]

theorem State.writeRunGo_outside (s : State) (ag : Agent) (p : Nat) (completion : Bool) (poison : List Nat) (x0 x1 x2 : Nat)
    (x3 : List Byte) :
    (State.writeRunGo s ag p completion poison x0 x1 x2 x3).1.outside = s.outside := by
  fun_induction State.writeRunGo <;> grind [State.outside, foldl_outside, State.writeWord_outside]

theorem State.writeRun_outside (s : State) (ag : Agent) (p a : Nat) (bs : List Byte) (poison : List Nat) (completion : Bool) :
    (State.writeRun s ag p a bs poison completion).1.outside = s.outside := by
  unfold State.writeRun; grind [State.writeRunGo_outside]

theorem State.writeRecord_outside (s : State) (ag : Agent) (p a : Nat) (rec : List Byte) :
    (State.writeRecord s ag p a rec).outside = s.outside := by
  unfold State.writeRecord; grind [State.logError_outside, State.writeRun_outside]

theorem State.fetchRun_outside (s : State) (ag : Agent) (p a n : Nat) : (State.fetchRun s ag p a n).1.outside = s.outside := by
  unfold State.fetchRun; grind [State.readRun_outside, State.tick_outside]

theorem State.checkAlloc_outside (s : State) (ag : Agent) (p : Nat) (d : TensorDesc) :
    (State.checkAlloc s ag p d).1.outside = s.outside := by
  unfold State.checkAlloc; grind [State.readRun_outside]

theorem State.createDesc_outside (s : State) (ag : Agent) (p a : Nat) : (State.createDesc s ag p a).1.outside = s.outside := by
  unfold State.createDesc; grind [State.checkAlloc_outside, State.readRun_outside]

theorem State.readImage_outside (s : State) (ag : Agent) (p : Nat) (im : Image) (x0 : List Nat) :
    (State.readImage s ag p im x0).1.outside = s.outside := by
  fun_induction State.readImage <;> grind [State.outside, foldl_outside, State.readWord_outside]

theorem State.towerRecord_outside (s : State) (t : Nat) (c : TowerCmd) (st : Status) (flags progress : Nat) :
    (State.towerRecord s t c st flags progress).outside = s.outside := by
  unfold State.towerRecord; grind [State.writeRecord_outside]

theorem State.writeBitsWord_outside (s : State) (ag : Agent) (p w : Nat) (l : List (Nat × (Nat × Nat))) (poison : Bool) :
    (State.writeBitsWord s ag p w l poison).1.outside = s.outside := by
  unfold State.writeBitsWord; grind [foldl_outside, foldl_outside1, State.readWord_outside, State.writeWord_outside]

theorem State.writeWords_outside (s : State) (ag : Agent) (p : Nat) (poison : List Nat)
    (l : List (Nat × List (Nat × (Nat × Nat)))) : (State.writeWords s ag p poison l).1.outside = s.outside := by
  fun_induction State.writeWords <;> grind [State.writeBitsWord_outside]

theorem State.writeBits_outside (s : State) (ag : Agent) (p : Nat) (m : BitWrites) (poison : List Nat) :
    (State.writeBits s ag p m poison).1.outside = s.outside := State.writeWords_outside _ _ _ _ _

theorem State.readCells_outside (s : State) (ag : Agent) (p : Nat) (d : TensorDesc) (l : List Resolved) :
    ((State.readCells s ag p d l).1).outside = s.outside := by
  unfold State.readCells; grind [State.readImage_outside]

theorem State.readTile_outside (s : State) (ag : Agent) (p : Nat) (d : TensorDesc) (rows cols : Nat)
    (at_ : Nat → Nat → Resolved) :
    ((State.readTile s ag p d rows cols at_).1).outside = s.outside := by
  unfold State.readTile; exact State.readCells_outside _ _ _ _ _

theorem State.writeTile_outside (s : State) (ag : Agent) (p : Nat) (d : TensorDesc) (r0 c0 : Nat) (outer : List Nat)
    (t : Tile) (rowTag : Nat) :
    (State.writeTile s ag p d r0 c0 outer t rowTag).1.outside = s.outside := by
  unfold State.writeTile; grind [State.writeBits_outside]

theorem State.createAll_outside (s : State) (ag : Agent) (p : Nat) (x0 : List Nat) :
    (State.createAll s ag p x0).1.outside = s.outside := by
  fun_induction State.createAll <;> grind [State.outside, foldl_outside, State.createDesc_outside]

theorem State.atomicAt_outside (s : State) (ag : Agent) (p a : Nat) (x : AtomArgs) :
    (State.atomicAt s ag p a x).1.outside = s.outside := by
  unfold State.atomicAt; grind [State.dropAll_outside, State.readWord_outside, State.writeWord_outside]

theorem State.readSegs_outside (s : State) (e p : Nat) (x0 : List (Nat × Nat)) :
    (State.readSegs s e p x0).1.outside = s.outside := by
  fun_induction State.readSegs <;> grind [State.outside, foldl_outside, State.readRun_outside]

theorem State.putMarked_outside (s : State) (e p x0 x1 : Nat) (x2 : List (Byte × Bool)) :
    (State.putMarked s e p x0 x1 x2).1.outside = s.outside := by
  fun_induction State.putMarked <;> grind [State.outside, foldl_outside, State.writeWord_outside]

theorem State.writeSegs_outside (s : State) (e p : Nat) (x0 : List (Nat × Nat)) (x1 : List (Byte × Bool)) :
    (State.writeSegs s e p x0 x1).1.outside = s.outside := by
  fun_induction State.writeSegs <;> grind [State.outside, foldl_outside, State.putMarked_outside]

theorem State.readDma_outside (s : State) (e p a : Nat) : (State.readDma s e p a).1.outside = s.outside := by
  unfold State.readDma; grind [State.readRun_outside]

theorem State.readArgs_outside (s : State) (p : Nat) (r : RunCmd) : (State.readArgs s p r).1.outside = s.outside := by
  unfold State.readArgs; grind [State.readRun_outside]

theorem State.readEntry_outside (s : State) (p j : Nat) : (State.readEntry s p j).1.outside = s.outside := by
  unfold State.readEntry; grind [State.fetchRun_outside]

theorem State.readSeq_outside (s : State) (t p a : Nat) : (State.readSeq s t p a).1.outside = s.outside := by
  unfold State.readSeq; grind [State.readRun_outside]

theorem State.readKeep_outside (s : State) (t p a : Nat) : (State.readKeep s t p a).1.outside = s.outside := by
  unfold State.readKeep; grind [State.readRun_outside]

theorem State.pageEntry_outside (s : State) (t p : Nat) (q : SeqTable) (k : Nat) :
    (State.pageEntry s t p q k).1.outside = s.outside := by
  unfold State.pageEntry; grind [State.readKeep_outside]

theorem State.pageEntries_outside (s : State) (t p : Nat) (q : SeqTable) (x0 : List Nat) :
    (State.pageEntries s t p q x0).1.outside = s.outside := by
  fun_induction State.pageEntries <;> grind [State.outside, foldl_outside, State.pageEntry_outside]

theorem State.srvRead_outside (s : State) (p a n : Nat) : (State.srvRead s p a n).1.outside = s.outside := by
  unfold State.srvRead; grind [State.readRun_outside]

theorem State.kvTable_outside (s : State) (p a : Nat) : (State.kvTable s p a).1.outside = s.outside := by
  unfold State.kvTable; grind [State.srvRead_outside]

theorem State.kvTables_outside (s : State) (p dir x0 : Nat) : (State.kvTables s p dir x0).1.outside = s.outside := by
  fun_induction State.kvTables <;> grind [State.outside, foldl_outside, State.kvTable_outside, State.srvRead_outside]

theorem State.reqTables_outside (s : State) (p e : Nat) : (State.reqTables s p e).1.outside = s.outside := by
  unfold State.reqTables; grind [State.kvTables_outside]

theorem State.pagesDue_outside (s : State) (p : Nat) (x0 : List (Nat × Nat)) : (State.pagesDue s p x0).1.outside = s.outside := by
  fun_induction State.pagesDue <;> grind [State.outside, foldl_outside, State.reqTables_outside]

theorem State.checkStaging_outside (s : State) (t : Nat) (c : TowerCmd) (descs : List (Option TensorDesc)) (q : SeqTable) :
    (State.checkStaging s t c descs q).1.outside = s.outside := by
  unfold State.checkStaging; grind [State.pageEntries_outside, State.pagesDue_outside]

theorem State.flushLines_outside (s : State) (k p a n : Nat) : (State.flushLines s k p a n).outside = s.outside := by
  unfold State.flushLines; grind [foldl_outside, foldl_outside1, State.cleanLine_outside]

theorem State.checkAttn_outside (s : State) (t : Nat) (c : TowerCmd) (d : TensorDesc) (q : SeqTable) :
    (State.checkAttn s t c d q).1.outside = s.outside := by
  unfold State.checkAttn; grind [State.pageEntries_outside]

theorem State.cmdDescs_outside (s : State) (t : Nat) (c : TowerCmd) : (State.cmdDescs s t c).1.outside = s.outside := by
  unfold State.cmdDescs; grind [State.createAll_outside]

theorem State.cmdRules_outside (s : State) (t : Nat) (c : TowerCmd) (d : List (Option TensorDesc)) :
    (State.cmdRules s t c d).1.outside = s.outside := by
  unfold State.cmdRules; grind [State.checkAttn_outside, State.checkStaging_outside, State.readSeq_outside]

theorem State.checkCmd_outside (s : State) (t : Nat) (c : TowerCmd) : (State.checkCmd s t c).1.outside = s.outside := by
  unfold State.checkCmd; grind [State.cmdDescs_outside, State.cmdRules_outside]

theorem State.cupolaTile_outside (s : State) (core p : Nat) (q : Queue) :
    (State.cupolaTile s core p q).1.outside = s.outside := by
  unfold State.cupolaTile; grind [State.readRun_outside]

/-! ## The cores of a group that runs stay as they are -/

theorem State.setTower_awake (s : State) (t : Nat) (x : Tower) (i0 : Nat) (k0 : Core) :
    s.awake i0 k0 → (State.setTower s t x).awake i0 k0 := id

theorem State.setPart_awake (s : State) (p : Nat) (x : Part) (i0 : Nat) (k0 : Core) :
    s.awake i0 k0 → (State.setPart s p x).awake i0 k0 := id

theorem State.setCupola_awake (s : State) (k : Nat) (x : List Line) (i0 : Nat) (k0 : Core) :
    s.awake i0 k0 → (State.setCupola s k x).awake i0 k0 := id

theorem State.modTower_awake (s : State) (t : Nat) (f : Tower → Tower) (i0 : Nat) (k0 : Core) :
    s.awake i0 k0 → (State.modTower s t f).awake i0 k0 := id

theorem State.modPart_awake (s : State) (p : Nat) (f : Part → Part) (i0 : Nat) (k0 : Core) :
    s.awake i0 k0 → (State.modPart s p f).awake i0 k0 := id

theorem State.modLanding_awake (s : State) (f : Landing → Landing) (i0 : Nat) (k0 : Core) :
    s.awake i0 k0 → (State.modLanding s f).awake i0 k0 := id

theorem State.setEngine_awake (s : State) (e : Nat) (x : Engine) (i0 : Nat) (k0 : Core) :
    s.awake i0 k0 → (State.setEngine s e x).awake i0 k0 := id

theorem State.modEngine_awake (s : State) (e : Nat) (f : Engine → Engine) (i0 : Nat) (k0 : Core) :
    s.awake i0 k0 → (State.modEngine s e f).awake i0 k0 := id

theorem State.setChan_awake (s : State) (e c : Nat) (x : Channel) (i0 : Nat) (k0 : Core) :
    s.awake i0 k0 → (State.setChan s e c x).awake i0 k0 := id

theorem State.modChan_awake (s : State) (e c : Nat) (f : Channel → Channel) (i0 : Nat) (k0 : Core) :
    s.awake i0 k0 → (State.modChan s e c f).awake i0 k0 := id

theorem State.tick_awake (s : State) (i0 : Nat) (k0 : Core) : s.awake i0 k0 → (State.tick s).awake i0 k0 := id

theorem State.logError_awake (s : State) (e : ErrRec) (i0 : Nat) (k0 : Core) :
    s.awake i0 k0 → (State.logError s e).awake i0 k0 := by
  intro h; unfold State.logError; grind [State.modLanding_awake, State.wake_awake, State.exitG3_awake]

theorem State.reportCe_awake (s : State) (pl : Place) (symbols i0 : Nat) (k0 : Core) :
    s.awake i0 k0 → (State.reportCe s pl symbols).awake i0 k0 := by
  intro h; unfold State.reportCe; grind [State.logError_awake, State.setTower_awake, State.wake_awake, State.exitG3_awake]

theorem State.reportUe_awake (s : State) (pl : Place) (i0 : Nat) (k0 : Core) :
    s.awake i0 k0 → (State.reportUe s pl).awake i0 k0 := by
  intro h; unfold State.reportUe; grind [State.logError_awake, State.modTower_awake, State.wake_awake, State.exitG3_awake]

theorem State.writeJournal_awake (s : State) (kind unit floor bank place i0 : Nat) (k0 : Core) :
    s.awake i0 k0 → (State.writeJournal s kind unit floor bank place).1.awake i0 k0 := by
  intro h; unfold State.writeJournal; grind [State.awake_congr, State.wake_awake, State.exitG3_awake]

theorem State.bankOut_awake (s : State) (pl : Place) (i0 : Nat) (k0 : Core) :
    s.awake i0 k0 → (State.bankOut s pl).awake i0 k0 := by
  intro h; unfold State.bankOut; grind [State.logError_awake, State.modTower_awake, State.wake_awake, State.exitG3_awake]

theorem State.startColumn_awake (s : State) (pl : Place) (i0 : Nat) (k0 : Core) :
    s.awake i0 k0 → (State.startColumn s pl).awake i0 k0 := by
  intro h; unfold State.startColumn; grind [State.bankOut_awake, State.setTower_awake, State.wake_awake, State.exitG3_awake]

theorem State.repairRow_awake (s : State) (pl : Place) (w i0 : Nat) (k0 : Core) :
    s.awake i0 k0 → (State.repairRow s pl w).awake i0 k0 := by
  intro h; unfold State.repairRow; grind [State.bankOut_awake, State.logError_awake, State.setTower_awake,
      State.startColumn_awake, State.writeJournal_awake, State.wake_awake, State.exitG3_awake]

theorem State.report_awake (s : State) (pl : Place) (f : Finding) (i0 : Nat) (k0 : Core) :
    s.awake i0 k0 → (State.report s pl f).awake i0 k0 := by
  intro h; unfold State.report; grind [State.reportCe_awake, State.reportUe_awake, State.wake_awake, State.exitG3_awake]

theorem State.readTower_awake (s : State) (pl : Place) (u : Upset) (i0 : Nat) (k0 : Core) :
    s.awake i0 k0 → (State.readTower s pl u).1.awake i0 k0 := by
  intro h; unfold State.readTower; grind [State.modTower_awake, State.repairRow_awake, State.report_awake,
      State.setTower_awake, State.tick_awake, State.wake_awake, State.exitG3_awake]

theorem State.writeTower_awake (s : State) (pl : Place) (d : Memory) (poison : Bool) (i0 : Nat) (k0 : Core) :
    s.awake i0 k0 → (State.writeTower s pl d poison).awake i0 k0 := id

theorem State.narrowTower_awake (s : State) (pl : Place) (off : Nat) (bs : List Byte) (u : Upset) (i0 : Nat) (k0 : Core) :
    s.awake i0 k0 → (State.narrowTower s pl off bs u).awake i0 k0 := by
  intro h; unfold State.narrowTower; grind [State.readTower_awake, State.writeTower_awake, State.wake_awake,
      State.exitG3_awake]

theorem State.wakeTower_awake (s : State) (g i0 : Nat) (k0 : Core) : s.awake i0 k0 → (State.wakeTower s g).awake i0 k0 := by
  intro h; unfold State.wakeTower; grind [State.wake_awake, State.exitG3_awake]

theorem State.logUnmapped_awake (s : State) (ag : Agent) (p t a : Nat) (dark completion : Bool) (i0 : Nat) (k0 : Core) :
    s.awake i0 k0 → (State.logUnmapped s ag p t a dark completion).awake i0 k0 := by
  intro h; unfold State.logUnmapped; grind [State.logError_awake, State.wake_awake, State.exitG3_awake]

theorem State.markDegraded_awake (s : State) (ag : Agent) (t i0 : Nat) (k0 : Core) :
    s.awake i0 k0 → (State.markDegraded s ag t).awake i0 k0 := by
  intro h; unfold State.markDegraded; grind [State.modChan_awake, State.wake_awake, State.exitG3_awake]

theorem State.admit_awake (s : State) (ag : Agent) (p a : Nat) (pl : Place) (write completion : Bool) (i0 : Nat) (k0 : Core) :
    s.awake i0 k0 → (State.admitAccess s ag p a pl write completion).1.awake i0 k0 := by
  intro h; unfold State.admitAccess; grind [State.logUnmapped_awake, State.markDegraded_awake, State.wakeTower_awake,
      State.wake_awake, State.exitG3_awake]

theorem State.readScratch_awake (s : State) (p k off : Nat) (u : Upset) (i0 : Nat) (k0 : Core) :
    s.awake i0 k0 → (State.readScratch s p k off u).1.awake i0 k0 := by
  intro h; unfold State.readScratch; grind [State.awake_congr, State.logError_awake, State.wake_awake, State.exitG3_awake]

theorem State.writeScratch_awake (s : State) (k off : Nat) (d : Memory) (poison : Bool) (i0 : Nat) (k0 : Core) :
    s.awake i0 k0 → (State.writeScratch s k off d poison).awake i0 k0 := id

theorem State.narrowScratch_awake (s : State) (p k off : Nat) (bs : List Byte) (u : Upset) (i0 : Nat) (k0 : Core) :
    s.awake i0 k0 → (State.narrowScratch s p k off bs u).awake i0 k0 := by
  intro h; unfold State.narrowScratch; grind [State.readScratch_awake, State.writeScratch_awake, State.wake_awake,
      State.exitG3_awake]

theorem State.putLine_awake (s : State) (k : Nat) (l : Line) (i0 : Nat) (k0 : Core) :
    s.awake i0 k0 → (State.putLine s k l).awake i0 k0 := id

theorem State.dropLine_awake (s : State) (k p la i0 : Nat) (k0 : Core) :
    s.awake i0 k0 → (State.dropLine s k p la).awake i0 k0 := id

theorem State.writeLineWord_awake (s : State) (l : Line) (i i0 : Nat) (k0 : Core) :
    s.awake i0 k0 → (State.writeLineWord s l i).awake i0 k0 := by
  intro h; unfold State.writeLineWord; grind [State.writeTower_awake, State.wake_awake, State.exitG3_awake]

theorem State.writeBack_awake (s : State) (k : Nat) (l : Line) (i0 : Nat) (k0 : Core) :
    s.awake i0 k0 → (State.writeBack s k l).awake i0 k0 := by
  intro h; unfold State.writeBack; grind [foldl_awake, foldl_awake1, State.admit_awake, State.writeLineWord_awake,
      State.wake_awake, State.exitG3_awake]

theorem State.cleanLine_awake (s : State) (k p la i0 : Nat) (k0 : Core) :
    s.awake i0 k0 → (State.cleanLine s k p la).awake i0 k0 := by
  intro h; unfold State.cleanLine; grind [State.putLine_awake, State.writeBack_awake, State.wake_awake, State.exitG3_awake]

theorem State.makeRoom_awake (s : State) (k p la i0 : Nat) (k0 : Core) :
    s.awake i0 k0 → (State.makeRoom s k p la).awake i0 k0 := by
  intro h; unfold State.makeRoom; grind [State.cleanLine_awake, State.dropLine_awake, State.tick_awake]

theorem State.addLine_awake (s : State) (k : Nat) (l : Line) (i0 : Nat) (k0 : Core) :
    s.awake i0 k0 → (State.addLine s k l).awake i0 k0 := by
  intro h; unfold State.addLine; grind [State.makeRoom_awake, State.putLine_awake]

theorem State.dropAll_awake (s : State) (p la i0 : Nat) (k0 : Core) : s.awake i0 k0 → (State.dropAll s p la).awake i0 k0 := by
  intro h; unfold State.dropAll; grind [foldl_awake, foldl_awake1, State.cleanLine_awake, State.dropLine_awake,
      State.wake_awake, State.exitG3_awake]

theorem State.fillWords_awake (s : State) (p la x0 x1 i0 : Nat) (k0 : Core) :
    s.awake i0 k0 → (State.fillWords s p la x0 x1).1.awake i0 k0 := by
  intro h; fun_induction State.fillWords <;> grind [foldl_awake, State.readTower_awake, State.wake_awake, State.exitG3_awake]

theorem State.getLine_awake (s : State) (k p la i0 : Nat) (k0 : Core) :
    s.awake i0 k0 → (State.getLine s k p la).1.awake i0 k0 := by
  intro h; unfold State.getLine; grind [State.fillWords_awake, State.wake_awake, State.exitG3_awake]

theorem State.readCached_awake (s : State) (k p wa i0 : Nat) (k0 : Core) :
    s.awake i0 k0 → (State.readCached s k p wa).1.awake i0 k0 := by
  intro h; unfold State.readCached; grind [State.addLine_awake, State.getLine_awake, State.putLine_awake, State.readTower_awake,
      State.wake_awake, State.exitG3_awake]

theorem State.dropOthers_awake (s : State) (k p la i0 : Nat) (k0 : Core) :
    s.awake i0 k0 → (State.dropOthers s k p la).awake i0 k0 := by
  intro h; unfold State.dropOthers; grind [State.dropLine_awake, State.wake_awake, State.exitG3_awake]

theorem State.writeCached_awake (s : State) (k p a : Nat) (bs : List Byte) (i0 : Nat) (k0 : Core) :
    s.awake i0 k0 → (State.writeCached s k p a bs).awake i0 k0 := by
  intro h; unfold State.writeCached; grind [State.addLine_awake, State.dropAll_awake, State.dropOthers_awake, State.getLine_awake,
      State.narrowTower_awake, State.putLine_awake, State.writeTower_awake, State.wake_awake, State.exitG3_awake]

theorem State.putHost_awake (s : State) (a : Nat) (bs : List Byte) (i0 : Nat) (k0 : Core) :
    s.awake i0 k0 → (State.putHost s a bs).awake i0 k0 := id

theorem State.readWord_awake (s : State) (ag : Agent) (p wa i0 : Nat) (k0 : Core) :
    s.awake i0 k0 → (State.readWord s ag p wa).1.awake i0 k0 := by
  intro h
  unfold State.readWord
  split <;> try dsimp only
  · exact State.readScratch_awake _ _ _ _ _ _ _ h
  all_goals
    first | exact h | skip
  all_goals
    split
    · first | exact h | (split <;> exact h)
    all_goals
      first
      | exact h
      | (split
         · exact State.admit_awake _ _ _ _ _ _ _ _ _ h
         · split
           · exact State.readTower_awake _ _ _ _ _ (State.admit_awake _ _ _ _ _ _ _ _ _ h)
           · split
             · exact State.readCached_awake _ _ _ _ _ _ (State.admit_awake _ _ _ _ _ _ _ _ _ h)
             · exact State.admit_awake _ _ _ _ _ _ _ _ _ h
             · exact State.readTower_awake _ _ _ _ _ (State.admit_awake _ _ _ _ _ _ _ _ _ h))

theorem State.writeWord_awake (s : State) (ag : Agent) (p a : Nat) (bs : List Byte) (poison completion : Bool) (i0 : Nat)
    (k0 : Core) :
    s.awake i0 k0 → (State.writeWord s ag p a bs poison completion).1.awake i0 k0 := by
  intro h
  unfold State.writeWord
  have hn := fun u pl off bs (hu : State.awake u i0 k0) => State.narrowTower_awake u pl off bs .none i0 k0 hu
  have hw := fun u pl d z (hu : State.awake u i0 k0) => State.writeTower_awake u pl d z i0 k0 hu
  split <;> try dsimp only
  · split
    · exact State.writeScratch_awake _ _ _ _ _ _ _ h
    · exact State.narrowScratch_awake _ _ _ _ _ _ _ _ h
  all_goals
    first | exact h | skip
  all_goals
    split
    · first
      | exact h
      | (split
         · split
           · exact h
           · exact State.putHost_awake _ _ _ _ _ h
         · exact h)
    all_goals
      first
      | exact h
      | (have ha := State.admit_awake s ag p a ‹Place› true completion i0 k0 h
         have hd := State.dropAll_awake _ p (lineAddr a) i0 k0 ha
         grind [State.writeCached_awake, State.dropAll_awake])

theorem State.readRunGo_awake (s : State) (ag : Agent) (p a n x0 x1 i0 : Nat) (k0 : Core) :
    s.awake i0 k0 → (State.readRunGo s ag p a n x0 x1).1.awake i0 k0 := by
  intro h; fun_induction State.readRunGo <;> grind [foldl_awake, State.readWord_awake, State.wake_awake, State.exitG3_awake]

theorem State.readRun_awake (s : State) (ag : Agent) (p a n i0 : Nat) (k0 : Core) :
    s.awake i0 k0 → (State.readRun s ag p a n).1.awake i0 k0 := by
  intro h; unfold State.readRun; grind [State.readRunGo_awake, State.wake_awake, State.exitG3_awake]

theorem State.writeRunGo_awake (s : State) (ag : Agent) (p : Nat) (completion : Bool) (poison : List Nat) (x0 x1 x2 : Nat)
    (x3 : List Byte) (i0 : Nat) (k0 : Core) :
    s.awake i0 k0 → (State.writeRunGo s ag p completion poison x0 x1 x2 x3).1.awake i0 k0 := by
  intro h; fun_induction State.writeRunGo <;> grind [foldl_awake, State.writeWord_awake, State.wake_awake,
      State.exitG3_awake]

theorem State.writeRun_awake (s : State) (ag : Agent) (p a : Nat) (bs : List Byte) (poison : List Nat) (completion : Bool)
    (i0 : Nat) (k0 : Core) :
    s.awake i0 k0 → (State.writeRun s ag p a bs poison completion).1.awake i0 k0 := by
  intro h; unfold State.writeRun; grind [State.writeRunGo_awake, State.wake_awake, State.exitG3_awake]

theorem State.writeRecord_awake (s : State) (ag : Agent) (p a : Nat) (rec : List Byte) (i0 : Nat) (k0 : Core) :
    s.awake i0 k0 → (State.writeRecord s ag p a rec).awake i0 k0 := by
  intro h; unfold State.writeRecord; grind [State.logError_awake, State.writeRun_awake, State.wake_awake, State.exitG3_awake]

theorem State.fetchRun_awake (s : State) (ag : Agent) (p a n i0 : Nat) (k0 : Core) :
    s.awake i0 k0 → (State.fetchRun s ag p a n).1.awake i0 k0 := by
  intro h; unfold State.fetchRun; grind [State.readRun_awake, State.tick_awake, State.wake_awake, State.exitG3_awake]

theorem State.addCounter_awake (s : State) (p i n i0 : Nat) (k0 : Core) :
    s.awake i0 k0 → (State.addCounter s p i n).awake i0 k0 := id

theorem State.checkAlloc_awake (s : State) (ag : Agent) (p : Nat) (d : TensorDesc) (i0 : Nat) (k0 : Core) :
    s.awake i0 k0 → (State.checkAlloc s ag p d).1.awake i0 k0 := by
  intro h; unfold State.checkAlloc; grind [State.readRun_awake, State.wake_awake, State.exitG3_awake]

theorem State.createDesc_awake (s : State) (ag : Agent) (p a i0 : Nat) (k0 : Core) :
    s.awake i0 k0 → (State.createDesc s ag p a).1.awake i0 k0 := by
  intro h; unfold State.createDesc; grind [State.checkAlloc_awake, State.readRun_awake, State.wake_awake, State.exitG3_awake]

theorem State.readImage_awake (s : State) (ag : Agent) (p : Nat) (im : Image) (x0 : List Nat) (i0 : Nat) (k0 : Core) :
    s.awake i0 k0 → (State.readImage s ag p im x0).1.awake i0 k0 := by
  intro h; fun_induction State.readImage <;> grind [foldl_awake, State.readWord_awake, State.wake_awake, State.exitG3_awake]

theorem State.towerRecord_awake (s : State) (t : Nat) (c : TowerCmd) (st : Status) (flags progress i0 : Nat) (k0 : Core) :
    s.awake i0 k0 → (State.towerRecord s t c st flags progress).awake i0 k0 := by
  intro h; unfold State.towerRecord; grind [State.writeRecord_awake, State.wake_awake, State.exitG3_awake]

theorem State.writeBitsWord_awake (s : State) (ag : Agent) (p w : Nat) (l : List (Nat × (Nat × Nat))) (poison : Bool)
    (i0 : Nat) (k0 : Core) :
    s.awake i0 k0 → (State.writeBitsWord s ag p w l poison).1.awake i0 k0 := by
  intro h; unfold State.writeBitsWord; grind [foldl_awake, foldl_awake1, State.readWord_awake, State.writeWord_awake,
      State.wake_awake, State.exitG3_awake]

theorem State.writeWords_awake (s : State) (ag : Agent) (p : Nat) (poison : List Nat)
    (l : List (Nat × List (Nat × (Nat × Nat)))) (i0 : Nat) (k0 : Core) :
    s.awake i0 k0 → (State.writeWords s ag p poison l).1.awake i0 k0 := by
  intro h; fun_induction State.writeWords <;> grind [State.writeBitsWord_awake]

theorem State.writeBits_awake (s : State) (ag : Agent) (p : Nat) (m : BitWrites) (poison : List Nat) (i0 : Nat) (k0 : Core) :
    s.awake i0 k0 → (State.writeBits s ag p m poison).1.awake i0 k0 := State.writeWords_awake _ _ _ _ _ _ _

theorem State.readCells_awake (s : State) (ag : Agent) (p : Nat) (d : TensorDesc) (l : List Resolved) (i0 : Nat) (k0 : Core) :
    s.awake i0 k0 → ((State.readCells s ag p d l).1).awake i0 k0 := by
  intro h; unfold State.readCells; grind [State.readImage_awake]

theorem State.readTile_awake (s : State) (ag : Agent) (p : Nat) (d : TensorDesc) (rows cols : Nat)
    (at_ : Nat → Nat → Resolved) (i0 : Nat) (k0 : Core) :
    s.awake i0 k0 → ((State.readTile s ag p d rows cols at_).1).awake i0 k0 := by
  intro h; unfold State.readTile; exact State.readCells_awake _ _ _ _ _ _ _ h

theorem State.writeTile_awake (s : State) (ag : Agent) (p : Nat) (d : TensorDesc) (r0 c0 : Nat) (outer : List Nat)
    (t : Tile) (rowTag i0 : Nat) (k0 : Core) :
    s.awake i0 k0 → (State.writeTile s ag p d r0 c0 outer t rowTag).1.awake i0 k0 := by
  intro h; unfold State.writeTile; grind [State.writeBits_awake, State.wake_awake, State.exitG3_awake]

theorem State.createAll_awake (s : State) (ag : Agent) (p : Nat) (x0 : List Nat) (i0 : Nat) (k0 : Core) :
    s.awake i0 k0 → (State.createAll s ag p x0).1.awake i0 k0 := by
  intro h; fun_induction State.createAll <;> grind [foldl_awake, State.createDesc_awake, State.wake_awake,
      State.exitG3_awake]

theorem State.atomicAt_awake (s : State) (ag : Agent) (p a : Nat) (x : AtomArgs) (i0 : Nat) (k0 : Core) :
    s.awake i0 k0 → (State.atomicAt s ag p a x).1.awake i0 k0 := by
  intro h; unfold State.atomicAt; grind [State.dropAll_awake, State.readWord_awake, State.writeWord_awake,
      State.wake_awake, State.exitG3_awake]

theorem State.readSegs_awake (s : State) (e p : Nat) (x0 : List (Nat × Nat)) (i0 : Nat) (k0 : Core) :
    s.awake i0 k0 → (State.readSegs s e p x0).1.awake i0 k0 := by
  intro h; fun_induction State.readSegs <;> grind [foldl_awake, State.readRun_awake, State.wake_awake, State.exitG3_awake]

theorem State.putMarked_awake (s : State) (e p x0 x1 : Nat) (x2 : List (Byte × Bool)) (i0 : Nat) (k0 : Core) :
    s.awake i0 k0 → (State.putMarked s e p x0 x1 x2).1.awake i0 k0 := by
  intro h; fun_induction State.putMarked <;> grind [foldl_awake, State.writeWord_awake, State.wake_awake, State.exitG3_awake]

theorem State.writeSegs_awake (s : State) (e p : Nat) (x0 : List (Nat × Nat)) (x1 : List (Byte × Bool)) (i0 : Nat)
    (k0 : Core) :
    s.awake i0 k0 → (State.writeSegs s e p x0 x1).1.awake i0 k0 := by
  intro h; fun_induction State.writeSegs <;> grind [foldl_awake, State.putMarked_awake, State.wake_awake, State.exitG3_awake]

theorem State.readDma_awake (s : State) (e p a i0 : Nat) (k0 : Core) : s.awake i0 k0 → (State.readDma s e p a).1.awake i0 k0 := by
  intro h; unfold State.readDma; grind [State.readRun_awake, State.wake_awake, State.exitG3_awake]

theorem State.readArgs_awake (s : State) (p : Nat) (r : RunCmd) (i0 : Nat) (k0 : Core) :
    s.awake i0 k0 → (State.readArgs s p r).1.awake i0 k0 := by
  intro h; unfold State.readArgs; grind [State.readRun_awake, State.wake_awake, State.exitG3_awake]

theorem State.readEntry_awake (s : State) (p j i0 : Nat) (k0 : Core) : s.awake i0 k0 → (State.readEntry s p j).1.awake i0 k0 := by
  intro h; unfold State.readEntry; grind [State.fetchRun_awake, State.wake_awake, State.exitG3_awake]

theorem State.readSeq_awake (s : State) (t p a i0 : Nat) (k0 : Core) : s.awake i0 k0 → (State.readSeq s t p a).1.awake i0 k0 := by
  intro h; unfold State.readSeq; grind [State.readRun_awake, State.wake_awake, State.exitG3_awake]

theorem State.readKeep_awake (s : State) (t p a i0 : Nat) (k0 : Core) :
    s.awake i0 k0 → (State.readKeep s t p a).1.awake i0 k0 := by
  intro h; unfold State.readKeep; grind [State.readRun_awake, State.wake_awake, State.exitG3_awake]

theorem State.pageEntry_awake (s : State) (t p : Nat) (q : SeqTable) (k i0 : Nat) (k0 : Core) :
    s.awake i0 k0 → (State.pageEntry s t p q k).1.awake i0 k0 := by
  intro h; unfold State.pageEntry; grind [State.readKeep_awake, State.wake_awake, State.exitG3_awake]

theorem State.pageEntries_awake (s : State) (t p : Nat) (q : SeqTable) (x0 : List Nat) (i0 : Nat) (k0 : Core) :
    s.awake i0 k0 → (State.pageEntries s t p q x0).1.awake i0 k0 := by
  intro h; fun_induction State.pageEntries <;> grind [foldl_awake, State.pageEntry_awake, State.wake_awake,
      State.exitG3_awake]

theorem State.srvRead_awake (s : State) (p a n i0 : Nat) (k0 : Core) : s.awake i0 k0 → (State.srvRead s p a n).1.awake i0 k0 := by
  intro h; unfold State.srvRead; grind [State.readRun_awake, State.wake_awake, State.exitG3_awake]

theorem State.kvTable_awake (s : State) (p a i0 : Nat) (k0 : Core) : s.awake i0 k0 → (State.kvTable s p a).1.awake i0 k0 := by
  intro h; unfold State.kvTable; grind [State.srvRead_awake, State.wake_awake, State.exitG3_awake]

theorem State.kvTables_awake (s : State) (p dir x0 i0 : Nat) (k0 : Core) :
    s.awake i0 k0 → (State.kvTables s p dir x0).1.awake i0 k0 := by
  intro h; fun_induction State.kvTables <;> grind [foldl_awake, State.kvTable_awake, State.srvRead_awake,
      State.wake_awake, State.exitG3_awake]

theorem State.reqTables_awake (s : State) (p e i0 : Nat) (k0 : Core) : s.awake i0 k0 → (State.reqTables s p e).1.awake i0 k0 := by
  intro h; unfold State.reqTables; grind [State.kvTables_awake, State.wake_awake, State.exitG3_awake]

theorem State.pagesDue_awake (s : State) (p : Nat) (x0 : List (Nat × Nat)) (i0 : Nat) (k0 : Core) :
    s.awake i0 k0 → (State.pagesDue s p x0).1.awake i0 k0 := by
  intro h; fun_induction State.pagesDue <;> grind [foldl_awake, State.reqTables_awake, State.wake_awake, State.exitG3_awake]

theorem State.checkStaging_awake (s : State) (t : Nat) (c : TowerCmd) (descs : List (Option TensorDesc)) (q : SeqTable)
    (i0 : Nat) (k0 : Core) :
    s.awake i0 k0 → (State.checkStaging s t c descs q).1.awake i0 k0 := by
  intro h; unfold State.checkStaging; grind [State.pageEntries_awake, State.pagesDue_awake, State.wake_awake,
      State.exitG3_awake]

theorem State.flushLines_awake (s : State) (k p a n i0 : Nat) (k0 : Core) :
    s.awake i0 k0 → (State.flushLines s k p a n).awake i0 k0 := by
  intro h; unfold State.flushLines; grind [foldl_awake, foldl_awake1, State.cleanLine_awake, State.wake_awake,
      State.exitG3_awake]

theorem State.checkAttn_awake (s : State) (t : Nat) (c : TowerCmd) (d : TensorDesc) (q : SeqTable) (i0 : Nat) (k0 : Core) :
    s.awake i0 k0 → (State.checkAttn s t c d q).1.awake i0 k0 := by
  intro h; unfold State.checkAttn; grind [State.pageEntries_awake, State.wake_awake, State.exitG3_awake]

theorem State.cmdDescs_awake (s : State) (t : Nat) (c : TowerCmd) (i0 : Nat) (k0 : Core) :
    s.awake i0 k0 → (State.cmdDescs s t c).1.awake i0 k0 := by
  intro h; unfold State.cmdDescs; grind [State.createAll_awake, State.wake_awake, State.exitG3_awake]

theorem State.cmdRules_awake (s : State) (t : Nat) (c : TowerCmd) (d : List (Option TensorDesc)) (i0 : Nat) (k0 : Core) :
    s.awake i0 k0 → (State.cmdRules s t c d).1.awake i0 k0 := by
  intro h; unfold State.cmdRules; grind [State.checkAttn_awake, State.checkStaging_awake, State.readSeq_awake,
      State.wake_awake, State.exitG3_awake]

theorem State.checkCmd_awake (s : State) (t : Nat) (c : TowerCmd) (i0 : Nat) (k0 : Core) :
    s.awake i0 k0 → (State.checkCmd s t c).1.awake i0 k0 := by
  intro h; unfold State.checkCmd; grind [State.cmdDescs_awake, State.cmdRules_awake, State.wake_awake, State.exitG3_awake]

theorem State.cupolaTile_awake (s : State) (core p : Nat) (q : Queue) (i0 : Nat) (k0 : Core) :
    s.awake i0 k0 → (State.cupolaTile s core p q).1.awake i0 k0 := by
  intro h; unfold State.cupolaTile; grind [State.readRun_awake, State.wake_awake, State.exitG3_awake]

/-! ## Accesses that a core has issued -/

/-- Performing an access changes nothing in any core. -/
theorem State.performOp_awake (s : State) (p c : Nat) (x : InFlight) (i0 : Nat) (k0 : Core) :
    s.awake i0 k0 → (State.performOp s p c x).1.awake i0 k0 := by
  intro h; unfold State.performOp
  split <;> dsimp only
  · exact State.readRun_awake _ _ _ _ _ _ _ h
  · have hw := fun n a v => State.writeRun_awake s (.core c) p a (leBytes n v) [] false i0 k0 h
    split
    · split
      · exact State.addCounter_awake _ _ _ _ _ _ (hw _ _ _)
      · exact hw _ _ _
    · exact hw _ _ _
  · exact State.atomicAt_awake _ _ _ _ _ _ _ h
  · exact h

theorem State.performOps_awake (s : State) (p c : Nat) (sel : InFlight → Bool) (l : List InFlight) (i0 : Nat) (k0 : Core)
    (h : s.awake i0 k0) : (State.performOps s p c sel l).1.awake i0 k0 := by
  induction l generalizing s with
  | nil => exact h
  | cons x r ih =>
    unfold State.performOps
    dsimp only
    split
    · exact ih _ (State.performOp_awake _ _ _ _ _ _ h)
    · exact ih _ h

theorem State.performOps_length (s : State) (p c : Nat) (sel : InFlight → Bool) (l : List InFlight) :
    (s.performOps p c sel l).2.length = l.length := by
  induction l generalizing s with
  | nil => rfl
  | cons x r ih =>
    unfold State.performOps
    dsimp only
    split <;> exact congrArg (· + 1) (ih _)

/-- Performing a core's accesses changes nothing in the core but their phases, and other cores not at all. -/
theorem State.performSel_awake (s : State) (p c n : Nat) (sel : InFlight → Bool) (i0 : Nat) (k0 : Core) (h : s.awake i0 k0) :
    ∃ l, l.length = k0.inflight.length ∧ (s.performSel p c n sel).awake i0 { k0 with inflight := l } := by
  have hp := State.performOps_awake s p c sel ((s.core c).inflight.take n) i0 k0 h
  unfold State.performSel
  dsimp only
  by_cases hc : i0 = c
  · subst hc
    refine ⟨(s.performOps p i0 sel ((s.core i0).inflight.take n)).2 ++ (s.core i0).inflight.drop n, ?_, hp.1, ?_⟩
    · rw [List.length_append, State.performOps_length, List.length_take, List.length_drop, h.2]
      omega
    · rw [State.modCore, State.core_setCore, if_pos rfl, hp.2]
  · refine ⟨k0.inflight, rfl, hp.1, ?_⟩
    rw [State.modCore, State.core_setCore, if_neg hc]
    exact hp.2

/-- Where no tile that a core pushed comes first, its accesses to a location are performed; nothing in any core changes but their
phases. -/
theorem State.settle_awake {s t : State} {p c n a len : Nat} (i0 : Nat) (k0 : Core) (ht : s.settle p c n a len = some t)
    (h : s.awake i0 k0) : ∃ l, l.length = k0.inflight.length ∧ t.awake i0 { k0 with inflight := l } := by
  unfold State.settle State.settleBy at ht
  dsimp only at ht
  split at ht
  · cases ht
    exact ⟨k0.inflight, rfl, h⟩
  · split at ht
    · cases ht
    · cases ht
      exact State.performSel_awake _ _ _ _ _ _ _ h

end Sys2Proof.Machine
end

