-- ==== Sys2Proof/Laws/Registers.lean ====
section
/-! SUPPORT. Fields of registers: what a field written reads as, and that it leaves the other fields. -/

namespace Sys2Proof.Machine

set_option Elab.async false

/-- A number as what lies above a field, the field, and what lies below it. -/
theorem putField_eq (x lo n v : Nat) :
    putField x lo n v = 2 ^ lo * (2 ^ n * (x / 2 ^ lo / 2 ^ n) + v % 2 ^ n) + x % 2 ^ lo := by
  have h1 := Nat.div_add_mod x (2 ^ lo)
  have h2 := Nat.div_add_mod (x / 2 ^ lo) (2 ^ n)
  unfold putField field
  rw [Nat.shiftRight_eq_div_pow, Nat.shiftLeft_eq, Nat.shiftLeft_eq]
  have h3 : 2 ^ lo * (2 ^ n * (x / 2 ^ lo / 2 ^ n)) + 2 ^ lo * (x / 2 ^ lo % 2 ^ n) + x % 2 ^ lo = x := by
    rw [← Nat.mul_add, h2, h1]
  rw [Nat.mul_add, Nat.mul_comm (x / 2 ^ lo % 2 ^ n), Nat.mul_comm (v % 2 ^ n)]
  omega

/-- The bits of a number with a field replaced. -/
theorem testBit_putField (x lo n v i : Nat) :
    (putField x lo n v).testBit i = if lo ≤ i ∧ i < lo + n then v.testBit (i - lo) else x.testBit i := by
  rw [putField_eq, Nat.testBit_two_pow_mul_add _ (Nat.mod_lt _ (Nat.two_pow_pos lo))]
  by_cases h1 : i < lo
  · rw [if_pos h1, if_neg (by omega), Nat.testBit_mod_two_pow]; simp [h1]
  · rw [if_neg h1, Nat.testBit_two_pow_mul_add _ (Nat.mod_lt _ (Nat.two_pow_pos n))]
    by_cases h2 : i - lo < n
    · rw [if_pos h2, if_pos (by omega), Nat.testBit_mod_two_pow]; simp [h2]
    · rw [if_neg h2, if_neg (by omega), Nat.testBit_div_two_pow, Nat.testBit_div_two_pow]
      congr 1; omega

/-- The bits of a field. -/
theorem testBit_field (x lo n i : Nat) : (field x lo n).testBit i = (decide (i < n) && x.testBit (lo + i)) := by
  rw [field, Nat.testBit_mod_two_pow, Nat.testBit_shiftRight]

@[simp] theorem nbit_putField (x lo n v i : Nat) :
    nbit (putField x lo n v) i = if lo ≤ i ∧ i < lo + n then v.testBit (i - lo) else nbit x i :=
  testBit_putField x lo n v i

/-- A field written reads as the low bits of what was written. -/
@[simp] theorem field_putField (x lo n v : Nat) : field (putField x lo n v) lo n = v % 2 ^ n := by
  apply Nat.eq_of_testBit_eq
  intro i
  rw [testBit_field, testBit_putField, Nat.testBit_mod_two_pow]
  by_cases h : i < n
  · simp [h]
  · simp [h]

/-- A field written leaves a field that lies apart from it. -/
theorem field_putField_apart (x lo n v l m : Nat) (h : l + m ≤ lo ∨ lo + n ≤ l) :
    field (putField x lo n v) l m = field x l m := by
  apply Nat.eq_of_testBit_eq
  intro i
  rw [testBit_field, testBit_putField, testBit_field]
  by_cases hi : i < m
  · rw [if_neg (by omega)]
  · simp [hi]

@[simp] theorem testBit_b2n_zero (b : Bool) : (b2n b).testBit 0 = b := by cases b <;> rfl

/-- A bit of a register after another register, field or bit was written. -/
theorem State.regBit_setReg (s : State) (a v b i : Nat) :
    (s.setReg a v).regBit b i = if b = a then nbit v i else s.regBit b i := by
  unfold State.regBit
  rw [State.reg_setReg]
  split <;> rfl

/-- A field of a register after another was written. -/
theorem State.regField_setReg (s : State) (a v b lo n : Nat) :
    (s.setReg a v).regField b lo n = if b = a then field v lo n else s.regField b lo n := by
  unfold State.regField
  rw [State.reg_setReg]
  split <;> rfl

end Sys2Proof.Machine
end

