-- ==== Sys2Proof/Laws/Slots.lean ====
section
/-! SUPPORT. What each slot of a long word leaves alone in its core, and what the registers, queue ends and data memory hold
after all of them. -/

namespace Sys2Proof.Machine

set_option Elab.async false

/-! ## Fields -/

theorem sregs_pops (l : List Nat) (c : Core) : (l.foldl Core.pop c).sregs = c.sregs := by
  induction l generalizing c <;> simp_all
theorem pc_pops (l : List Nat) (c : Core) : (l.foldl Core.pop c).pc = c.pc := by
  induction l generalizing c <;> simp_all
theorem dmem_pops (l : List Nat) (c : Core) : (l.foldl Core.pop c).dmem = c.dmem := by
  induction l generalizing c <;> simp_all
theorem tiles_pops (l : List Nat) (c : Core) : (l.foldl Core.pop c).tiles = c.tiles := by
  induction l generalizing c <;> simp_all
theorem acc_pops (l : List Nat) (c : Core) : (l.foldl Core.pop c).acc = c.acc := by
  induction l generalizing c <;> simp_all
theorem live_pops (l : List Nat) (c : Core) : (l.foldl Core.pop c).live = c.live := by
  induction l generalizing c <;> simp_all
theorem flags_pops (l : List Nat) (c : Core) : (l.foldl Core.pop c).flags = c.flags := by
  induction l generalizing c <;> simp_all
theorem lost_pops (l : List Nat) (c : Core) : (l.foldl Core.pop c).lost = c.lost := by
  induction l generalizing c <;> simp_all
theorem fpstat_pops (l : List Nat) (c : Core) : (l.foldl Core.pop c).fpstat = c.fpstat := by
  induction l generalizing c <;> simp_all
theorem ctimeout_pops (l : List Nat) (c : Core) : (l.foldl Core.pop c).ctimeout = c.ctimeout := by
  induction l generalizing c <;> simp_all
theorem trapVec_pops (l : List Nat) (c : Core) : (l.foldl Core.pop c).trapVec = c.trapVec := by
  induction l generalizing c <;> simp_all
theorem trapCause_pops (l : List Nat) (c : Core) : (l.foldl Core.pop c).trapCause = c.trapCause := by
  induction l generalizing c <;> simp_all
theorem trapPc_pops (l : List Nat) (c : Core) : (l.foldl Core.pop c).trapPc = c.trapPc := by
  induction l generalizing c <;> simp_all
theorem trapAddr_pops (l : List Nat) (c : Core) : (l.foldl Core.pop c).trapAddr = c.trapAddr := by
  induction l generalizing c <;> simp_all
theorem cycles_pops (l : List Nat) (c : Core) : (l.foldl Core.pop c).cycles = c.cycles := by
  induction l generalizing c <;> simp_all
theorem cycleHi_pops (l : List Nat) (c : Core) : (l.foldl Core.pop c).cycleHi = c.cycleHi := by
  induction l generalizing c <;> simp_all
theorem discSel_pops (l : List Nat) (c : Core) : (l.foldl Core.pop c).discSel = c.discSel := by
  induction l generalizing c <;> simp_all
theorem trapMode_pops (l : List Nat) (c : Core) : (l.foldl Core.pop c).trapMode = c.trapMode := by
  induction l generalizing c <;> simp_all
theorem trapLen_pops (l : List Nat) (c : Core) : (l.foldl Core.pop c).trapLen = c.trapLen := by
  induction l generalizing c <;> simp_all
theorem inflight_pops (l : List Nat) (c : Core) : (l.foldl Core.pop c).inflight = c.inflight := by
  induction l generalizing c <;> simp_all
theorem stall_pops (l : List Nat) (c : Core) : (l.foldl Core.pop c).stall = c.stall := by
  induction l generalizing c <;> simp_all
theorem ending_pops (l : List Nat) (c : Core) : (l.foldl Core.pop c).ending = c.ending := by
  induction l generalizing c <;> simp_all
theorem icache_pops (l : List Nat) (c : Core) : (l.foldl Core.pop c).icache = c.icache := by
  induction l generalizing c <;> simp_all
theorem task_pops (l : List Nat) (c : Core) : (l.foldl Core.pop c).task = c.task := by
  induction l generalizing c <;> simp_all
theorem lastJob_pops (l : List Nat) (c : Core) : (l.foldl Core.pop c).lastJob = c.lastJob := by
  induction l generalizing c <;> simp_all
theorem seq_pops (l : List Nat) (c : Core) : (l.foldl Core.pop c).seq = c.seq := by
  induction l generalizing c <;> simp_all
theorem halted_pops (l : List Nat) (c : Core) : (l.foldl Core.pop c).halted = c.halted := by
  induction l generalizing c <;> simp_all
theorem phys_pops (l : List Nat) (c : Core) : (l.foldl Core.pop c).phys = c.phys := by
  induction l generalizing c <;> simp_all
theorem retired_pops (l : List Nat) (c : Core) : (l.foldl Core.pop c).retired = c.retired := by
  induction l generalizing c <;> simp_all
theorem testing_pops (l : List Nat) (c : Core) : (l.foldl Core.pop c).testing = c.testing := by
  induction l generalizing c <;> simp_all
theorem drained_pops (l : List Nat) (c : Core) : (l.foldl Core.pop c).drained = c.drained := by
  induction l generalizing c <;> simp_all
theorem ucodeB_pops (l : List Nat) (c : Core) : (l.foldl Core.pop c).ucodeB = c.ucodeB := by
  induction l generalizing c <;> simp_all
theorem paidClass_pops (l : List Nat) (c : Core) : (l.foldl Core.pop c).paidClass = c.paidClass := by
  induction l generalizing c <;> simp_all
@[simp] theorem tiles_sEffect (c0 : Core) (csr : Nat → Word) (n : Word) (c : Core) (x : SSlot) : (sEffect c0 csr n c x).tiles = c.tiles := by
  cases x <;> simp only [sEffect] <;> (try split) <;> simp
@[simp] theorem queues_sEffect (c0 : Core) (csr : Nat → Word) (n : Word) (c : Core) (x : SSlot) : (sEffect c0 csr n c x).queues = c.queues := by
  cases x <;> simp only [sEffect] <;> (try split) <;> simp
@[simp] theorem acc_sEffect (c0 : Core) (csr : Nat → Word) (n : Word) (c : Core) (x : SSlot) : (sEffect c0 csr n c x).acc = c.acc := by
  cases x <;> simp only [sEffect] <;> (try split) <;> simp
@[simp] theorem live_sEffect (c0 : Core) (csr : Nat → Word) (n : Word) (c : Core) (x : SSlot) : (sEffect c0 csr n c x).live = c.live := by
  cases x <;> simp only [sEffect] <;> (try split) <;> simp
@[simp] theorem trapCause_sEffect (c0 : Core) (csr : Nat → Word) (n : Word) (c : Core) (x : SSlot) : (sEffect c0 csr n c x).trapCause = c.trapCause := by
  cases x <;> simp only [sEffect] <;> (try split) <;> simp
@[simp] theorem trapPc_sEffect (c0 : Core) (csr : Nat → Word) (n : Word) (c : Core) (x : SSlot) : (sEffect c0 csr n c x).trapPc = c.trapPc := by
  cases x <;> simp only [sEffect] <;> (try split) <;> simp
@[simp] theorem trapAddr_sEffect (c0 : Core) (csr : Nat → Word) (n : Word) (c : Core) (x : SSlot) : (sEffect c0 csr n c x).trapAddr = c.trapAddr := by
  cases x <;> simp only [sEffect] <;> (try split) <;> simp
@[simp] theorem cycles_sEffect (c0 : Core) (csr : Nat → Word) (n : Word) (c : Core) (x : SSlot) : (sEffect c0 csr n c x).cycles = c.cycles := by
  cases x <;> simp only [sEffect] <;> (try split) <;> simp
@[simp] theorem trapLen_sEffect (c0 : Core) (csr : Nat → Word) (n : Word) (c : Core) (x : SSlot) : (sEffect c0 csr n c x).trapLen = c.trapLen := by
  cases x <;> simp only [sEffect] <;> (try split) <;> simp
@[simp] theorem inflight_sEffect (c0 : Core) (csr : Nat → Word) (n : Word) (c : Core) (x : SSlot) : (sEffect c0 csr n c x).inflight = c.inflight := by
  cases x <;> simp only [sEffect] <;> (try split) <;> simp
@[simp] theorem stall_sEffect (c0 : Core) (csr : Nat → Word) (n : Word) (c : Core) (x : SSlot) : (sEffect c0 csr n c x).stall = c.stall := by
  cases x <;> simp only [sEffect] <;> (try split) <;> simp
@[simp] theorem task_sEffect (c0 : Core) (csr : Nat → Word) (n : Word) (c : Core) (x : SSlot) : (sEffect c0 csr n c x).task = c.task := by
  cases x <;> simp only [sEffect] <;> (try split) <;> simp
@[simp] theorem lastJob_sEffect (c0 : Core) (csr : Nat → Word) (n : Word) (c : Core) (x : SSlot) : (sEffect c0 csr n c x).lastJob = c.lastJob := by
  cases x <;> simp only [sEffect] <;> (try split) <;> simp
@[simp] theorem seq_sEffect (c0 : Core) (csr : Nat → Word) (n : Word) (c : Core) (x : SSlot) : (sEffect c0 csr n c x).seq = c.seq := by
  cases x <;> simp only [sEffect] <;> (try split) <;> simp
@[simp] theorem halted_sEffect (c0 : Core) (csr : Nat → Word) (n : Word) (c : Core) (x : SSlot) : (sEffect c0 csr n c x).halted = c.halted := by
  cases x <;> simp only [sEffect] <;> (try split) <;> simp
@[simp] theorem phys_sEffect (c0 : Core) (csr : Nat → Word) (n : Word) (c : Core) (x : SSlot) : (sEffect c0 csr n c x).phys = c.phys := by
  cases x <;> simp only [sEffect] <;> (try split) <;> simp
@[simp] theorem retired_sEffect (c0 : Core) (csr : Nat → Word) (n : Word) (c : Core) (x : SSlot) : (sEffect c0 csr n c x).retired = c.retired := by
  cases x <;> simp only [sEffect] <;> (try split) <;> simp
@[simp] theorem testing_sEffect (c0 : Core) (csr : Nat → Word) (n : Word) (c : Core) (x : SSlot) : (sEffect c0 csr n c x).testing = c.testing := by
  cases x <;> simp only [sEffect] <;> (try split) <;> simp
@[simp] theorem drained_sEffect (c0 : Core) (csr : Nat → Word) (n : Word) (c : Core) (x : SSlot) : (sEffect c0 csr n c x).drained = c.drained := by
  cases x <;> simp only [sEffect] <;> (try split) <;> simp
@[simp] theorem ucodeB_sEffect (c0 : Core) (csr : Nat → Word) (n : Word) (c : Core) (x : SSlot) : (sEffect c0 csr n c x).ucodeB = c.ucodeB := by
  cases x <;> simp only [sEffect] <;> (try split) <;> simp
@[simp] theorem paidClass_sEffect (c0 : Core) (csr : Nat → Word) (n : Word) (c : Core) (x : SSlot) : (sEffect c0 csr n c x).paidClass = c.paidClass := by
  cases x <;> simp only [sEffect] <;> (try split) <;> simp
@[simp] theorem pc_qEffect (c0 c : Core) (x : QSlot) : (qEffect c0 c x).pc = c.pc := by
  cases x <;> simp [qEffect]
@[simp] theorem dmem_qEffect (c0 c : Core) (x : QSlot) : (qEffect c0 c x).dmem = c.dmem := by
  cases x <;> simp [qEffect]
@[simp] theorem acc_qEffect (c0 c : Core) (x : QSlot) : (qEffect c0 c x).acc = c.acc := by
  cases x <;> simp [qEffect]
@[simp] theorem flags_qEffect (c0 c : Core) (x : QSlot) : (qEffect c0 c x).flags = c.flags := by
  cases x <;> simp [qEffect]
@[simp] theorem lost_qEffect (c0 c : Core) (x : QSlot) : (qEffect c0 c x).lost = c.lost := by
  cases x <;> simp [qEffect]
@[simp] theorem fpstat_qEffect (c0 c : Core) (x : QSlot) : (qEffect c0 c x).fpstat = c.fpstat := by
  cases x <;> simp [qEffect]
@[simp] theorem ctimeout_qEffect (c0 c : Core) (x : QSlot) : (qEffect c0 c x).ctimeout = c.ctimeout := by
  cases x <;> simp [qEffect]
@[simp] theorem trapVec_qEffect (c0 c : Core) (x : QSlot) : (qEffect c0 c x).trapVec = c.trapVec := by
  cases x <;> simp [qEffect]
@[simp] theorem trapCause_qEffect (c0 c : Core) (x : QSlot) : (qEffect c0 c x).trapCause = c.trapCause := by
  cases x <;> simp [qEffect]
@[simp] theorem trapPc_qEffect (c0 c : Core) (x : QSlot) : (qEffect c0 c x).trapPc = c.trapPc := by
  cases x <;> simp [qEffect]
@[simp] theorem trapAddr_qEffect (c0 c : Core) (x : QSlot) : (qEffect c0 c x).trapAddr = c.trapAddr := by
  cases x <;> simp [qEffect]
@[simp] theorem cycles_qEffect (c0 c : Core) (x : QSlot) : (qEffect c0 c x).cycles = c.cycles := by
  cases x <;> simp [qEffect]
@[simp] theorem cycleHi_qEffect (c0 c : Core) (x : QSlot) : (qEffect c0 c x).cycleHi = c.cycleHi := by
  cases x <;> simp [qEffect]
@[simp] theorem discSel_qEffect (c0 c : Core) (x : QSlot) : (qEffect c0 c x).discSel = c.discSel := by
  cases x <;> simp [qEffect]
@[simp] theorem trapMode_qEffect (c0 c : Core) (x : QSlot) : (qEffect c0 c x).trapMode = c.trapMode := by
  cases x <;> simp [qEffect]
@[simp] theorem trapLen_qEffect (c0 c : Core) (x : QSlot) : (qEffect c0 c x).trapLen = c.trapLen := by
  cases x <;> simp [qEffect]
@[simp] theorem inflight_qEffect (c0 c : Core) (x : QSlot) : (qEffect c0 c x).inflight = c.inflight := by
  cases x <;> simp [qEffect]
@[simp] theorem stall_qEffect (c0 c : Core) (x : QSlot) : (qEffect c0 c x).stall = c.stall := by
  cases x <;> simp [qEffect]
@[simp] theorem ending_qEffect (c0 c : Core) (x : QSlot) : (qEffect c0 c x).ending = c.ending := by
  cases x <;> simp [qEffect]
@[simp] theorem icache_qEffect (c0 c : Core) (x : QSlot) : (qEffect c0 c x).icache = c.icache := by
  cases x <;> simp [qEffect]
@[simp] theorem task_qEffect (c0 c : Core) (x : QSlot) : (qEffect c0 c x).task = c.task := by
  cases x <;> simp [qEffect]
@[simp] theorem lastJob_qEffect (c0 c : Core) (x : QSlot) : (qEffect c0 c x).lastJob = c.lastJob := by
  cases x <;> simp [qEffect]
@[simp] theorem seq_qEffect (c0 c : Core) (x : QSlot) : (qEffect c0 c x).seq = c.seq := by
  cases x <;> simp [qEffect]
@[simp] theorem halted_qEffect (c0 c : Core) (x : QSlot) : (qEffect c0 c x).halted = c.halted := by
  cases x <;> simp [qEffect]
@[simp] theorem phys_qEffect (c0 c : Core) (x : QSlot) : (qEffect c0 c x).phys = c.phys := by
  cases x <;> simp [qEffect]
@[simp] theorem retired_qEffect (c0 c : Core) (x : QSlot) : (qEffect c0 c x).retired = c.retired := by
  cases x <;> simp [qEffect]
@[simp] theorem testing_qEffect (c0 c : Core) (x : QSlot) : (qEffect c0 c x).testing = c.testing := by
  cases x <;> simp [qEffect]
@[simp] theorem drained_qEffect (c0 c : Core) (x : QSlot) : (qEffect c0 c x).drained = c.drained := by
  cases x <;> simp [qEffect]
@[simp] theorem ucodeB_qEffect (c0 c : Core) (x : QSlot) : (qEffect c0 c x).ucodeB = c.ucodeB := by
  cases x <;> simp [qEffect]
@[simp] theorem paidClass_qEffect (c0 c : Core) (x : QSlot) : (qEffect c0 c x).paidClass = c.paidClass := by
  cases x <;> simp [qEffect]
@[simp] theorem sregs_vEffect (c0 c : Core) (a b : Nat → Nat) (v : VSlot) : (vEffect c0 c a b v).sregs = c.sregs := by
  unfold vEffect; split; rfl
@[simp] theorem pc_vEffect (c0 c : Core) (a b : Nat → Nat) (v : VSlot) : (vEffect c0 c a b v).pc = c.pc := by
  unfold vEffect; split; rfl
@[simp] theorem dmem_vEffect (c0 c : Core) (a b : Nat → Nat) (v : VSlot) : (vEffect c0 c a b v).dmem = c.dmem := by
  unfold vEffect; split; rfl
@[simp] theorem acc_vEffect (c0 c : Core) (a b : Nat → Nat) (v : VSlot) : (vEffect c0 c a b v).acc = c.acc := by
  unfold vEffect; split; rfl
@[simp] theorem live_vEffect (c0 c : Core) (a b : Nat → Nat) (v : VSlot) : (vEffect c0 c a b v).live = c.live := by
  unfold vEffect; split; rfl
@[simp] theorem flags_vEffect (c0 c : Core) (a b : Nat → Nat) (v : VSlot) : (vEffect c0 c a b v).flags = c.flags := by
  unfold vEffect; split; rfl
@[simp] theorem lost_vEffect (c0 c : Core) (a b : Nat → Nat) (v : VSlot) : (vEffect c0 c a b v).lost = c.lost := by
  unfold vEffect; split; rfl
@[simp] theorem ctimeout_vEffect (c0 c : Core) (a b : Nat → Nat) (v : VSlot) : (vEffect c0 c a b v).ctimeout = c.ctimeout := by
  unfold vEffect; split; rfl
@[simp] theorem trapVec_vEffect (c0 c : Core) (a b : Nat → Nat) (v : VSlot) : (vEffect c0 c a b v).trapVec = c.trapVec := by
  unfold vEffect; split; rfl
@[simp] theorem trapCause_vEffect (c0 c : Core) (a b : Nat → Nat) (v : VSlot) : (vEffect c0 c a b v).trapCause = c.trapCause := by
  unfold vEffect; split; rfl
@[simp] theorem trapPc_vEffect (c0 c : Core) (a b : Nat → Nat) (v : VSlot) : (vEffect c0 c a b v).trapPc = c.trapPc := by
  unfold vEffect; split; rfl
@[simp] theorem trapAddr_vEffect (c0 c : Core) (a b : Nat → Nat) (v : VSlot) : (vEffect c0 c a b v).trapAddr = c.trapAddr := by
  unfold vEffect; split; rfl
@[simp] theorem cycles_vEffect (c0 c : Core) (a b : Nat → Nat) (v : VSlot) : (vEffect c0 c a b v).cycles = c.cycles := by
  unfold vEffect; split; rfl
@[simp] theorem cycleHi_vEffect (c0 c : Core) (a b : Nat → Nat) (v : VSlot) : (vEffect c0 c a b v).cycleHi = c.cycleHi := by
  unfold vEffect; split; rfl
@[simp] theorem discSel_vEffect (c0 c : Core) (a b : Nat → Nat) (v : VSlot) : (vEffect c0 c a b v).discSel = c.discSel := by
  unfold vEffect; split; rfl
@[simp] theorem trapMode_vEffect (c0 c : Core) (a b : Nat → Nat) (v : VSlot) : (vEffect c0 c a b v).trapMode = c.trapMode := by
  unfold vEffect; split; rfl
@[simp] theorem trapLen_vEffect (c0 c : Core) (a b : Nat → Nat) (v : VSlot) : (vEffect c0 c a b v).trapLen = c.trapLen := by
  unfold vEffect; split; rfl
@[simp] theorem inflight_vEffect (c0 c : Core) (a b : Nat → Nat) (v : VSlot) : (vEffect c0 c a b v).inflight = c.inflight := by
  unfold vEffect; split; rfl
@[simp] theorem stall_vEffect (c0 c : Core) (a b : Nat → Nat) (v : VSlot) : (vEffect c0 c a b v).stall = c.stall := by
  unfold vEffect; split; rfl
@[simp] theorem ending_vEffect (c0 c : Core) (a b : Nat → Nat) (v : VSlot) : (vEffect c0 c a b v).ending = c.ending := by
  unfold vEffect; split; rfl
@[simp] theorem icache_vEffect (c0 c : Core) (a b : Nat → Nat) (v : VSlot) : (vEffect c0 c a b v).icache = c.icache := by
  unfold vEffect; split; rfl
@[simp] theorem task_vEffect (c0 c : Core) (a b : Nat → Nat) (v : VSlot) : (vEffect c0 c a b v).task = c.task := by
  unfold vEffect; split; rfl
@[simp] theorem lastJob_vEffect (c0 c : Core) (a b : Nat → Nat) (v : VSlot) : (vEffect c0 c a b v).lastJob = c.lastJob := by
  unfold vEffect; split; rfl
@[simp] theorem seq_vEffect (c0 c : Core) (a b : Nat → Nat) (v : VSlot) : (vEffect c0 c a b v).seq = c.seq := by
  unfold vEffect; split; rfl
@[simp] theorem halted_vEffect (c0 c : Core) (a b : Nat → Nat) (v : VSlot) : (vEffect c0 c a b v).halted = c.halted := by
  unfold vEffect; split; rfl
@[simp] theorem phys_vEffect (c0 c : Core) (a b : Nat → Nat) (v : VSlot) : (vEffect c0 c a b v).phys = c.phys := by
  unfold vEffect; split; rfl
@[simp] theorem retired_vEffect (c0 c : Core) (a b : Nat → Nat) (v : VSlot) : (vEffect c0 c a b v).retired = c.retired := by
  unfold vEffect; split; rfl
@[simp] theorem testing_vEffect (c0 c : Core) (a b : Nat → Nat) (v : VSlot) : (vEffect c0 c a b v).testing = c.testing := by
  unfold vEffect; split; rfl
@[simp] theorem drained_vEffect (c0 c : Core) (a b : Nat → Nat) (v : VSlot) : (vEffect c0 c a b v).drained = c.drained := by
  unfold vEffect; split; rfl
@[simp] theorem ucodeB_vEffect (c0 c : Core) (a b : Nat → Nat) (v : VSlot) : (vEffect c0 c a b v).ucodeB = c.ucodeB := by
  unfold vEffect; split; rfl
@[simp] theorem paidClass_vEffect (c0 c : Core) (a b : Nat → Nat) (v : VSlot) : (vEffect c0 c a b v).paidClass = c.paidClass := by
  unfold vEffect; split; rfl
@[simp] theorem sregs_mEffect (c0 c : Core) (a b : Nat → Nat) (m : MSlot) : (mEffect c0 c a b m).sregs = c.sregs := by
  unfold mEffect; dsimp only; (repeat' split) <;> simp
@[simp] theorem pc_mEffect (c0 c : Core) (a b : Nat → Nat) (m : MSlot) : (mEffect c0 c a b m).pc = c.pc := by
  unfold mEffect; dsimp only; (repeat' split) <;> simp
@[simp] theorem dmem_mEffect (c0 c : Core) (a b : Nat → Nat) (m : MSlot) : (mEffect c0 c a b m).dmem = c.dmem := by
  unfold mEffect; dsimp only; (repeat' split) <;> simp
@[simp] theorem live_mEffect (c0 c : Core) (a b : Nat → Nat) (m : MSlot) : (mEffect c0 c a b m).live = c.live := by
  unfold mEffect; dsimp only; (repeat' split) <;> simp
@[simp] theorem flags_mEffect (c0 c : Core) (a b : Nat → Nat) (m : MSlot) : (mEffect c0 c a b m).flags = c.flags := by
  unfold mEffect; dsimp only; (repeat' split) <;> simp
@[simp] theorem lost_mEffect (c0 c : Core) (a b : Nat → Nat) (m : MSlot) : (mEffect c0 c a b m).lost = c.lost := by
  unfold mEffect; dsimp only; (repeat' split) <;> simp
@[simp] theorem ctimeout_mEffect (c0 c : Core) (a b : Nat → Nat) (m : MSlot) : (mEffect c0 c a b m).ctimeout = c.ctimeout := by
  unfold mEffect; dsimp only; (repeat' split) <;> simp
@[simp] theorem trapVec_mEffect (c0 c : Core) (a b : Nat → Nat) (m : MSlot) : (mEffect c0 c a b m).trapVec = c.trapVec := by
  unfold mEffect; dsimp only; (repeat' split) <;> simp
@[simp] theorem trapCause_mEffect (c0 c : Core) (a b : Nat → Nat) (m : MSlot) : (mEffect c0 c a b m).trapCause = c.trapCause := by
  unfold mEffect; dsimp only; (repeat' split) <;> simp
@[simp] theorem trapPc_mEffect (c0 c : Core) (a b : Nat → Nat) (m : MSlot) : (mEffect c0 c a b m).trapPc = c.trapPc := by
  unfold mEffect; dsimp only; (repeat' split) <;> simp
@[simp] theorem trapAddr_mEffect (c0 c : Core) (a b : Nat → Nat) (m : MSlot) : (mEffect c0 c a b m).trapAddr = c.trapAddr := by
  unfold mEffect; dsimp only; (repeat' split) <;> simp
@[simp] theorem cycles_mEffect (c0 c : Core) (a b : Nat → Nat) (m : MSlot) : (mEffect c0 c a b m).cycles = c.cycles := by
  unfold mEffect; dsimp only; (repeat' split) <;> simp
@[simp] theorem cycleHi_mEffect (c0 c : Core) (a b : Nat → Nat) (m : MSlot) : (mEffect c0 c a b m).cycleHi = c.cycleHi := by
  unfold mEffect; dsimp only; (repeat' split) <;> simp
@[simp] theorem discSel_mEffect (c0 c : Core) (a b : Nat → Nat) (m : MSlot) : (mEffect c0 c a b m).discSel = c.discSel := by
  unfold mEffect; dsimp only; (repeat' split) <;> simp
@[simp] theorem trapMode_mEffect (c0 c : Core) (a b : Nat → Nat) (m : MSlot) : (mEffect c0 c a b m).trapMode = c.trapMode := by
  unfold mEffect; dsimp only; (repeat' split) <;> simp
@[simp] theorem trapLen_mEffect (c0 c : Core) (a b : Nat → Nat) (m : MSlot) : (mEffect c0 c a b m).trapLen = c.trapLen := by
  unfold mEffect; dsimp only; (repeat' split) <;> simp
@[simp] theorem inflight_mEffect (c0 c : Core) (a b : Nat → Nat) (m : MSlot) : (mEffect c0 c a b m).inflight = c.inflight := by
  unfold mEffect; dsimp only; (repeat' split) <;> simp
@[simp] theorem stall_mEffect (c0 c : Core) (a b : Nat → Nat) (m : MSlot) : (mEffect c0 c a b m).stall = c.stall := by
  unfold mEffect; dsimp only; (repeat' split) <;> simp
@[simp] theorem ending_mEffect (c0 c : Core) (a b : Nat → Nat) (m : MSlot) : (mEffect c0 c a b m).ending = c.ending := by
  unfold mEffect; dsimp only; (repeat' split) <;> simp
@[simp] theorem icache_mEffect (c0 c : Core) (a b : Nat → Nat) (m : MSlot) : (mEffect c0 c a b m).icache = c.icache := by
  unfold mEffect; dsimp only; (repeat' split) <;> simp
@[simp] theorem task_mEffect (c0 c : Core) (a b : Nat → Nat) (m : MSlot) : (mEffect c0 c a b m).task = c.task := by
  unfold mEffect; dsimp only; (repeat' split) <;> simp
@[simp] theorem lastJob_mEffect (c0 c : Core) (a b : Nat → Nat) (m : MSlot) : (mEffect c0 c a b m).lastJob = c.lastJob := by
  unfold mEffect; dsimp only; (repeat' split) <;> simp
@[simp] theorem seq_mEffect (c0 c : Core) (a b : Nat → Nat) (m : MSlot) : (mEffect c0 c a b m).seq = c.seq := by
  unfold mEffect; dsimp only; (repeat' split) <;> simp
@[simp] theorem halted_mEffect (c0 c : Core) (a b : Nat → Nat) (m : MSlot) : (mEffect c0 c a b m).halted = c.halted := by
  unfold mEffect; dsimp only; (repeat' split) <;> simp
@[simp] theorem phys_mEffect (c0 c : Core) (a b : Nat → Nat) (m : MSlot) : (mEffect c0 c a b m).phys = c.phys := by
  unfold mEffect; dsimp only; (repeat' split) <;> simp
@[simp] theorem retired_mEffect (c0 c : Core) (a b : Nat → Nat) (m : MSlot) : (mEffect c0 c a b m).retired = c.retired := by
  unfold mEffect; dsimp only; (repeat' split) <;> simp
@[simp] theorem testing_mEffect (c0 c : Core) (a b : Nat → Nat) (m : MSlot) : (mEffect c0 c a b m).testing = c.testing := by
  unfold mEffect; dsimp only; (repeat' split) <;> simp
@[simp] theorem drained_mEffect (c0 c : Core) (a b : Nat → Nat) (m : MSlot) : (mEffect c0 c a b m).drained = c.drained := by
  unfold mEffect; dsimp only; (repeat' split) <;> simp
@[simp] theorem ucodeB_mEffect (c0 c : Core) (a b : Nat → Nat) (m : MSlot) : (mEffect c0 c a b m).ucodeB = c.ucodeB := by
  unfold mEffect; dsimp only; (repeat' split) <;> simp
@[simp] theorem paidClass_mEffect (c0 c : Core) (a b : Nat → Nat) (m : MSlot) : (mEffect c0 c a b m).paidClass = c.paidClass := by
  unfold mEffect; dsimp only; (repeat' split) <;> simp
@[simp] theorem sregs_popEnds (w : LongWord) (c : Core) : (popEnds w c).sregs = c.sregs := by
  unfold popEnds; exact sregs_pops _ _
@[simp] theorem pc_popEnds (w : LongWord) (c : Core) : (popEnds w c).pc = c.pc := by
  unfold popEnds; exact pc_pops _ _
@[simp] theorem dmem_popEnds (w : LongWord) (c : Core) : (popEnds w c).dmem = c.dmem := by
  unfold popEnds; exact dmem_pops _ _
@[simp] theorem tiles_popEnds (w : LongWord) (c : Core) : (popEnds w c).tiles = c.tiles := by
  unfold popEnds; exact tiles_pops _ _
@[simp] theorem acc_popEnds (w : LongWord) (c : Core) : (popEnds w c).acc = c.acc := by
  unfold popEnds; exact acc_pops _ _
@[simp] theorem live_popEnds (w : LongWord) (c : Core) : (popEnds w c).live = c.live := by
  unfold popEnds; exact live_pops _ _
@[simp] theorem flags_popEnds (w : LongWord) (c : Core) : (popEnds w c).flags = c.flags := by
  unfold popEnds; exact flags_pops _ _
@[simp] theorem lost_popEnds (w : LongWord) (c : Core) : (popEnds w c).lost = c.lost := by
  unfold popEnds; exact lost_pops _ _
@[simp] theorem fpstat_popEnds (w : LongWord) (c : Core) : (popEnds w c).fpstat = c.fpstat := by
  unfold popEnds; exact fpstat_pops _ _
@[simp] theorem ctimeout_popEnds (w : LongWord) (c : Core) : (popEnds w c).ctimeout = c.ctimeout := by
  unfold popEnds; exact ctimeout_pops _ _
@[simp] theorem trapVec_popEnds (w : LongWord) (c : Core) : (popEnds w c).trapVec = c.trapVec := by
  unfold popEnds; exact trapVec_pops _ _
@[simp] theorem trapCause_popEnds (w : LongWord) (c : Core) : (popEnds w c).trapCause = c.trapCause := by
  unfold popEnds; exact trapCause_pops _ _
@[simp] theorem trapPc_popEnds (w : LongWord) (c : Core) : (popEnds w c).trapPc = c.trapPc := by
  unfold popEnds; exact trapPc_pops _ _
@[simp] theorem trapAddr_popEnds (w : LongWord) (c : Core) : (popEnds w c).trapAddr = c.trapAddr := by
  unfold popEnds; exact trapAddr_pops _ _
@[simp] theorem cycles_popEnds (w : LongWord) (c : Core) : (popEnds w c).cycles = c.cycles := by
  unfold popEnds; exact cycles_pops _ _
@[simp] theorem cycleHi_popEnds (w : LongWord) (c : Core) : (popEnds w c).cycleHi = c.cycleHi := by
  unfold popEnds; exact cycleHi_pops _ _
@[simp] theorem discSel_popEnds (w : LongWord) (c : Core) : (popEnds w c).discSel = c.discSel := by
  unfold popEnds; exact discSel_pops _ _
@[simp] theorem trapMode_popEnds (w : LongWord) (c : Core) : (popEnds w c).trapMode = c.trapMode := by
  unfold popEnds; exact trapMode_pops _ _
@[simp] theorem trapLen_popEnds (w : LongWord) (c : Core) : (popEnds w c).trapLen = c.trapLen := by
  unfold popEnds; exact trapLen_pops _ _
@[simp] theorem inflight_popEnds (w : LongWord) (c : Core) : (popEnds w c).inflight = c.inflight := by
  unfold popEnds; exact inflight_pops _ _
@[simp] theorem stall_popEnds (w : LongWord) (c : Core) : (popEnds w c).stall = c.stall := by
  unfold popEnds; exact stall_pops _ _
@[simp] theorem ending_popEnds (w : LongWord) (c : Core) : (popEnds w c).ending = c.ending := by
  unfold popEnds; exact ending_pops _ _
@[simp] theorem icache_popEnds (w : LongWord) (c : Core) : (popEnds w c).icache = c.icache := by
  unfold popEnds; exact icache_pops _ _
@[simp] theorem task_popEnds (w : LongWord) (c : Core) : (popEnds w c).task = c.task := by
  unfold popEnds; exact task_pops _ _
@[simp] theorem lastJob_popEnds (w : LongWord) (c : Core) : (popEnds w c).lastJob = c.lastJob := by
  unfold popEnds; exact lastJob_pops _ _
@[simp] theorem seq_popEnds (w : LongWord) (c : Core) : (popEnds w c).seq = c.seq := by
  unfold popEnds; exact seq_pops _ _
@[simp] theorem halted_popEnds (w : LongWord) (c : Core) : (popEnds w c).halted = c.halted := by
  unfold popEnds; exact halted_pops _ _
@[simp] theorem phys_popEnds (w : LongWord) (c : Core) : (popEnds w c).phys = c.phys := by
  unfold popEnds; exact phys_pops _ _
@[simp] theorem retired_popEnds (w : LongWord) (c : Core) : (popEnds w c).retired = c.retired := by
  unfold popEnds; exact retired_pops _ _
@[simp] theorem testing_popEnds (w : LongWord) (c : Core) : (popEnds w c).testing = c.testing := by
  unfold popEnds; exact testing_pops _ _
@[simp] theorem drained_popEnds (w : LongWord) (c : Core) : (popEnds w c).drained = c.drained := by
  unfold popEnds; exact drained_pops _ _
@[simp] theorem ucodeB_popEnds (w : LongWord) (c : Core) : (popEnds w c).ucodeB = c.ucodeB := by
  unfold popEnds; exact ucodeB_pops _ _
@[simp] theorem paidClass_popEnds (w : LongWord) (c : Core) : (popEnds w c).paidClass = c.paidClass := by
  unfold popEnds; exact paidClass_pops _ _

/-! ## Registers -/

theorem rd_pops (w : LongWord) (c : Core) (r : Nat) : (popEnds w c).rd r = c.rd r := Core.rd_congr (by simp) r

@[simp] theorem rd_vEffect (c0 c : Core) (a b : Nat → Nat) (v : VSlot) (r : Nat) : (vEffect c0 c a b v).rd r = c.rd r :=
  Core.rd_congr (by simp) r

@[simp] theorem rd_mEffect (c0 c : Core) (a b : Nat → Nat) (m : MSlot) (r : Nat) : (mEffect c0 c a b m).rd r = c.rd r :=
  Core.rd_congr (by simp) r

/-- A Q slot writes no register but the one that it names. -/
theorem rd_qEffect (c0 c : Core) (x : QSlot) (r : Nat) (h : r ∈ qDests x → r = 0) : (qEffect c0 c x).rd r = c.rd r := by
  cases x with
  | tpop qa ra rd =>
    have h0 : r = rd.toNat → r = 0 := fun e => h (by simp [qDests, e])
    show (c.wr rd.toNat _).rd r = _
    rw [Core.rd_wr]
    grind [Core.rd_zero]
  | bind | qmov | qdup | qdrop | tpush | qlive => exact Core.rd_congr rfl r

/-- An S slot writes no register but those that it names. -/
theorem rd_sEffect (c0 : Core) (csr : Nat → Word) (n : Word) (c : Core) (x : SSlot) (r : Nat) (h : r ∈ sDests x → r = 0) :
    (sEffect c0 csr n c x).rd r = c.rd r := by
  cases x with
  | alu op rd ra rb | aluImm op rd ra imm | lui rd imm | load op rd ra imm =>
    have h0 : r = rd.toNat → r = 0 := fun e => h (by simp [sDests, e])
    simp only [sEffect, Core.rd_wr]
    grind [Core.rd_zero]
  | jal rd off | jalr rd ra imm =>
    have h0 : r = rd.toNat → r = 0 := fun e => h (by simp [sDests, e])
    simp only [sEffect]
    show (c.wr rd.toNat _).rd r = _
    rw [Core.rd_wr]
    grind [Core.rd_zero]
  | csr op rd ra i =>
    have h0 : r = rd.toNat → r = 0 := fun e => h (by simp [sDests, e])
    have e : ∀ v, (c.wr rd.toNat v).rd r = c.rd r := fun v => by rw [Core.rd_wr]; grind [Core.rd_zero]
    cases op <;> simp [sEffect, e]
  | branch op ra rb off =>
    simp only [sEffect]
    split <;> rfl
  | store | endTask | tret | icinv => rfl

/-- A legal long word writes no register by two slots (R86). -/
theorem legal_dests {w : LongWord} {tm : Bool} (h : wordIllegal w tm = none) :
    clashing (wordDests w) = [] ∧ clashing (wordPops w) = [] ∧ clashing (wordPushes w) = [] := by
  unfold wordIllegal at h
  dsimp only at h
  rw [ite_eq_left_iff] at h
  simp only [reduceCtorEq, imp_false, not_not, Bool.and_eq_true, decide_eq_true_eq, List.append_eq_nil_iff] at h
  tauto

theorem clashing_nil {l : List (Nat × Nat)} (h : clashing l = []) {a b r : Nat} (ha : (a, r) ∈ l) (hb : (b, r) ∈ l) : a = b := by
  unfold clashing at h
  simp only [List.map_eq_nil_iff, List.filter_eq_nil_iff] at h
  have := h (a, r) ha
  by_contra hab
  exact this (List.any_eq_true.mpr ⟨(b, r), hb, by simp [hab]⟩)

theorem legal_sq {w : LongWord} {tm : Bool} (h : wordIllegal w tm = none) {x : SSlot} {y : QSlot} (hs : w.s = some x)
    (hq : w.q = some y) {r : Nat} (hx : r ∈ sDests x) (hy : r ∈ qDests y) : r = 0 := by
  by_contra h0
  have hc := (legal_dests h).1
  have h1 : ((0 : Nat), r) ∈ wordDests w := by simp [wordDests, hs, slotList, hx, h0]
  have h2 : ((1 : Nat), r) ∈ wordDests w := by simp [wordDests, hq, slotList, hy, h0]
  exact absurd (clashing_nil hc h1 h2) (by decide)

/-- The next long word's PC. -/
abbrev State.nextPc (u : State) (w : LongWord) : Word := (u.core w.core).pc + BitVec.ofNat 32 (longWordLen w)

/-- A slot keeps what its effect keeps. -/
theorem onSlot_keeps {α β γ : Type} (x : Option α) (f : β → α → β) (b : β) (g : β → γ)
    (h : ∀ b a, x = some a → g (f b a) = g b) : g (onSlot x f b) = g b := by
  cases x with
  | none => rfl
  | some a => exact h b a rfl

/-- After a long word that issues, its core holds in each register what its S slot leaves, but for the one that a TPOP
writes. -/
theorem State.rd_coreEffects (u : State) (w : LongWord) (r : Nat) (h : ∀ y, w.q = some y → r ∈ qDests y → r = 0) :
    (u.coreEffects w).rd r = (onSlot w.s (fun c x => sEffect (u.core w.core) (u.csr w.core) (u.nextPc w) c x)
      (popEnds w ((u.core w.core).advance w.wait (u.nextPc w)))).rd r := by
  unfold State.coreEffects
  refine (onSlot_keeps w.m _ _ (fun c : Core => c.rd r) (fun _ _ _ => rd_mEffect _ _ _ _ _ _)).trans ?_
  refine (onSlot_keeps w.v _ _ (fun c : Core => c.rd r) (fun _ _ _ => rd_vEffect _ _ _ _ _ _)).trans ?_
  exact onSlot_keeps w.q _ _ (fun c : Core => c.rd r) (fun c y hy => rd_qEffect _ _ _ _ (h y hy))

/-! ## What a long word that issues leaves -/

theorem State.issueEffects_rd (u : State) (w : LongWord) (t : Task) (r : Nat) :
    ((u.issueEffects w t).core w.core).rd r = (u.coreEffects w).rd r := by
  obtain ⟨_, ⟨q, i, l, f, o, p, h⟩, _⟩ := u.issueEffects_frame w t
  rw [State.core_setCore, if_pos rfl] at h
  exact Core.rd_congr (by rw [h]) r

theorem State.issueEffects_pc (u : State) (w : LongWord) (t : Task) :
    ((u.issueEffects w t).core w.core).pc = (onSlot w.s (fun c x => sEffect (u.core w.core) (u.csr w.core) (u.nextPc w) c x)
      (popEnds w ((u.core w.core).advance w.wait (u.nextPc w)))).pc := by
  obtain ⟨_, ⟨q, i, l, k, o, p, h⟩, _⟩ := u.issueEffects_frame w t
  rw [State.core_setCore, if_pos rfl] at h
  rw [h]
  refine (onSlot_keeps w.m _ _ Core.pc (fun _ _ _ => pc_mEffect _ _ _ _ _)).trans ?_
  refine (onSlot_keeps w.v _ _ Core.pc (fun _ _ _ => pc_vEffect _ _ _ _ _)).trans ?_
  exact onSlot_keeps w.q _ _ Core.pc (fun c y hy => pc_qEffect _ _ _)

theorem State.issueEffects_dmem (u : State) (w : LongWord) (t : Task) :
    ((u.issueEffects w t).core w.core).dmem = (onSlot w.s (fun c x => sEffect (u.core w.core) (u.csr w.core) (u.nextPc w) c x)
      (popEnds w ((u.core w.core).advance w.wait (u.nextPc w)))).dmem := by
  obtain ⟨_, ⟨q, i, l, k, o, p, h⟩, _⟩ := u.issueEffects_frame w t
  rw [State.core_setCore, if_pos rfl] at h
  rw [h]
  refine (onSlot_keeps w.m _ _ Core.dmem (fun _ _ _ => dmem_mEffect _ _ _ _ _)).trans ?_
  refine (onSlot_keeps w.v _ _ Core.dmem (fun _ _ _ => dmem_vEffect _ _ _ _ _)).trans ?_
  exact onSlot_keeps w.q _ _ Core.dmem (fun c y hy => dmem_qEffect _ _ _)

theorem State.issueEffects_ctimeout (u : State) (w : LongWord) (t : Task) :
    ((u.issueEffects w t).core w.core).ctimeout = (onSlot w.s (fun c x => sEffect (u.core w.core) (u.csr w.core) (u.nextPc w) c x)
      (popEnds w ((u.core w.core).advance w.wait (u.nextPc w)))).ctimeout := by
  obtain ⟨_, ⟨q, i, l, k, o, p, h⟩, _⟩ := u.issueEffects_frame w t
  rw [State.core_setCore, if_pos rfl] at h
  rw [h]
  refine (onSlot_keeps w.m _ _ Core.ctimeout (fun _ _ _ => ctimeout_mEffect _ _ _ _ _)).trans ?_
  refine (onSlot_keeps w.v _ _ Core.ctimeout (fun _ _ _ => ctimeout_vEffect _ _ _ _ _)).trans ?_
  exact onSlot_keeps w.q _ _ Core.ctimeout (fun c y hy => ctimeout_qEffect _ _ _)

theorem State.issueEffects_trapVec (u : State) (w : LongWord) (t : Task) :
    ((u.issueEffects w t).core w.core).trapVec = (onSlot w.s (fun c x => sEffect (u.core w.core) (u.csr w.core) (u.nextPc w) c x)
      (popEnds w ((u.core w.core).advance w.wait (u.nextPc w)))).trapVec := by
  obtain ⟨_, ⟨q, i, l, k, o, p, h⟩, _⟩ := u.issueEffects_frame w t
  rw [State.core_setCore, if_pos rfl] at h
  rw [h]
  refine (onSlot_keeps w.m _ _ Core.trapVec (fun _ _ _ => trapVec_mEffect _ _ _ _ _)).trans ?_
  refine (onSlot_keeps w.v _ _ Core.trapVec (fun _ _ _ => trapVec_vEffect _ _ _ _ _)).trans ?_
  exact onSlot_keeps w.q _ _ Core.trapVec (fun c y hy => trapVec_qEffect _ _ _)

theorem State.issueEffects_trapCause (u : State) (w : LongWord) (t : Task) :
    ((u.issueEffects w t).core w.core).trapCause = (onSlot w.s (fun c x => sEffect (u.core w.core) (u.csr w.core) (u.nextPc w) c x)
      (popEnds w ((u.core w.core).advance w.wait (u.nextPc w)))).trapCause := by
  obtain ⟨_, ⟨q, i, l, k, o, p, h⟩, _⟩ := u.issueEffects_frame w t
  rw [State.core_setCore, if_pos rfl] at h
  rw [h]
  refine (onSlot_keeps w.m _ _ Core.trapCause (fun _ _ _ => trapCause_mEffect _ _ _ _ _)).trans ?_
  refine (onSlot_keeps w.v _ _ Core.trapCause (fun _ _ _ => trapCause_vEffect _ _ _ _ _)).trans ?_
  exact onSlot_keeps w.q _ _ Core.trapCause (fun c y hy => trapCause_qEffect _ _ _)

theorem State.issueEffects_trapPc (u : State) (w : LongWord) (t : Task) :
    ((u.issueEffects w t).core w.core).trapPc = (onSlot w.s (fun c x => sEffect (u.core w.core) (u.csr w.core) (u.nextPc w) c x)
      (popEnds w ((u.core w.core).advance w.wait (u.nextPc w)))).trapPc := by
  obtain ⟨_, ⟨q, i, l, k, o, p, h⟩, _⟩ := u.issueEffects_frame w t
  rw [State.core_setCore, if_pos rfl] at h
  rw [h]
  refine (onSlot_keeps w.m _ _ Core.trapPc (fun _ _ _ => trapPc_mEffect _ _ _ _ _)).trans ?_
  refine (onSlot_keeps w.v _ _ Core.trapPc (fun _ _ _ => trapPc_vEffect _ _ _ _ _)).trans ?_
  exact onSlot_keeps w.q _ _ Core.trapPc (fun c y hy => trapPc_qEffect _ _ _)

theorem State.issueEffects_trapAddr (u : State) (w : LongWord) (t : Task) :
    ((u.issueEffects w t).core w.core).trapAddr = (onSlot w.s (fun c x => sEffect (u.core w.core) (u.csr w.core) (u.nextPc w) c x)
      (popEnds w ((u.core w.core).advance w.wait (u.nextPc w)))).trapAddr := by
  obtain ⟨_, ⟨q, i, l, k, o, p, h⟩, _⟩ := u.issueEffects_frame w t
  rw [State.core_setCore, if_pos rfl] at h
  rw [h]
  refine (onSlot_keeps w.m _ _ Core.trapAddr (fun _ _ _ => trapAddr_mEffect _ _ _ _ _)).trans ?_
  refine (onSlot_keeps w.v _ _ Core.trapAddr (fun _ _ _ => trapAddr_vEffect _ _ _ _ _)).trans ?_
  exact onSlot_keeps w.q _ _ Core.trapAddr (fun c y hy => trapAddr_qEffect _ _ _)

theorem State.issueEffects_cycles (u : State) (w : LongWord) (t : Task) :
    ((u.issueEffects w t).core w.core).cycles = (onSlot w.s (fun c x => sEffect (u.core w.core) (u.csr w.core) (u.nextPc w) c x)
      (popEnds w ((u.core w.core).advance w.wait (u.nextPc w)))).cycles := by
  obtain ⟨_, ⟨q, i, l, k, o, p, h⟩, _⟩ := u.issueEffects_frame w t
  rw [State.core_setCore, if_pos rfl] at h
  rw [h]
  refine (onSlot_keeps w.m _ _ Core.cycles (fun _ _ _ => cycles_mEffect _ _ _ _ _)).trans ?_
  refine (onSlot_keeps w.v _ _ Core.cycles (fun _ _ _ => cycles_vEffect _ _ _ _ _)).trans ?_
  exact onSlot_keeps w.q _ _ Core.cycles (fun c y hy => cycles_qEffect _ _ _)

theorem State.issueEffects_cycleHi (u : State) (w : LongWord) (t : Task) :
    ((u.issueEffects w t).core w.core).cycleHi = (onSlot w.s (fun c x => sEffect (u.core w.core) (u.csr w.core) (u.nextPc w) c x)
      (popEnds w ((u.core w.core).advance w.wait (u.nextPc w)))).cycleHi := by
  obtain ⟨_, ⟨q, i, l, k, o, p, h⟩, _⟩ := u.issueEffects_frame w t
  rw [State.core_setCore, if_pos rfl] at h
  rw [h]
  refine (onSlot_keeps w.m _ _ Core.cycleHi (fun _ _ _ => cycleHi_mEffect _ _ _ _ _)).trans ?_
  refine (onSlot_keeps w.v _ _ Core.cycleHi (fun _ _ _ => cycleHi_vEffect _ _ _ _ _)).trans ?_
  exact onSlot_keeps w.q _ _ Core.cycleHi (fun c y hy => cycleHi_qEffect _ _ _)

theorem State.issueEffects_discSel (u : State) (w : LongWord) (t : Task) :
    ((u.issueEffects w t).core w.core).discSel = (onSlot w.s (fun c x => sEffect (u.core w.core) (u.csr w.core) (u.nextPc w) c x)
      (popEnds w ((u.core w.core).advance w.wait (u.nextPc w)))).discSel := by
  obtain ⟨_, ⟨q, i, l, k, o, p, h⟩, _⟩ := u.issueEffects_frame w t
  rw [State.core_setCore, if_pos rfl] at h
  rw [h]
  refine (onSlot_keeps w.m _ _ Core.discSel (fun _ _ _ => discSel_mEffect _ _ _ _ _)).trans ?_
  refine (onSlot_keeps w.v _ _ Core.discSel (fun _ _ _ => discSel_vEffect _ _ _ _ _)).trans ?_
  exact onSlot_keeps w.q _ _ Core.discSel (fun c y hy => discSel_qEffect _ _ _)

theorem State.issueEffects_trapMode (u : State) (w : LongWord) (t : Task) :
    ((u.issueEffects w t).core w.core).trapMode = (onSlot w.s (fun c x => sEffect (u.core w.core) (u.csr w.core) (u.nextPc w) c x)
      (popEnds w ((u.core w.core).advance w.wait (u.nextPc w)))).trapMode := by
  obtain ⟨_, ⟨q, i, l, k, o, p, h⟩, _⟩ := u.issueEffects_frame w t
  rw [State.core_setCore, if_pos rfl] at h
  rw [h]
  refine (onSlot_keeps w.m _ _ Core.trapMode (fun _ _ _ => trapMode_mEffect _ _ _ _ _)).trans ?_
  refine (onSlot_keeps w.v _ _ Core.trapMode (fun _ _ _ => trapMode_vEffect _ _ _ _ _)).trans ?_
  exact onSlot_keeps w.q _ _ Core.trapMode (fun c y hy => trapMode_qEffect _ _ _)

theorem State.issueEffects_trapLen (u : State) (w : LongWord) (t : Task) :
    ((u.issueEffects w t).core w.core).trapLen = (onSlot w.s (fun c x => sEffect (u.core w.core) (u.csr w.core) (u.nextPc w) c x)
      (popEnds w ((u.core w.core).advance w.wait (u.nextPc w)))).trapLen := by
  obtain ⟨_, ⟨q, i, l, k, o, p, h⟩, _⟩ := u.issueEffects_frame w t
  rw [State.core_setCore, if_pos rfl] at h
  rw [h]
  refine (onSlot_keeps w.m _ _ Core.trapLen (fun _ _ _ => trapLen_mEffect _ _ _ _ _)).trans ?_
  refine (onSlot_keeps w.v _ _ Core.trapLen (fun _ _ _ => trapLen_vEffect _ _ _ _ _)).trans ?_
  exact onSlot_keeps w.q _ _ Core.trapLen (fun c y hy => trapLen_qEffect _ _ _)

theorem State.issueEffects_stall (u : State) (w : LongWord) (t : Task) :
    ((u.issueEffects w t).core w.core).stall = (onSlot w.s (fun c x => sEffect (u.core w.core) (u.csr w.core) (u.nextPc w) c x)
      (popEnds w ((u.core w.core).advance w.wait (u.nextPc w)))).stall := by
  obtain ⟨_, ⟨q, i, l, k, o, p, h⟩, _⟩ := u.issueEffects_frame w t
  rw [State.core_setCore, if_pos rfl] at h
  rw [h]
  refine (onSlot_keeps w.m _ _ Core.stall (fun _ _ _ => stall_mEffect _ _ _ _ _)).trans ?_
  refine (onSlot_keeps w.v _ _ Core.stall (fun _ _ _ => stall_vEffect _ _ _ _ _)).trans ?_
  exact onSlot_keeps w.q _ _ Core.stall (fun c y hy => stall_qEffect _ _ _)

theorem State.issueEffects_ending (u : State) (w : LongWord) (t : Task) :
    ((u.issueEffects w t).core w.core).ending = (onSlot w.s (fun c x => sEffect (u.core w.core) (u.csr w.core) (u.nextPc w) c x)
      (popEnds w ((u.core w.core).advance w.wait (u.nextPc w)))).ending := by
  obtain ⟨_, ⟨q, i, l, k, o, p, h⟩, _⟩ := u.issueEffects_frame w t
  rw [State.core_setCore, if_pos rfl] at h
  rw [h]
  refine (onSlot_keeps w.m _ _ Core.ending (fun _ _ _ => ending_mEffect _ _ _ _ _)).trans ?_
  refine (onSlot_keeps w.v _ _ Core.ending (fun _ _ _ => ending_vEffect _ _ _ _ _)).trans ?_
  exact onSlot_keeps w.q _ _ Core.ending (fun c y hy => ending_qEffect _ _ _)

theorem State.issueEffects_icache (u : State) (w : LongWord) (t : Task) :
    ((u.issueEffects w t).core w.core).icache = (onSlot w.s (fun c x => sEffect (u.core w.core) (u.csr w.core) (u.nextPc w) c x)
      (popEnds w ((u.core w.core).advance w.wait (u.nextPc w)))).icache := by
  obtain ⟨_, ⟨q, i, l, k, o, p, h⟩, _⟩ := u.issueEffects_frame w t
  rw [State.core_setCore, if_pos rfl] at h
  rw [h]
  refine (onSlot_keeps w.m _ _ Core.icache (fun _ _ _ => icache_mEffect _ _ _ _ _)).trans ?_
  refine (onSlot_keeps w.v _ _ Core.icache (fun _ _ _ => icache_vEffect _ _ _ _ _)).trans ?_
  exact onSlot_keeps w.q _ _ Core.icache (fun c y hy => icache_qEffect _ _ _)

theorem State.issueEffects_task (u : State) (w : LongWord) (t : Task) :
    ((u.issueEffects w t).core w.core).task = (onSlot w.s (fun c x => sEffect (u.core w.core) (u.csr w.core) (u.nextPc w) c x)
      (popEnds w ((u.core w.core).advance w.wait (u.nextPc w)))).task := by
  obtain ⟨_, ⟨q, i, l, k, o, p, h⟩, _⟩ := u.issueEffects_frame w t
  rw [State.core_setCore, if_pos rfl] at h
  rw [h]
  refine (onSlot_keeps w.m _ _ Core.task (fun _ _ _ => task_mEffect _ _ _ _ _)).trans ?_
  refine (onSlot_keeps w.v _ _ Core.task (fun _ _ _ => task_vEffect _ _ _ _ _)).trans ?_
  exact onSlot_keeps w.q _ _ Core.task (fun c y hy => task_qEffect _ _ _)

theorem State.issueEffects_lastJob (u : State) (w : LongWord) (t : Task) :
    ((u.issueEffects w t).core w.core).lastJob = (onSlot w.s (fun c x => sEffect (u.core w.core) (u.csr w.core) (u.nextPc w) c x)
      (popEnds w ((u.core w.core).advance w.wait (u.nextPc w)))).lastJob := by
  obtain ⟨_, ⟨q, i, l, k, o, p, h⟩, _⟩ := u.issueEffects_frame w t
  rw [State.core_setCore, if_pos rfl] at h
  rw [h]
  refine (onSlot_keeps w.m _ _ Core.lastJob (fun _ _ _ => lastJob_mEffect _ _ _ _ _)).trans ?_
  refine (onSlot_keeps w.v _ _ Core.lastJob (fun _ _ _ => lastJob_vEffect _ _ _ _ _)).trans ?_
  exact onSlot_keeps w.q _ _ Core.lastJob (fun c y hy => lastJob_qEffect _ _ _)

theorem State.issueEffects_halted (u : State) (w : LongWord) (t : Task) :
    ((u.issueEffects w t).core w.core).halted = (onSlot w.s (fun c x => sEffect (u.core w.core) (u.csr w.core) (u.nextPc w) c x)
      (popEnds w ((u.core w.core).advance w.wait (u.nextPc w)))).halted := by
  obtain ⟨_, ⟨q, i, l, k, o, p, h⟩, _⟩ := u.issueEffects_frame w t
  rw [State.core_setCore, if_pos rfl] at h
  rw [h]
  refine (onSlot_keeps w.m _ _ Core.halted (fun _ _ _ => halted_mEffect _ _ _ _ _)).trans ?_
  refine (onSlot_keeps w.v _ _ Core.halted (fun _ _ _ => halted_vEffect _ _ _ _ _)).trans ?_
  exact onSlot_keeps w.q _ _ Core.halted (fun c y hy => halted_qEffect _ _ _)

theorem State.issueEffects_phys (u : State) (w : LongWord) (t : Task) :
    ((u.issueEffects w t).core w.core).phys = (onSlot w.s (fun c x => sEffect (u.core w.core) (u.csr w.core) (u.nextPc w) c x)
      (popEnds w ((u.core w.core).advance w.wait (u.nextPc w)))).phys := by
  obtain ⟨_, ⟨q, i, l, k, o, p, h⟩, _⟩ := u.issueEffects_frame w t
  rw [State.core_setCore, if_pos rfl] at h
  rw [h]
  refine (onSlot_keeps w.m _ _ Core.phys (fun _ _ _ => phys_mEffect _ _ _ _ _)).trans ?_
  refine (onSlot_keeps w.v _ _ Core.phys (fun _ _ _ => phys_vEffect _ _ _ _ _)).trans ?_
  exact onSlot_keeps w.q _ _ Core.phys (fun c y hy => phys_qEffect _ _ _)

theorem State.issueEffects_retired (u : State) (w : LongWord) (t : Task) :
    ((u.issueEffects w t).core w.core).retired = (onSlot w.s (fun c x => sEffect (u.core w.core) (u.csr w.core) (u.nextPc w) c x)
      (popEnds w ((u.core w.core).advance w.wait (u.nextPc w)))).retired := by
  obtain ⟨_, ⟨q, i, l, k, o, p, h⟩, _⟩ := u.issueEffects_frame w t
  rw [State.core_setCore, if_pos rfl] at h
  rw [h]
  refine (onSlot_keeps w.m _ _ Core.retired (fun _ _ _ => retired_mEffect _ _ _ _ _)).trans ?_
  refine (onSlot_keeps w.v _ _ Core.retired (fun _ _ _ => retired_vEffect _ _ _ _ _)).trans ?_
  exact onSlot_keeps w.q _ _ Core.retired (fun c y hy => retired_qEffect _ _ _)

theorem State.issueEffects_testing (u : State) (w : LongWord) (t : Task) :
    ((u.issueEffects w t).core w.core).testing = (onSlot w.s (fun c x => sEffect (u.core w.core) (u.csr w.core) (u.nextPc w) c x)
      (popEnds w ((u.core w.core).advance w.wait (u.nextPc w)))).testing := by
  obtain ⟨_, ⟨q, i, l, k, o, p, h⟩, _⟩ := u.issueEffects_frame w t
  rw [State.core_setCore, if_pos rfl] at h
  rw [h]
  refine (onSlot_keeps w.m _ _ Core.testing (fun _ _ _ => testing_mEffect _ _ _ _ _)).trans ?_
  refine (onSlot_keeps w.v _ _ Core.testing (fun _ _ _ => testing_vEffect _ _ _ _ _)).trans ?_
  exact onSlot_keeps w.q _ _ Core.testing (fun c y hy => testing_qEffect _ _ _)

theorem State.issueEffects_drained (u : State) (w : LongWord) (t : Task) :
    ((u.issueEffects w t).core w.core).drained = (onSlot w.s (fun c x => sEffect (u.core w.core) (u.csr w.core) (u.nextPc w) c x)
      (popEnds w ((u.core w.core).advance w.wait (u.nextPc w)))).drained := by
  obtain ⟨_, ⟨q, i, l, k, o, p, h⟩, _⟩ := u.issueEffects_frame w t
  rw [State.core_setCore, if_pos rfl] at h
  rw [h]
  refine (onSlot_keeps w.m _ _ Core.drained (fun _ _ _ => drained_mEffect _ _ _ _ _)).trans ?_
  refine (onSlot_keeps w.v _ _ Core.drained (fun _ _ _ => drained_vEffect _ _ _ _ _)).trans ?_
  exact onSlot_keeps w.q _ _ Core.drained (fun c y hy => drained_qEffect _ _ _)

theorem State.issueEffects_ucodeB (u : State) (w : LongWord) (t : Task) :
    ((u.issueEffects w t).core w.core).ucodeB = (onSlot w.s (fun c x => sEffect (u.core w.core) (u.csr w.core) (u.nextPc w) c x)
      (popEnds w ((u.core w.core).advance w.wait (u.nextPc w)))).ucodeB := by
  obtain ⟨_, ⟨q, i, l, k, o, p, h⟩, _⟩ := u.issueEffects_frame w t
  rw [State.core_setCore, if_pos rfl] at h
  rw [h]
  refine (onSlot_keeps w.m _ _ Core.ucodeB (fun _ _ _ => ucodeB_mEffect _ _ _ _ _)).trans ?_
  refine (onSlot_keeps w.v _ _ Core.ucodeB (fun _ _ _ => ucodeB_vEffect _ _ _ _ _)).trans ?_
  exact onSlot_keeps w.q _ _ Core.ucodeB (fun c y hy => ucodeB_qEffect _ _ _)

/-! ## Queue ends -/

/-- Each end of a list without repeats is popped once. -/
theorem queue_pops (l : List Nat) (hl : l.Nodup) (c : Core) (e : Nat) :
    (l.foldl Core.pop c).queue e = if e ∈ l then (c.pop e).queue e else c.queue e := by
  induction l generalizing c with
  | nil => simp
  | cons a r ih =>
    have hn := List.nodup_cons.mp hl
    rw [List.foldl_cons, ih hn.2]
    by_cases he : e = a
    · subst he
      simp [hn.1]
    · simp [he]

/-- The ends that a long word pops are popped once each. -/
theorem queue_popEnds (w : LongWord) (c : Core) (e : Nat) :
    (popEnds w c).queue e = if e ∈ wordPopped w then (c.pop e).queue e else c.queue e := by
  unfold popEnds
  dsimp only
  rw [queue_pops _ (List.nodup_dedup _)]
  simp only [List.mem_dedup]
  rfl

/-- How many tiles each slot puts into an end. -/
theorem count_qEffect (c0 c : Core) (x : QSlot) (h : qLegal x = true) (e : Nat) :
    ((qEffect c0 c x).queue e).count = (c.queue e).count + if e ∈ qPushes x then 1 else 0 := by
  cases x with
  | qmov qa qb =>
    simp only [qEffect, Core.queue_push, qPushes, List.mem_singleton]
    split <;> simp_all [Queue.count]
  | qdup qa qb qc =>
    have hn : qb.toNat ≠ qc.toNat := by
      simp [qLegal] at h
      intro hh; exact h.2 (BitVec.eq_of_toNat_eq hh)
    simp only [qEffect, Core.queue_push, qPushes, List.mem_cons, List.not_mem_nil, or_false]
    grind [Queue.count]
  | tpush qb ra r k =>
    simp only [qEffect, Core.queue_push, qPushes, List.mem_singleton]
    split <;> simp_all [Queue.count]
  | tpop qa ra rd =>
    have : (qEffect c0 c (.tpop qa ra rd)).queue e = c.queue e := Core.queue_congr (by simp [qEffect]) e
    simp [this, qPushes]
  | bind | qdrop | qlive => simp [qEffect, qPushes, Core.queue]

theorem count_vEffect (c0 c : Core) (a b : Nat → Nat) (v : VSlot) (e : Nat) :
    ((vEffect c0 c a b v).queue e).count = (c.queue e).count + if e = v.qd.toNat then 1 else 0 := by
  unfold vEffect
  split
  simp only [Core.queue_orFp, Core.queue_push]
  split <;> simp_all [Queue.count]

theorem count_mEffect (c0 c : Core) (a b : Nat → Nat) (m : MSlot) (e : Nat) :
    ((mEffect c0 c a b m).queue e).count = (c.queue e).count + if e ∈ mPushes m then 1 else 0 := by
  unfold mEffect mPushes
  cases m.op
  · simp
  · dsimp only
    split <;> simp only [Core.queue_setBank, Core.queue_orFp, Core.queue_push, List.mem_singleton] <;> split <;>
      simp_all [Queue.count]
  · simp
  · simp
  · simp only [Core.queue_orFp, Core.queue_push, List.mem_singleton]
    split <;> simp_all [Queue.count]

/-- Every slot of a legal long word is legal (R86). -/
theorem legal_slots {w : LongWord} {tm : Bool} (h : wordIllegal w tm = none) :
    w.s.all (sLegal tm) = true ∧ w.q.all qLegal = true ∧ w.d.all dLegal = true ∧ w.v.all vLegal = true ∧
      w.m.all mLegal = true ∧ w.t.all tLegal = true := by
  unfold wordIllegal at h
  dsimp only at h
  rw [ite_eq_left_iff] at h
  simp only [reduceCtorEq, imp_false, not_not, Bool.and_eq_true, decide_eq_true_eq, List.append_eq_nil_iff,
    ite_eq_left_iff, List.cons_ne_self] at h
  tauto

/-- The slots that push to an end of a legal long word: one at most (R86). -/
theorem count_pushes {w : LongWord} {tm : Bool} (h : wordIllegal w tm = none) (e : Nat) :
    (if e ∈ slotList w.q qPushes then 1 else 0) + (if e ∈ slotList w.v (fun v => [v.qd.toNat]) then 1 else 0) +
      (if e ∈ slotList w.m mPushes then 1 else 0) = if e ∈ (wordPushes w).map (·.2) then 1 else 0 := by
  have hc := (legal_dests h).2.2
  have m1 : e ∈ slotList w.q qPushes → (1, e) ∈ wordPushes w := fun hh => by simp [wordPushes, hh]
  have m3 : e ∈ slotList w.v (fun v => [v.qd.toNat]) → (3, e) ∈ wordPushes w := fun hh => by simp [wordPushes, hh]
  have m4 : e ∈ slotList w.m mPushes → (4, e) ∈ wordPushes w := fun hh => by simp [wordPushes, hh]
  have a13 := fun p q => (by decide : ¬(((1 : Nat)) = 3)) (clashing_nil hc (m1 p) (m3 q))
  have a14 := fun p q => (by decide : ¬(((1 : Nat)) = 4)) (clashing_nil hc (m1 p) (m4 q))
  have a34 := fun p q => (by decide : ¬(((3 : Nat)) = 4)) (clashing_nil hc (m3 p) (m4 q))
  have hm : e ∈ (wordPushes w).map (·.2) ↔ e ∈ slotList w.q qPushes ∨ e ∈ slotList w.v (fun v => [v.qd.toNat]) ∨
      e ∈ slotList w.m mPushes := by
    simp [wordPushes]
  grind

/-- The tiles that each end holds after a long word's slots. -/
theorem State.count_coreEffects (u : State) (w : LongWord) {tm : Bool} (h : wordIllegal w tm = none) (e : Nat) :
    ((u.coreEffects w).queue e).count = ((popEnds w (u.core w.core)).queue e).count +
      if e ∈ (wordPushes w).map (·.2) then 1 else 0 := by
  have hq := (legal_slots h).2.1
  rw [← count_pushes h]
  unfold State.coreEffects
  dsimp only
  have hm (c : Core) (f) (g) : ((onSlot w.m (fun c x => mEffect (u.core w.core) c f g x) c).queue e).count = (c.queue e).count +
    if e ∈ slotList w.m mPushes then 1 else 0 := by
    cases w.m <;> simp [onSlot, slotList, count_mEffect]; congr
  have hv (c : Core) (f) (g) : ((onSlot w.v (fun c x => vEffect (u.core w.core) c f g x) c).queue e).count = (c.queue e).count +
    if e ∈ slotList w.v (fun v => [v.qd.toNat]) then 1 else 0 := by
    cases w.v <;> simp [onSlot, slotList, count_vEffect]
  have hq (c : Core) : ((onSlot w.q (fun c x => qEffect (u.core w.core) c x) c).queue e).count = (c.queue e).count +
    if e ∈ slotList w.q qPushes then 1 else 0 := by
    cases hw : w.q with
    | none => simp [onSlot, slotList]
    | some x => simp [onSlot, slotList]; rw [count_qEffect _ _ _ (by simpa [hw] using hq)]; congr
  rw [hm, hv, hq]
  have hs (c : Core) : (onSlot w.s (fun c x => sEffect (u.core w.core) (u.csr w.core) (u.nextPc w) c x) c).queue e = c.queue e := by
    refine Core.queue_congr ?_ e
    cases w.s <;> simp [onSlot]
  rw [hs, queue_popEnds, queue_popEnds]
  simp
  omega

/-- Without START and BIND the queue ends are those that the slots leave. -/
theorem State.issueEffects_core (u : State) (w : LongWord) (t : Task) (hb : ∀ a b c d f g, w.q ≠ some (.bind a b c d f g))
    (hd : ∀ r, w.d ≠ some (.start r)) :
    ∃ i l, (u.issueEffects w t).core w.core = { u.coreEffects w with inflight := i, loopHead := l } ∧
      (w.d = none → i = (u.coreEffects w).inflight) := by
  obtain ⟨l, hl⟩ := Core.keepLoop_frame (u.coreEffects w) w t.codeBase (u.core w.core).pc
  unfold State.issueEffects
  dsimp only
  rw [hl]
  split
  · rename_i h; exact absurd h (hb _ _ _ _ _ _)
  have ht (n : State) : (onSlot w.t (fun s x => s.tEffect w.core t (u.core w.core) x) n).core w.core = n.core w.core := by
    cases w.t <;> rfl
  rw [ht]
  cases h : w.d with
  | none => exact ⟨(u.coreEffects w).inflight, l, by simp [onSlot], fun _ => rfl⟩
  | some d =>
    obtain ⟨i, k, g, ld, tg, e, p, h⟩ := State.dEffect_frame
      (u.setCore w.core { u.coreEffects w with loopHead := l }).tick w.core t (u.core w.core) d (fun r hr => hd r (hr ▸ h))
    refine ⟨(u.coreEffects w).inflight ++ [i], l, ?_, by simp⟩
    simp only [onSlot]
    rw [h]
    show ((u.setCore w.core { u.coreEffects w with loopHead := l }).tick.setCore w.core _).core w.core = _
    simp

/-- A long word with an S slot alone has that slot's effect on its core. -/
theorem State.coreEffects_scalar (u : State) (w : LongWord) (x : SSlot) (hs : w.s = some x) (hq : w.q = none) (hv : w.v = none)
    (hm : w.m = none) : u.coreEffects w = sEffect (u.core w.core) (u.csr w.core) (u.nextPc w)
      ((u.core w.core).advance w.wait (u.nextPc w)) x := by
  have hp (c : Core) : popEnds w c = c := by simp [popEnds, hq, hv, hm, slotList]
  simp [State.coreEffects, hs, hq, hv, hm, onSlot, hp]

/-! ## Tower memory -/

/-- A slice that starts changes no byte of a tower: it only queues commands there. -/
theorem State.ram_congr {a b : State} (h : a.towers = b.towers) (g : Nat) : (a.tower g).ram = (b.tower g).ram := by
  simp [State.tower, h]

theorem State.chargeCore_towers (s : State) (c k : Nat) : (s.chargeCore c k).towers = s.towers := by
  obtain ⟨x, g, h | h⟩ := State.chargeCore_frame s c k <;> rw [h] <;> rfl

theorem State.seqIssue_ram (n core : Nat) (s : State) (g : Nat) : ((s.seqIssue core n).tower g).ram = (s.tower g).ram := by
  induction n generalizing s with
  | zero => rfl
  | succ n ih =>
    unfold State.seqIssue
    dsimp only
    split
    · split
      · rfl
      · split
        · rfl
        · rw [ih]
          simp
          split <;> simp_all
    · rfl

theorem State.seqBind_towers (s : State) (core p : Nat) (q : LayerSeq) (e : Nat × Format) :
    (s.seqBind core p q e).1.towers = s.towers := by
  unfold State.seqBind
  dsimp only
  split <;> split <;> rfl

theorem State.seqBinds_towers (l : List (Nat × Format)) (core p : Nat) (q : LayerSeq) (s : State) :
    (s.seqBinds core p q l).1.towers = s.towers := by
  induction l generalizing s with
  | nil => rfl
  | cons e r ih =>
    have h := State.seqBind_towers s core p q e
    unfold State.seqBinds
    rcases hb : s.seqBind core p q e with ⟨s1, _ | n⟩
    · rwa [hb] at h
    · rw [hb] at h
      exact (ih _).trans h

theorem State.startSlice_ram (s : State) (core p i g : Nat) : ((s.startSlice core p i).tower g).ram = (s.tower g).ram := by
  unfold State.startSlice
  dsimp only
  split
  · rfl
  · split
    · rfl
    · rw [State.seqIssue_ram]
      refine State.ram_congr ?_ g
      refine (State.chargeCore_towers _ _ _).trans ?_
      exact State.seqBinds_towers _ _ _ _ _

theorem State.issueEffects_ram (u : State) (w : LongWord) (t : Task) (g : Nat) :
    ((u.issueEffects w t).tower g).ram = (u.tower g).ram := by
  have hd (n : State) : ((onSlot w.d (fun s x => s.dEffect w.core t (u.core w.core) x) n).tower g).ram = (n.tower g).ram := by
    cases w.d with
    | none => rfl
    | some d =>
      by_cases hx : ∃ r, d = .start r
      · obtain ⟨r, rfl⟩ := hx
        exact State.startSlice_ram _ _ _ _ _
      · obtain ⟨i, k, r, l, tg, e, p, h⟩ := State.dEffect_frame n w.core t (u.core w.core) d (fun r hr => hx ⟨r, hr⟩)
        exact State.ram_congr (by simp only [onSlot]; rw [h]; rfl) g
  have ht (n : State) : ((onSlot w.t (fun s x => s.tEffect w.core t (u.core w.core) x) n).tower g).ram = (n.tower g).ram := by
    cases w.t with
    | none => rfl
    | some x =>
      simp only [onSlot, State.tEffect, State.modTower, State.tower_setTower]
      split <;> simp_all
  unfold State.issueEffects
  dsimp only
  split
  · refine (State.ram_congr (b := onSlot w.t (fun s x => s.tEffect w.core t (u.core w.core) x)
      (onSlot w.d (fun s x => s.dEffect w.core t (u.core w.core) x)
        (u.setCore w.core ((u.coreEffects w).keepLoop w t.codeBase (u.core w.core).pc)).tick)) rfl g).trans ?_
    exact (ht _).trans (hd _)
  · exact (ht _).trans (hd _)

end Sys2Proof.Machine
end

