-- ==== Sys2Proof/Tests/Slice0.lean ====
section
/-! SUPPORT. Tests of the model on small states, and for every statement that has hypotheses a state that meets them. -/

namespace Sys2Proof.Tests

set_option Elab.async false

open Sys2Proof.Machine

/-! ## States -/

/-- The part powered and READY with its port trained, partition 0 ENABLED with group 0 in G0, its first frame valid and
granule 0 its scratch. -/
def up : State := { State.reset with
  mod := { State.reset.mod with bulk := true, pwrEn := true, modPg := true, perst := false }
  port := { width := 16, rate := 64, trained := 16, vfEnable := true }
  aldeah := { State.reset.aldeah with up := true }
  regs := [(Off.gstat, 2 ^ 31), (partBase 0 + Off.pctl, 2 ^ 31 + 1), (jobBase 0 0 + Off.pjobDma, 0x7FFF)]
  groups := [(0, { pstate := .g0 })]
  towers := [(0, { owner := 0, frames := [(0, { valid := true, checked := true, init := true })] })]
  granules := [(0, { scratch := true, part := 0 })]
  parts := [(0, { state := .enabled })] }

/-- A task of job 0 of partition 0 whose code begins at partition address 0. -/
def task : Machine.Task := { part := 0, job := 0, index := 0, cls := 0, codeBase := 0 }

/-- A core with a task whose code is in its instruction cache: s1 = 5, s2 = 64, s3 = 0xFFFFFFFF. -/
def running : Core :=
  { task := some task, icache := [(0, .good), (1, .good)], sregs := [(1, 5), (2, 64), (3, 0xFFFFFFFF)] }

/-- Core 0 runs. -/
def one : State := { up with cores := [(0, running)] }

/-- A long word of core 0 with no slots. -/
def lw : LongWord := { core := 0 }

/-- Whether a long word issues. -/
def issues (s : State) (w : LongWord) (t : Machine.Task) : Bool :=
  s.canIssue w.core && decide ((s.core w.core).task = some t) && (s.core w.core).waitReady w.wait &&
  decide ((s.fetch w.core (longWordLen w)).2 = .ok) &&
  decide (wordIllegal w ((s.fetch w.core (longWordLen w)).1.core w.core).trapMode = none) &&
  decide (((s.fetch w.core (longWordLen w)).1.core w.core).earlyStall w = none) &&
  decide (((s.fetch w.core (longWordLen w)).1.issueTrap w t).2 = none) &&
  decide (((s.fetch w.core (longWordLen w)).1.issueTrap w t).1.lateStall w = none)

theorem issues_sound {s : State} {w : LongWord} {t : Machine.Task} (h : issues s w t = true) : ∃ u, s.IssuesFrom w t u := by
  simp only [issues, Bool.and_eq_true, decide_eq_true_eq] at h
  obtain ⟨⟨⟨⟨⟨⟨⟨h1, h2⟩, h3⟩, h4⟩, h5⟩, h6⟩, h7⟩, h8⟩ := h
  exact ⟨_, h1, h2, h3, h4, h5, h6, Prod.ext rfl h7, h8⟩

/-- Every operation of the S slot issues: what EmptyEndTretIcinv, ScalarArithmetic, DataMemoryAccesses, BranchesAndJumps,
CsrOperations and ScalarFrame assume. -/
theorem witness_scalar : ([
    .alu .add 4 1 2, .alu .sub 4 1 2, .alu .and 4 1 2, .alu .or 4 1 2, .alu .xor 4 1 2, .alu .sll 0 1 2, .alu .srl 4 1 3,
    .alu .sra 4 3 2, .alu .slt 4 3 1, .alu .sltu 31 3 1, .alu .mul 4 3 3, .alu .mulhu 4 3 3, .alu .mulh 4 3 3,
    .aluImm .addi 4 1 0xFFFF, .aluImm .andi 4 1 0xFFFF, .aluImm .ori 4 1 0, .aluImm .xori 0 1 1, .aluImm .slli 4 1 31,
    .aluImm .srli 4 1 0, .aluImm .srai 4 3 31, .aluImm .slti 4 3 0xFFFF, .lui 4 0xFFFF,
    .load .ldb 4 2 0xFFFF, .load .ldbu 4 2 0, .load .ldh 4 2 2, .load .ldhu 0 2 0, .load .ld 4 2 0xFFC0,
    .store .stb 1 2 0xFFFF, .store .sth 3 2 0, .store .st 3 2 0xFFC0,
    .branch .beq 1 1 0xFFFF, .branch .bne 1 2 5, .branch .blt 3 1 5, .branch .bge 1 3 5, .branch .bltu 1 3 5,
    .branch .bgeu 3 1 5, .jal 4 0x1FFFFF, .jalr 0 2 4, .csr .csrr 4 0 0x10, .csr .csrw 4 1 3, .csr .csrs 0 1 8,
    .csr .csrc 4 1 0x20, .endTask, .icinv 4 1] : List SSlot).all (fun x => issues one { lw with s := some x } task) = true := by
  decide +kernel

/-- The empty long word issues, TRET issues in trap mode, and a condition flag that is set is consumed: what EmptyEndTretIcinv
assumes of them. -/
theorem witness_empty : issues one lw task = true ∧
    issues { one with cores := [(0, { running with flags := 0x81 })] } { lw with wait := 0x81 } task = true ∧
    ([false, true].all fun skip =>
      issues { one with cores := [(0, { running with trapMode := true, trapPc := 9, trapLen := 3 })] }
        { lw with s := some (.tret skip) } task) = true := by
  decide +kernel

/-- LongWordsAreOffered: two commands that stand for one long word, a core that cannot issue, and a long word that waits. -/
theorem witness_LongWordsAreOffered :
    (Instr.add { lw with q := some (.qdrop 1) } 4 1 2).word = (Instr.qdrop { lw with s := some (.alu .add 4 1 2) } 1).word ∧
    up.canIssue 0 = false ∧ one.canIssue 0 = true ∧ (one.core 0).flags &&& 1 ≠ 1 := by
  decide +kernel

/-- Core 0 with a trap handler. -/
def guarded : State := { one with cores := [(0, { running with trapVec := 0x100 })] }

/-- Whether a long word is taken up and then trapped by a slot that the core's handler takes. -/
def traps (s : State) (w : LongWord) (t : Machine.Task) : Bool :=
  s.canIssue w.core && decide ((s.core w.core).task = some t) && (s.core w.core).waitReady w.wait &&
  decide ((s.fetch w.core (longWordLen w)).2 = .ok) &&
  decide (wordIllegal w ((s.fetch w.core (longWordLen w)).1.core w.core).trapMode = none) &&
  decide (((s.fetch w.core (longWordLen w)).1.core w.core).earlyStall w = none) &&
  (match ((s.fetch w.core (longWordLen w)).1.issueTrap w t).2 with
   | some (tr, _, _) => trapHandled tr
   | none => false) &&
  !(((s.fetch w.core (longWordLen w)).1.issueTrap w t).1.core w.core).trapMode &&
  decide ((((s.fetch w.core (longWordLen w)).1.issueTrap w t).1.core w.core).trapVec ≠ 0)

/-- TrapsAtIssue: a misaligned load and one past data memory trap, and TRET outside trap mode is illegal. -/
theorem witness_TrapsAtIssue :
    traps guarded { lw with s := some (.load .ld 4 1 0) } task = true ∧
    traps guarded { lw with s := some (.store .stb 1 3 0) } task = true ∧
    (let w := { lw with s := some (.tret false) }
     guarded.canIssue 0 = true ∧ (guarded.fetch 0 (longWordLen w)).2 = .ok ∧
       wordIllegal w ((guarded.fetch 0 (longWordLen w)).1.core 0).trapMode = some 1 ∧
       ((guarded.fetch 0 (longWordLen w)).1.core 0).trapMode = false ∧
       ((guarded.fetch 0 (longWordLen w)).1.core 0).trapVec ≠ 0) := by
  decide +kernel

/-- Core 0 with LOCAL queue ends: 0 and 1 hold a BF16 tile, 2 and 3 have room for two, 4 is an FP32 end. -/
def queued : State :=
  let q (base : Nat) (tags : List Word) : Queue := { kind := .local, fmt := .bf16, depth := 2, base := base, tags := tags }
  { one with cores := [(0, { running with
      sregs := [(1, 0x100000), (2, 64), (3, 0xFFFFFFFF), (5, 0xFFC0)]
      queues := [(0, q 0 [mkTag true true 2 3]), (1, q 0x4000 [mkTag false false 64 64]), (2, q 0x8000 []), (3, q 0xC000 []),
        (4, { q 0x10000 [] with fmt := .fp32 })] })] }

/-- Q-slot operations issue: what QueueMoves, QueueCounts and LongWordFrame assume. -/
theorem witness_QueueMoves : ([.qmov 0 2, .qdup 0 2 3, .qdrop 1, .tpush 2 1 63 0, .tpop 0 1 4, .tpop 1 1 0, .qlive 1 2, .qlive 0 0,
    .qlive 1 0] : List QSlot).all (fun x => issues queued { lw with q := some x } task) = true := by
  decide +kernel

/-- BIND issues for a queue end, by itself and with a place, and for kind UNBOUND: what BindTakesTheEnd assumes. -/
theorem witness_BindTakesTheEnd : ([.bind 31 0 1 63 0 0, .bind 0 15 0 0 0 0, .bind 5 1 1 0 0 1] : List QSlot).all
    (fun x => issues { queued with cores := [(0, { running with sregs := [(1, 0x10000)] })] } { lw with q := some x } task) = true := by
  decide +kernel

/-- V-slot operations issue: what VectorPushes assumes. -/
theorem witness_VectorPushes :
    (([.vadd, .vsub, .vmul, .vmax, .vmin, .vsubr, .vmulr] : List VOp).all fun op =>
      issues queued { lw with v := some ⟨op, 2, 0, 1, 0, false, true, 0, false⟩ } task) = true ∧
    issues queued { lw with v := some ⟨.vfmas, 2, 0, 0, 1, true, true, 2, true⟩ } task = true ∧
    (([.vadds, .vmuls, .vcausal] : List VOp).all fun op =>
      issues queued { lw with v := some ⟨op, 4, 1, 0, 2, true, false, 1, false⟩ } task) = true ∧
    (([.vrmax, .vrsum, .vcvt, .vexp, .vrcp, .vrsq, .vgelu, .vsilu, .vrelu] : List VOp).all fun op =>
      issues queued { lw with v := some ⟨op, 3, 0, 0, 0, false, false, 0, false⟩ } task) = true := by
  decide +kernel

/-- M-slot operations issue: what MatrixBanks assumes. -/
theorem witness_MatrixBanks : ([⟨.mzero, 0, 0, 0, 3, false, false, false, 0, false⟩,
    ⟨.mdrain, 0, 0, 2, 0, false, false, true, 2, true⟩, ⟨.mlda, 1, 0, 0, 1, true, false, false, 0, false⟩,
    ⟨.mtr, 0, 0, 3, 0, false, false, false, 0, false⟩, ⟨.mmac, 0, 1, 0, 2, true, false, true, 0, false⟩] : List MSlot).all
    (fun x => issues queued { lw with m := some x } task) = true := by
  decide +kernel

/-- T-slot commands issue, with a parameter block at the last place in data memory: what TowerCommandQueued assumes. -/
theorem witness_TowerCommandQueued :
    (([.tappend, .tcommit, .tdiscard, .tflushkv, .tfill, .tcopy, .txform, .tscrub] : List TCmd).all fun c =>
      issues queued { lw with t := some ⟨c, 5, 0, false, ⟨true, 7⟩⟩ } task) = true ∧
    (([.tattn, .tgemv, .treduce] : List TCmd).all fun c =>
      issues { queued with cores := [(0, { running with queues := [(31, { kind := .towerReturn, bySeq := false })] })] }
        { lw with t := some ⟨c, 2, 31, true, ⟨false, 0⟩⟩ } task) = true := by
  decide +kernel

/-- Core 0 with s4 and s5 naming scratch address 0x2000_0000_0000, s6 and s7 address 0, s10 = 256. -/
def far : State := { one with cores := [(0, { running with sregs := [(5, 0x2000), (10, 256)] })] }

/-- D-slot operations issue, at both sizes and at the ends of their fields: what DSlotStarts assumes. -/
theorem witness_DSlotStarts : ([.fld true 8 4, .fld false 31 6, .fst true 8 4 true 4095, .fst false 0 6 false 0,
    .atom true 4 4 8 4 12, .atom false 0 0 9 6 1, .fence ⟨true, 7⟩ 4, .fence ⟨false, 0⟩ 0, .semacq ⟨true, 0⟩ 1 4095,
    .semrel ⟨true, 1⟩ 4 0, .cntwait ⟨true, 2⟩ 30 4095, .dmak ⟨true, 3⟩ 4 14, .tflush ⟨true, 4⟩ 6 10, .tinval ⟨false, 0⟩ 6 0,
    .lcfg ⟨true, 5⟩ 4] : List DSlot).all (fun x => issues far { lw with d := some x } task) = true ∧
    (far.core 0).addr 4 = some 0x200000000000 ∧ (far.core 0).addr 6 = some 0 := by
  decide +kernel

/-- An INT8 tensor of 8 elements in scratch. -/
def line (base : Nat) : TensorDesc :=
  { ndim := 1, clamp := 0, layout := 0, fmt := .int8, base := base, gen := 0, index := 0, ext := [8, 1, 1, 1, 1],
    strides := [1, 8, 8, 8, 8], scale := 0x3F800000 }

/-- A sequencer with a loaded layer of one output tile. -/
def layer : LayerSeq := { loaded := true, lcb := [(3, 1), (4, 64), (5, 64), (6, 64), (7, 1)] }

/-- START issues with a loaded layer whose slice has work, and with none: what StartRunsASlice assumes. -/
theorem witness_StartRunsASlice :
    issues one { lw with d := some (.start 0) } task = true ∧ (one.core 0).seq.loaded = false ∧
    (let s := { one with cores := [(0, { running with seq := layer })] }
     issues s { lw with d := some (.start 0) } task = true ∧ layer.loaded = true ∧ 0 < layer.splitCount ∧
       (layer.ranges 0).1.1 < (layer.ranges 0).1.2 ∧ (layer.ranges 0).2.1.1 < (layer.ranges 0).2.1.2 ∧
       (layer.ranges 0).2.2.1 < (layer.ranges 0).2.2.2) := by
  decide +kernel

/-- Core 0 with one operation in flight. -/
def flying (x : InFlight) : State := { one with cores := [(0, { running with inflight := [x] })] }

/-- FarAccessesComplete: FLD, FST and ATOM of scratch in flight, an FLD behind a write to another word, and answers to a remote FLD
and a remote FST. -/
theorem witness_FarAccessesComplete :
    (let other : InFlight := ⟨.fst 8 0x200000000020 9 none none, none, .started, 0⟩
     let s := { one with cores := [(0, { running with inflight := [other, ⟨.fld 8 8 0x200000000000 none, none, .started, 0⟩] })] }
     (s.flying 0 1).isSome = true ∧ s.meets 0 0x200000000000 8 other = false ∧
       (s.core 0).tileBefore 0 0x200000000000 8 = false ∧
       (let r := (s.readRun (.core 0) 0 0x200000000000 8).2
        r.refused = false ∧ r.found = false ∧ r.poison = [])) ∧
    (let x : InFlight := ⟨.fld 4 31 0x500000000000 (some 3), none, .value 7, 0⟩
     ((flying x).flying 0 0).isSome = true ∧ (flying x).meets 0 0x500000000000 4 x = false) ∧
    (let s := flying ⟨.fst 8 0x200000000000 9 (some 4095) none, none, .started, 0⟩
     (s.flying 0 0).isSome = true ∧ (s.core 0).tileBefore 0 0x200000000000 8 = false ∧
       (s.writeRun (.core 0) 0 0x200000000000 (leBytes 8 9) [] false).2 = true) ∧
    ((flying ⟨.fst 8 0x500000000000 9 none (some 3), none, .finished, 0⟩).flying 0 0).isSome = true ∧
    (let s := flying ⟨.atom ⟨8, 4, 0, 1⟩ 4 8 0x200000000000 none, none, .started, 0⟩
     (s.flying 0 0).isSome = true ∧ (s.core 0).tileBefore 0 0x200000000000 8 = false ∧
       (match (s.atomicAt (.core 0) 0 0x200000000000 ⟨8, 4, 0, 1⟩).2 with
        | .ok v => decide (v = 0)
        | .error _ => false) = true) ∧
    ((flying ⟨.atom ⟨4, 0, 1, 0⟩ 0 9 0x200000000000 none, none, .value 5, 0⟩).flying 0 0).isSome = true := by
  decide +kernel

/-- FlaggedOperationsComplete: each operation in flight with flag 7, two of them behind a write, a counter at its value and below
it, semaphores of both modes, and a wait on flags. -/
theorem witness_FlaggedOperationsComplete :
    (let s := flying ⟨.fence 4 [], some 7, .started, 0⟩
     (s.flying 0 0).isSome = true ∧ (s.core 0).released 0 4 [] = true) ∧
    (([(0x40000000, true), (65534, false)] : List (Word × Bool)).all fun v =>
      let s := { flying ⟨.semrel 4095 4 [], some 7, .started, 0⟩ with parts := [(0, { state := .enabled, sems := [(4095, v.1)] })] }
      (s.flying 0 0).isSome && (s.core 0).released 0 4 [] && decide (semLock (s.sem 0 4095) = v.2) &&
        decide (semHolder (s.sem 0 4095) = 0) && decide (semValue (s.sem 0 4095) < 65535)) = true ∧
    (([0, 1] : List Nat).all fun v => ((flying ⟨.cntwait 4095 v, some 7, .started, 0⟩).flying 0 0).isSome) = true ∧
    (up.counter 0 4095).toNat = 0 ∧
    ((flying ⟨.tflush 0 256, some 7, .started, 0⟩).flying 0 0).isSome = true ∧
    ((flying ⟨.tinval 0 256, some 7, .started, 0⟩).flying 0 0).isSome = true ∧
    (let s := flying ⟨.lcfg 0, some 7, .started, 0⟩
     (s.flying 0 0).isSome = true ∧ (s.core 0).inflight.findIdx? isLcfg = some 0 ∧ (s.core 0).seq.run = none) ∧
    (let early : InFlight := ⟨.fst 8 0x500000000000 9 none (some 3), none, .started, 0⟩
     ([⟨.fence 4 [], some 7, .started, 0⟩, ⟨.semrel 4095 4 [], some 7, .started, 0⟩] : List InFlight).all (fun x =>
       let s := { one with cores := [(0, { running with inflight := [early, x] })] }
       (s.flying 0 1).isSome && !(s.core 0).released 1 4 []) = true) ∧
    ({ one with cores := [(0, { running with stall := some .flags })] }.core 0).stall = some .flags := by
  decide +kernel

/-- Partition 0 with a core that waits for semaphore 5, whose word is `w`. -/
def waits (w : Word) : State :=
  { flying ⟨.semacq 5 4, some 0, .started, 0⟩ with parts := [(0, { state := .enabled, sems := [(5, w)], semWait := [(5, 0)] })] }

/-- SemaphoreGranted: a free LOCK semaphore, and a COUNT semaphore with its highest value. -/
theorem witness_SemaphoreGranted : ([2 ^ 30 + 1, 65535] : List Nat).all (fun v =>
    let s := waits (BitVec.ofNat 32 v)
    s.runs && decide (s.firstWait 0 5 = some (5, 0)) && decide ((s.core 0).task = some task) && semFree (s.sem 0 5) &&
      decide ((s.core 0).inflight.findIdx? (fun x => match x.op with
        | .semacq n _ => decide (n = 5)
        | _ => false) = some 0) &&
      decide ((s.core 0).inflight[0]? = some ⟨.semacq 5 4, some 0, .started, 0⟩)) = true := by
  decide +kernel

/-- QueueTimeoutTraps: a core with a handler that waits on a queue end, and one whose CTIMEOUT is 0. -/
theorem witness_QueueTimeoutTraps : ([1, 0] : List Word).all (fun n =>
    let s := { one with cores := [(0, { running with trapVec := 64, ctimeout := n, stall := some (.queue [3] 2 3) })] }
    s.runs && !(s.core 0).halted && decide ((s.core 0).stall = some (.queue [3] 2 3)) && !(s.core 0).trapMode &&
      decide ((s.core 0).trapVec ≠ 0)) = true := by
  decide +kernel

/-- A RUN command in progress whose one task is still to be placed. -/
def run : RunCmd := { cls := 0, irq := false, modelEn := false, hot := false, model := 0, ntasks := 1, argLen := 0, codeBase := 0,
                      entry := 16, tag := 0, args := 0, record := 0 }

/-! ## Flows, slices, tasks -/

/-- FlowsMoveTiles: a CUPOLA_IN flow with a tile to come, a CUPOLA_OUT flow with a tile held, before which the core has written to
another word, and a NEIGHBOUR_OUT end whose neighbour has room. -/
theorem witness_FlowsMoveTiles :
    (let early : InFlight := ⟨.fst 8 0x200000001000 9 none none, none, .started, 0⟩
     let s := { one with cores := [
      (0, { running with inflight := [early], queues := [
        (0, { kind := .cupolaIn, fmt := .int4, flowBase := 0x200000000000, flowStride := 2048, flowCount := 1 }),
        (31, { kind := .cupolaOut, fmt := .int4, base := 4096, flowBase := 0x200000000000, flowCount := 1, tags := [0], stamps := [1] }),
        (5, { kind := .neighbourOut, fmt := .int4, base := 8192, peer := 1, remote := 7, tags := [9] })] }),
      (1, { running with queues := [(7, { kind := .neighbourIn, fmt := .int4, peer := 0 })] })] }
     let q (n : Nat) : Queue := (s.core 0).queue n
     s.runs = true ∧ (s.core 0).task = some task ∧
     (q 0).kind = .cupolaIn ∧ (q 0).room = true ∧ (q 0).flowDone < (q 0).flowCount ∧
     (q 31).kind = .cupolaOut ∧ (q 31).count ≠ 0 ∧
     (s.core 0).tileBefore ((q 31).stamps.headD 0) ((q 31).flowBase + (q 31).flowWritten * (q 31).flowStride) 2048 = false ∧
     early.stamp ≤ (q 31).stamps.headD 0 ∧
     s.meets 0 ((q 31).flowBase + (q 31).flowWritten * (q 31).flowStride) 2048 early = false ∧
     (q 5).kind = .neighbourOut ∧ (q 5).count ≠ 0 ∧ s.neighbourReady 0 (q 5) = true ∧ (q 5).peer ≠ 0) := by
  decide +kernel

/-- SlicesAndTasksEnd: a slice with nothing left, one with a tile to run, a trap of the sequencer that waits, and a task that
has ended of a command in progress. -/
theorem witness_SlicesAndTasksEnd :
    (let r : SliceRun := { hi := 64, tiles := [], groups := [] }
     let s := { one with cores := [(0, { running with seq := { layer with run := some r } })] }
     s.runs = true ∧ (s.core 0).task = some task ∧ (s.core 0).seq.run = some r ∧ r.tiles = [] ∧ r.groups = [] ∧ r.issued = []) ∧
    (let r : SliceRun := { hi := 64, tiles := [(0, 0, 0)], groups := [] }
     let d := line 0x200000000000
     let x : InFlight := ⟨.fence 4 [], some 7, .started, 0⟩
     let s := { one with cores := [(0, { running with inflight := [x], seq := { layer with run := some r, aDesc := some d, cDesc := some d } })] }
     (s.core 0).task = some task ∧ (s.core 0).seq.run = some r ∧ r.tiles = (0, 0, 0) :: [] ∧ (s.core 0).seq.trap = none ∧
       (s.core 0).halted = false ∧ s.aclkRuns 0 = true ∧ (s.core 0).seq.merged r 0 0 0 = true ∧ x.due = none ∧
       (s.core 0).seq.aDesc.isSome = true ∧ (s.core 0).seq.cDesc.isSome = true ∧ r.status = .ok) ∧
    (let s := { one with cores := [(0, { running with trapVec := 32, seq := { layer with trap := some (some 0xFFFFFFFFFFFF) } })] }
     s.runs = true ∧ (s.core 0).task = some task ∧ (s.core 0).seq.trap = some (some 0xFFFFFFFFFFFF) ∧ (s.core 0).halted = false ∧
       s.aclkRuns 0 = true ∧ (s.core 0).trapMode = false ∧ (s.core 0).trapVec ≠ 0) ∧
    (let s := { one with
      cores := [(0, { running with ending := true })]
      parts := [(0, { state := .enabled, jobs := [(0, { state := .resident, cmd := some run })] })] }
     s.runs = true ∧ (s.core 0).task = some task ∧ s.taskDone 0 = true ∧ (s.job 0 0).cmd = some run) := by
  decide +kernel

/-! ## Tower commands -/

/-- A TSCRUB of core 0 that names row 0 of bank 0. -/
def scrub : TowerCmd :=
  { cmd := .tscrub, core := 0, part := 0, job := 0, flag := some 7
    params := leBytes 4 1000 ++ List.replicate 20 0 ++ leBytes 8 1 ++ leBytes 8 1 ++ List.replicate 24 0 }

/-- What its check works out. -/
def check : CmdCheck := { descs := [], banks := [0], work := 1 }

/-- Core 0 runs, with a tower 0 of partition 0. -/
def tower (t : Tower) : State :=
  { one with towers := [(0, { t with owner := 0, frames := [(0, { valid := true, init := true })] })] }

/-- TowerCommandsStart: a command at the head that passes its check beside one that works, and one that may start while three work
and five return buffers are taken. -/
theorem witness_TowerCommandsStart :
    (let s := { tower { queue := [scrub], running := [{ cmd := { scrub with cmd := .tgemv } }] } with
       groups := [(0, { pstate := .g0, purse := 1 })] }
     (s.tower 0).queue = scrub :: [] ∧ s.keepRuns 0 = true ∧ scrub.checked = none ∧ namesSeq TCmd.tgemv = false ∧
       (match (s.checkCmd 0 scrub).2 with
        | .ok k => decide (firstInstalment scrub k ≤ ((s.checkCmd 0 scrub).1.group 0).purse)
        | .error _ => false) = true) ∧
    (let c := { scrub with checked := some check, paid := true, retEn := true }
     let other : Running := { cmd := { scrub with retEn := true, checked := some { check with banks := [1] } } }
     let ended : Running := { other with working := false, tiles := [⟨1, 64, false, true, []⟩] }
     let s := tower { queue := [c], running := [other, other, other, ended, ended] }
     (s.tower 0).queue = c :: [] ∧ s.keepRuns 0 = true ∧ c.checked = some check ∧ c.paid = true ∧
       ((s.tower 0).running.filter fun r => r.working).length = 3 ∧ conflicts c check other = false ∧
       ((s.tower 0).running.filter Running.buffered).length = 5 ∧ s.regBit (towerBase 0 + Off.tseqCtl) 0 = false) := by
  decide +kernel

/-- TowerCommandsReturn: a command with a tile to return to an end with room, one with none left, and a TFILL that works. -/
theorem witness_TowerCommandsReturn :
    (let c : TowerCmd := { scrub with cmd := .tgemv, retEn := true, qret := 31 }
     let r : Running := { cmd := c, working := false, tiles := [⟨1, 64, false, true, []⟩] }
     let s := { tower { running := [r] } with
       cores := [(0, { running with queues := [(31, { kind := .towerReturn })] })]
       parts := [(0, { state := .enabled, jobs := [(0, { state := .resident })] })] }
     (s.tower 0).running[0]? = some r ∧ s.keepRuns 0 = true ∧ (s.tower 0).returnsNext c = true ∧ s.holdsTask 0 0 0 = true ∧
       ((s.core 0).queue 31).kind = .towerReturn ∧ ((s.core 0).queue 31).room = true ∧ c.bySeq = none) ∧
    (([{ cmd := scrub, working := false }, { cmd := { scrub with cmd := .tfill, checked := some check }, counted := 1000 }] :
      List Running).all fun r =>
      let s := tower { running := [r] }
      decide ((s.tower 0).running[0]? = some r) && s.keepRuns 0 && decide (r.tiles = []) && !r.silent && !r.dropTiles &&
        decide ((s.job 0 0).saved = []) && decide (r.cmd.record = 0) && decide (r.counted ≤ r.cmd.bound) && !r.cmd.retEn &&
        decide ((s.tower 0).doneCount.toNat < 2 ^ 32 - 1)) = true := by
  decide +kernel

/-- TowerWatchdogAndRegisters: a command that works one cycle past its BOUND whose core has gone, and one whose core holds its task,
and the registers of tower 0 within reach. -/
theorem witness_TowerWatchdogAndRegisters :
    (let r : Running := { cmd := { scrub with core := 287, job := 63 }, counted := 1001 }
     let s := tower { running := [r] }
     (s.tower 0).running[0]? = some r ∧ s.keepRuns 0 = true ∧ r.working = true ∧ r.cmd.bound = 1000 ∧
       r.cmd.core < 288 ∧ s.holdsTask 0 63 287 = false) ∧
    (let r : Running := { cmd := scrub, counted := 1001 }
     let s := tower { running := [r] }
     (s.tower 0).running[0]? = some r ∧ s.keepRuns 0 = true ∧ s.holdsTask 0 0 0 = true ∧ (s.job 0 0).state ≠ .killing) ∧
    ([true, false].all fun en =>
      let c := { scrub with retEn := en }
      let s := tower { queue := [c] }
      s.takes .pf (towerBase 0 + Off.tseqCtl) && s.keepRuns 0 && decide ((s.tower 0).queue = [c]) && decide (c.record = 0) &&
        s.cores.all fun k => decide (k.2.seq.run = none)) = true ∧
    up.takes .pf (towerBase 11 + Off.tseqBusyLo) = true := by
  decide +kernel

/-! ## Tower memory and registers -/

/-- TowerWordsWritten: a write of word 0 that is admitted, and a narrow write of a word that reads clean or poisoned. -/
theorem witness_TowerWordsWritten :
    up.runs = true ∧ (up.admitAccess (agentOf 0) (up.owner 0) (bankedAddr 0 0) (bankedDecode 0 0) true false).2 = true ∧
    (let s := tower { ram := { bytes := [(31, 1)], marks := [(0, some (.good 0))] } }
     let p := (s.admitAccess (agentOf 0) (s.owner 0) (bankedAddr 0 0) (bankedDecode 0 0) true false)
     p.2 = true ∧ (p.1.readTower (bankedDecode 0 0) .none).2.kind = .clean) ∧
    (let s := tower { ram := { marks := [(0, some (.poison 0))] } }
     let p := (s.admitAccess (agentOf 0) (s.owner 0) (bankedAddr 0 0) (bankedDecode 0 0) true false)
     p.2 = true ∧ (p.1.readTower (bankedDecode 0 0) .none).2.kind = .stored) := by
  decide +kernel

/-- InvalidFrameRefuses: the last word of tower 0, whose frame is not valid. -/
theorem witness_InvalidFrameRefuses : up.runs = true ∧ (up.group 0).pstate = .g0 ∧ (up.group 0).outOfService = false ∧
    ((up.tower 0).frameOf (bankedDecode 0 (32 * (2 ^ 32 - 1)))).valid = false ∧ up.landing.records = [] ∧
    up.landing.waiting = [] := by
  decide +kernel

/-- TowerRegistersWritten: the tower block within reach, an entry that is not migrating, a tower that can be sanitised and one
that cannot, and masks of two and of three floors. -/
theorem witness_TowerRegistersWritten :
    up.takes .pf (towerBase 0 + Off.frameTable + 4 * 32767) = true ∧ (mget {} (up.tower 0).frames 65534).migrating = false ∧
    up.takes .pf (towerBase 0 + Off.twrCtl) = true ∧ up.canSanitise 0 = false ∧
    { up with parts := [], towers := [] }.canSanitise 0 = true ∧
    { up with parts := [], towers := [] }.takes .pf (towerBase 0 + Off.twrCtl) = true ∧
    up.takes .pf (towerBase 0 + Off.twrPin) = true ∧ popCount16 0x8001 ≤ 2 ∧ popCount16 0x8003 > 2 := by
  decide +kernel

/-- TowersCleanedAndMoved: a sanitise that runs, a migration that may start and one that runs. -/
theorem witness_TowersCleanedAndMoved :
    ((tower { sanitiseBusy := true }).runs = true ∧ ((tower { sanitiseBusy := true }).tower 0).sanitiseBusy = true) ∧
    (up.takes .pf (towerBase 0 + Off.twrMigrate) = true ∧ (up.tower 0).migration = none ∧ (up.tower 0).evac = none ∧
      (mget {} (up.tower 0).frames 0).valid = true ∧ bandTaken (up.tower 0) 0 63 = false) ∧
    ((tower { migration := some ⟨0, 63⟩ }).runs = true ∧
      ((tower { migration := some ⟨0, 63⟩ }).tower 0).migration = some ⟨0, 63⟩) := by
  decide +kernel

/-- KeepEvents: a column that is copied, readings at the two edges of HOT, and the row before the last to scrub. -/
theorem witness_KeepEvents :
    up.runs = true ∧ ((tower { colBusy := [⟨16, 63, 0, 63⟩] }).tower 0).colBusy.contains ⟨16, 63, 0, 63⟩ = true ∧
    up.dark 0 = false ∧
    (let s := { tower { scrubPos := 0 } with regs := (towerBase 0 + Off.twrScrubRate, 1) :: up.regs }
     (s.group 0).pstate = .g0 ∧ (s.group 0).outOfService = false ∧ (s.tower 0).sanitiseBusy = false ∧
       s.regField (towerBase 0 + Off.twrScrubRate) 0 16 ≠ 0 ∧ nextScrub (s.tower 0) = some (0, false) ∧ 0 + 1 < towerRows) ∧
    (let p := up.accessTower 0 0 0 .read (.unit 5 false)
     (p.landing.records.all fun r => decide (r.code ≠ .keepSramCe)) = true ∧
       p.landing.records.length + p.landing.waiting.length < 256) := by
  decide +kernel

/-! ## Cupolas, host accesses, counters -/

/-- CupolaAndRatios: a granule that may change and one that may not, a change that runs, a scratch word, and a ratio that the
group wants, between commands and with a task. -/
theorem witness_CupolaAndRatios :
    (let s := up.setReg (partBase 1 + Off.pctl) 0x800
     s.takes .pf (Off.cupGran + 4 * 63) = true ∧ (s.granule 63).scratch ≠ (0x80000001 : Word).getLsbD 31 ∧
       s.granuleOk 63 true 1 = true ∧ (s.granule 0).scratch ≠ (0 : Word).getLsbD 31 ∧ s.granuleOk 0 false 0 = false) ∧
    (let s := { up with granules := [(63, { busy := true, next := some (true, 11) })] }
     s.runs = true ∧ (s.granule 63).next = some (true, 11)) ∧
    (up.runs = true ∧ (up.granule 0).scratch = true ∧ (up.granule 0).busy = false ∧ (List.replicate 32 (7 : Byte)).length = 32) ∧
    (let s := one.setReg (govBase + Off.govGrpCfg) 32
     s.runs = true ∧ (1 : BitVec 2) ≠ 3 ∧ (s.group 0).ratioNext = none ∧ (s.group 0).ratio ≠ 1 ∧ s.wantsRatio 0 1 = true) ∧
    (([(up, true), (one, false)] : List (State × Bool)).all fun x =>
      let s := { x.1 with groups := [(0, { pstate := .g0, ratioNext := some 2 })] }
      s.runs && decide ((s.group 0).ratioNext = some (2 : BitVec 2).toNat) && decide (s.betweenCommands 0 = x.2)) = true := by
  decide +kernel

/-- HostAccesses: the registers of partition 0 within reach, a LOCK value, an aperture on and off, a read of a word that is clean and
of one that is refused, and a port too narrow for BAR2. -/
theorem witness_HostAccesses :
    up.takes .pf (partBase 0 + Off.cntAdd) = true ∧ up.takes .pf (partBase 0 + Off.sem + 4 * 4095) = true ∧
    (0x40000002 : Word).toNat / 2 ^ 30 = 1 ∧ up.takes .pf Off.gfeatSel = true ∧ up.bar2 .pf = true ∧
    2 ^ 32 - 32 + 32 ≤ up.bar2Size .pf ∧
    (let tw : Tower := { owner := 0, frames := [(0, { valid := true, init := true })], ram := { marks := [(0, some (.good 0))] } }
     let s := { up with towers := [(0, tw)] }.setReg Off.gaptCtl (2 ^ 31)
     let x := s.aperture .pf 0
     s.bar2 .pf = true ∧ s.reachesTower x.1 x.2.1 x.2.2 = true ∧ x.2.1 % 32 + 32 ≤ 32 ∧
       (match (s.readWord .host x.1 x.2.1).2 with | some w => decide (w.kind = .clean) | none => false) = true) ∧
    (let s := up.setReg Off.gaptCtl (2 ^ 31)
     let x := s.aperture .pf (2 ^ 32 - 32)
     s.reachesTower x.1 x.2.1 x.2.2 = true ∧ (s.readWord .host x.1 x.2.1).2 = none) ∧
    (let x := up.aperture .pf 0
     up.reachesTower x.1 x.2.1 x.2.2 = false ∧ up.landing.records = [] ∧ up.landing.waiting = []) ∧
    (let s := { up with port := { up.port with width := 4 } }
     s.portUp = true ∧ s.bar2 .pf = false) := by
  decide +kernel

/-! ## Jobs -/

/-- Partition 0 with job 0 in a state. -/
def job (j : Job) : State := { one with parts := [(0, { state := .enabled, jobs := [(0, j)] })] }

/-- JobRegisters: jobs DISABLED with and without a valid configuration, IDLE, RESIDENT and FAULTED, and one whose tail moves past its
head by the whole ring and by one more. -/
theorem witness_JobRegisters :
    up.takes .pf (jobBase 0 0 + Off.pjobCtl) = true ∧ up.takes .pf (jobBase 11 63 + Off.pjobCtl) = true ∧
    (0x20000 : Word).getLsbD 17 = true ∧ (up.job 0 0).state = .disabled ∧ up.jobCfgOk 0 0 = false ∧
    (let s := (up.setReg (jobBase 0 0 + Off.pjobCores0) 2).setReg (jobBase 0 0 + Off.pringBaseLo) 4
     let s := { s with cores := [(1, { phys := some 1 })] }
     (s.job 0 0).state = .disabled ∧ s.jobCfgOk 0 0 = true) ∧
    ((job { state := .idle }).job 0 0).state = .idle ∧
    ((job { state := .resident }).job 0 0).state ≠ .disabled ∧ ((job { state := .faulted }).job 0 0).state = .faulted ∧
    (job { state := .resident }).pendingEntries 0 0 = 0 ∧
    (let s := job { state := .idle }
     s.takes .pf (jobBase 0 0 + Off.pringTail) = true ∧ (s.part 0).state = .enabled ∧ (s.job 0 0).state = .idle ∧
       s.pendingEntries 0 0 = 0 ∧ 2 ^ s.ringLog2 0 0 ≠ s.reg (jobBase 0 0 + Off.pringHead) ∧
       (2 ^ s.ringLog2 0 0 + 2 ^ 32 - s.reg (jobBase 0 0 + Off.pringHead)) % 2 ^ 32 ≤ 2 ^ s.ringLog2 0 0 ∧
       2 ^ s.ringLog2 0 0 < (2 ^ s.ringLog2 0 0 + 1 + 2 ^ 32 - s.reg (jobBase 0 0 + Off.pringHead)) % 2 ^ 32 ∧
       s.reg (jobBase 0 0 + Off.pringHead) < 2 ^ 32) := by
  decide +kernel

/-- A job that may place its task on core 1, with a full purse. -/
def placing : State :=
  { job { state := .resident, cmd := some run } with
    cores := [(1, { phys := some 1 })], groups := [(0, { pstate := .g0, purse := 1000000 })] }.setReg
    (jobBase 0 0 + Off.pjobCores0) 2

/-- A RUN entry of one task with no model, IRQ or record whose arguments stand in scratch (Table 09-4). -/
def entry : List Byte := leBytes 64 (2 ^ 24 + 0x200000000100 * 2 ^ 192)

/-- JobCommandsRun: a job with an entry to fetch, one with a task to place and a core free, and one whose tasks have ended. -/
theorem witness_JobCommandsRun :
    (let s := ((job { state := .ready }).setReg (jobBase 0 0 + Off.pringTail) 1).setReg (jobBase 0 0 + Off.pringBaseHi) 0x2000
     let s := { s with scratch := { bytes := Memory.ofBytes 0 entry } }
     (match (s.readEntry 0 0).2 with
      | .ok x => (parseEntry x).ok && decide ((parseEntry x).op = 1) && !(parseEntry x).run.modelEn &&
          (match (((s.readEntry 0 0).1.advanceHead 0 0).readArgs 0 (parseEntry x).run).2 with | .ok _ => true | .error _ => false)
      | .error _ => false) = true ∧
     (s.job 0 0).state = .ready ∧ (s.job 0 0).cmd = none ∧ s.pendingEntries 0 0 ≠ 0 ∧ (s.part 0).ucodeHold = false ∧
       s.working 0 = true) ∧
    ((placing.job 0 0).cmd = some run ∧ (placing.job 0 0).state = .resident ∧ (placing.job 0 0).preempting = false ∧
      (placing.job 0 0).held = false ∧ run.placed < run.ntasks ∧ run.modelEn = false ∧ placing.gov.brakes = [] ∧
      placing.stopped = false ∧ (placing.coreSet 0 0).find? (fun c => placing.coreFree c) = some 1 ∧
      placing.canPlace 0 0 1 = true ∧ placing.placeTurn 0 0 (Config.groupOfCore 1) = true ∧
      (match (placing.readArgs 0 run).2 with | .ok _ => true | .error _ => false) = true) ∧
    (let s := job { state := .resident, cmd := some { run with placed := 1, ended := 1 } }
     (s.job 0 0).cmd = some { run with placed := 1, ended := 1 } ∧ (s.job 0 0).state ≠ .killing ∧ s.stopped = false) := by
  decide +kernel

/-- JobsComeAndGo: a job that may become resident, a slice that ends of a job without contexts and of one that nobody waits for, a
pre-emption with no context left to save, a kill whose window is over, a semaphore whose holder may receive, and loads that did not
and that did end well. -/
theorem witness_JobsComeAndGo :
    (let s := { job { state := .ready } with cores := [(1, { phys := some 1 })] }.setReg (jobBase 0 0 + Off.pjobCores0) 2
     let s := s.setReg (jobBase 0 0 + Off.pringTail) 1
     s.mayReside 0 0 = true ∧ ((s.wakeJob 0 0).loadCores 0 0 (s.job 0 0).saved).2 = none) ∧
    (([(0, false), (4096, true)] : List (Nat × Bool)).all fun x =>
      let s := { job { state := .resident, cmd := some run } with cores := [(1, { phys := some 1, cycles := 600000 })] }.setReg
        (jobBase 0 0 + Off.pjobCores0) 2
      let s := s.setReg (jobBase 0 0 + Off.pjobCtxLo) x.1
      s.runs && decide ((s.job 0 0).state = .resident) && !(s.job 0 0).preempting && decide ((s.job 0 0).donor = none) &&
        !(s.job 0 0).donated && (s.job 0 0).cmd.isSome && decide (s.sliceCycles 0 0 - (s.job 0 0).sliceStart ≥ s.sliceLen 0 0) &&
        decide (s.preemptible 0 0 = x.2) && !s.betterWaits 0 0 && !s.coreWanted 0 0) = true ∧
    (let s := { job { state := .resident, preempting := true } with cores := [(0, { phys := some 0 })] }
     s.runs = true ∧ (s.job 0 0).preempting = true ∧ ((s.taskCores 0 0).all fun c => s.savable c) = true ∧ s.taskCores 0 0 = [] ∧
       s.channelsBusy 0 0 = false ∧ (s.saveCores 0 0 (s.taskCores 0 0)).2 = none) ∧
    (let s := { job { state := .killing, drainStart := 5, drainLen := 2 } with landing := { fclk := 7 } }
     s.runs = true ∧ (s.job 0 0).state = .killing ∧ s.landing.fclk.toNat ≥ (s.job 0 0).drainStart + (s.job 0 0).drainLen) ∧
    (let held : Word := BitVec.ofNat 32 (2 ^ 30 + 63 * 2 ^ 16)
     let jobs : List (Nat × Job) := [(0, { state := .resident }), (63, { state := .preempted })]
     let s := { one with parts := [(0, { state := .enabled, sems := [(9, held)], semWait := [(9, 0)], jobs := jobs })] }
     s.runs = true ∧ (s.job 0 0).state = .resident ∧ (s.job 0 0).preempting = false ∧
       (s.part 0).semWait.any (fun w => decide (w.1 = 9) && s.holdsTask 0 0 w.2) = true ∧ semLock (s.sem 0 9) = true ∧
       semHolder (s.sem 0 9) < 64 ∧ semHolder (s.sem 0 9) ≠ 0 ∧ s.canReceive 0 (semHolder (s.sem 0 9)) = true ∧
       (s.job 0 (semHolder (s.sem 0 9))).donor = none) ∧
    (let s := { job { state := .loading, cmd := some { run with load := 1 } } with engines := [(0, { channels := [(15, { status := .bounds })] })] }
     s.runs = true ∧ (s.job 0 0).state = .loading ∧ (s.job 0 0).cmd = some { run with load := 1 } ∧ s.modelEngine 0 = 0 ∧
       (s.chan (s.modelEngine 0) 15).free = true ∧ (s.chan (s.modelEngine 0) 15).status ≠ .ok) ∧
    (let s := (job { state := .loading, cmd := some { run with load := 1 } }).setReg (partBase 0 + Off.pmodelBaseHi) 0x2000
     s.modelEngine 0 = 0 ∧ (s.chan 0 15).free = true ∧ (s.chan 0 15).status = .ok ∧ run.hot = false ∧
       (match ((s.setModelState 0 run.model 2).readModel 0 run.model).2 with
        | .ok e => e.ok && decide (e.state = 2)
        | .error _ => false) = true) := by
  decide +kernel

/-- JobsComeAndGo: a resident job, with its slice over, that an URGENT rival with better standing waits for. -/
theorem witness_UrgentPreempt :
    (let s := { one with
       cores := [(1, { phys := some 1, cycles := 600000 })]
       parts := [(0, { state := .enabled, jobs := [(0, { state := .resident }), (1, { state := .ready })] })] }
     let s := ((s.setReg (jobBase 0 0 + Off.pjobCores0) 2).setReg (jobBase 0 1 + Off.pjobCores0) 2).setReg (jobBase 0 1 + Off.pringTail) 1
     let s := (s.setReg (jobBase 0 0 + Off.pjobCtxLo) 4096).setReg (jobBase 0 1 + Off.pjobCtl) (2 ^ 16 + 256)
     s.runs = true ∧ s.preemptible 0 0 = true ∧ s.sliceCycles 0 0 - (s.job 0 0).sliceStart ≥ s.sliceLen 0 0 ∧ s.urgent 0 0 = false ∧ (s.job 0 0).donor = none ∧
      (s.job 0 0).donated = false ∧ s.betterWaits 0 0 = true ∧
      jobList.any (fun k => s.rivals 0 0 k && s.isReady 0 k && decide ((s.job 0 k).state ≠ .resident) && s.urgent 0 k) = true) := by
  decide +kernel

/-! ## The governor and the ladder -/

/-- GovernorActs: power good and clocks running, a forced brake, a brake that is the last one, and the last group. -/
theorem witness_GovernorActs :
    (up.runs = true ∧ up.mod.modPg = true) ∧
    ((up.setReg (govBase + Off.govCtl) 1).regBit (govBase + Off.govCtl) 0 = true ∧ .forced ∉ up.gov.brakes) ∧
    ({ up with gov := { brakes := [.supply] } }.gov.brakes = [.supply]) ∧
    (115 ≤ 115 ∧ 127 < 128 ∧ up.regBit (govBase + Off.govStat) 31 = false) ∧
    (11 < up.units ∧ up.takes .pf (govBase + Off.govGrpCfg + 4 * 11) = true) := by
  decide +kernel

/-- A group 3 of no partition in a power state, whose GOV_GRP_CFG holds `cfg`. -/
def ladder (p : PState) (cfg : Nat) : State :=
  { up with groups := [(3, { pstate := p })] }.setReg (govBase + Off.govGrpCfg + 4 * 3) cfg

/-- PowerLadder: each rung down as far as FLOOR lets it, a group that is wanted, and one that comes up from G4. -/
theorem witness_PowerLadder :
    (let s := ladder .g0 1
     s.stopped = false ∧ (s.group 3).pstate = .g0 ∧ 1 ≤ s.ladderFloor 3 ∧ s.groupIdle 3 = true) ∧
    (let s := ladder .g1 2
     (s.group 3).pstate = .g1 ∧ 2 ≤ s.ladderFloor 3 ∧ s.groupIdle 3 = true ∧ s.towerMoves 3 = false) ∧
    (let s := { ladder .g2 8 with parts := [(0, { state := .enabled }), (1, { state := .enabled })] }
     let s := (s.setReg (partBase 1 + Off.pctl) (2 ^ 31 + 8)).setReg (partBase 1 + Off.ppol) (3 * 2 ^ 30)
     (s.group 3).pstate = .g2 ∧ 3 ≤ s.ladderFloor 3 ∧ s.regBit (govBase + Off.govGrpCfg + 4 * 3) 3 = true ∧ s.mayShut 3 = true) ∧
    (let s := ladder .g3 4
     (s.group 3).pstate = .g3 ∧ s.target 3 = 4 ∧ s.mayShut 3 = true) ∧
    (let s := { job { state := .ready } with groups := [(0, { pstate := .g2 })] }.setReg (jobBase 0 0 + Off.pjobCores0) 1
     (s.group 0).pstate = .g2 ∧ s.groupWanted 0 = true) ∧
    (let s := ladder .g4 0
     (s.group 3).pstate = .g4 ∧ s.target 3 = 0 ∧ (s.group 3).outOfService = false ∧ (s.group 3).testing = false ∧ 3 < s.units ∧
       s.ready = true) := by
  decide +kernel

/-! ## Serving -/

/-- Partition 0 with its request table and model table in scratch: request 0 is `e`, model 0 is WARM. -/
def serving (e : Nat) (v : Serving) : State :=
  let s := { one with
    parts := [(0, { state := .enabled, srv := v })]
    scratch := { bytes := Memory.ofBytes 0 (leBytes 128 e ++ [2]) } }
  let s := ((s.setReg (partBase 0 + Off.srvReqBaseHi) 0x2000).setReg (partBase 0 + Off.srvReqCount) 1).setReg
    (partBase 0 + Off.pmodelBaseHi) 0x2000
  (s.setReg (partBase 0 + Off.pmodelBaseLo) 128).setReg (partBase 0 + Off.srvCtl) 1

/-- ServingRegisters: a FREE entry that is accepted and one that is refused, a live request to cancel during a step and one that
holds nothing, a DONE entry to release, and SRV_CTL within reach, with bases that allow serving to start. -/
theorem witness_ServingRegisters :
    (let s := serving (2 ^ 608) {}
     let q := (s.servePools 0).readReq 0 0
     s.takes .pf (partBase 0 + Off.srvSubmit) = true ∧ s.serves 0 = true ∧ s.working 0 = true ∧ 0 < s.reqCount 0 ∧
       q.2 = some (2 ^ 608) ∧ reqState (2 ^ 608) = 0 ∧ (q.1.srvReq 0 0).isNone = true ∧ (q.1.submitOk 0 (2 ^ 608)).2 = true) ∧
    (let s := serving 0 {}
     let q := (s.servePools 0).readReq 0 0
     s.serves 0 = true ∧ 0 < s.reqCount 0 ∧ q.2 = some 0 ∧ (q.1.srvReq 0 0).isNone = true ∧ (q.1.submitOk 0 0).2 = false) ∧
    (let s := serving 3 { reqs := [{ req := 0, target := 0 }], step := some ⟨0, [0], 1⟩ }
     s.takes .pf (partBase 0 + Off.srvCancel) = true ∧ s.working 0 = true ∧ (s.srvReq 0 0).isSome = true ∧
       (s.bare 0 0).2 = false ∧ (s.part 0).srv.step.isSome = true) ∧
    (let s := serving 1 { reqs := [{ req := 0, target := 0 }] }
     s.takes .pf (partBase 0 + Off.srvCancel) = true ∧ s.working 0 = true ∧ (s.srvReq 0 0).isSome = true ∧ (s.bare 0 0).2 = true) ∧
    (let s := serving 5 {}
     s.takes .pf (partBase 0 + Off.srvRelease) = true ∧ 0 < s.reqCount 0 ∧ s.stopped = false ∧ (s.readReq 0 0).2 = some 5 ∧
       reqState 5 = 5) ∧
    (up.takes .pf (partBase 0 + Off.srvCtl) = true ∧ (0xFFFF0000 : Word).getLsbD 0 = false ∧ (0xFFFF0000 : Word).getLsbD 3 = false) ∧
    (let s := ((serving 0 {}).setReg (partBase 0 + Off.srvStepBaseHi) 0x2000).setReg (partBase 0 + Off.srvCtl) 0
     let q := (s.setRegField (partBase 0 + Off.srvCtl) 16 16 0xFFFF).setRegField (partBase 0 + Off.srvCtl) 4 12 0xFFF
     s.takes .pf (partBase 0 + Off.srvCtl) = true ∧ s.stopped = false ∧ (0xFFFFFFF1 : Word).getLsbD 0 = true ∧
       (0xFFFFFFF1 : Word).getLsbD 3 = false ∧ s.serves 0 = false ∧ (q.srvBasesOk 0 && !q.rivalBlocked 0 63) = true) := by
  decide +kernel

/-- An entry in GENERATE whose ring has room for a step. -/
def generating : Nat := 2 ^ 608 + 4 * 2 ^ 368 + 3

/-- ServingSteps: a request that is ready, a step and a chunk whose commands are over, and a held LAST entry with room. -/
theorem witness_ServingSteps :
    (let s := serving generating { reqs := [{ req := 0, target := 0 }] }
     let q := ((s.servePools 0).evictAt 0 0).stepReady 0 0
     s.working 0 = true ∧ s.serves 0 = true ∧ (s.part 0).ucodeHold = false ∧ ((s.servePools 0).part 0).srv.step = none ∧
       q.2 ≠ [] ∧ q.1.ringTakes 0 (q.1.genRing 0) = true) ∧
    (let s := serving generating { reqs := [{ req := 0, target := 0 }], step := some ⟨0, [0], 0⟩, chunks := [⟨0, 0, 1, 0, false⟩] }
     s.runs = true ∧ (s.part 0).srv.step = some ⟨0, [0], 0⟩ ∧ s.entryOver 0 (s.genRing 0) 0 = true ∧
       (s.part 0).srv.chunks.find? (fun c => decide (c.req = 0)) = some ⟨0, 0, 1, 0, false⟩ ∧
       s.entryOver 0 (s.promptRing 0) 0 = true ∧
       (let q := (s.servePools 0).readReq 0 0
        let r := (q.1.noteStep 0 0 generating (q.1.promptRing 0) 0).readStep 0 0 generating
        q.2 = some generating ∧ r.1.chunkRows 0 ⟨0, 0, 1, 0, false⟩ generating r.2 ≤ ringRoom generating)) ∧
    (let s := serving generating { held := [⟨0, .ok, 0⟩] }
     s.working 0 = true ∧ (s.part 0).srv.held.find? (fun h => decide (h.req = 0)) = some ⟨0, .ok, 0⟩ ∧
       (s.readReq 0 0).2 = some generating ∧ 1 ≤ ringRoom generating) := by
  decide +kernel

/-! ## DMA -/

/-- Engine 0 with channel 3 as given, which the engine holds where `busy`. -/
def engine (busy : Bool) (c : Channel) : State :=
  { one with engines := [(0, { busy := if busy then some 3 else none, channels := [(3, { c with part := 0 })] })] }

/-- A descriptor of 64 bytes from scratch to scratch. -/
def desc : DmaDesc :=
  { next := 0, srcWrap := 0, src := 0x200000000000, dstWrap := 0, dst := 0x200000000100, len := 64, cls := 0, irq := false,
    counter := 0, cntEn := false, swap := 0, elem := 0, slot := 0, code := 0, mode := 0, tag := 0, record := 0, aux0 := 0, aux1 := 0 }

/-- DmaRegisters: a free channel, one that runs and ones that wait, and the host engines' kick. -/
theorem witness_DmaRegisters :
    (up.channelExists 0 15 = true ∧ up.takes .pf (chanReg 0 15 Off.chKick) = true ∧ (up.chan 0 15).free = true ∧
      up.channelJob 0 15 = none ∧ up.chanPart 0 15 = 0 ∧ 0 < up.units ∧ (up.part 0).state = .enabled) ∧
    (let s := engine true { state := .running }
     s.channelExists 0 3 = true ∧ s.takes .pf (chanReg 0 3 Off.chKick) = true ∧ (s.chan 0 3).free = false) ∧
    (let s := up.setReg (chanReg 13 14 Off.chOwner) 0
     s.channelExists 13 14 = true ∧ s.takes .pf (partBase 0 + Off.phdmaKick) = true ∧ (s.part 0).state = .enabled ∧ 14 < 15 ∧
       s.chanPart 13 14 = 0 ∧ (s.chan 13 14).free = true) ∧
    (let s := engine false { state := .paused }
     s.takes .pf (chanReg 0 3 Off.chCtl) = true ∧ (s.chan 0 3).state = .paused) := by
  decide +kernel

/-- DmaEngineWorks: a channel to take up, a descriptor that is given and one that cannot be read, a unit that moves, a rate gap,
and the end of the last transfer. -/
theorem witness_DmaEngineWorks :
    (let s := engine false { state := .running, chain := 64 }
     s.engineRuns 0 = true ∧ (s.engine 0).busy = none ∧ s.nextChannel 0 = some 3) ∧
    (let s := engine true { state := .running, given := some desc }
     (s.engine 0).busy = some 3 ∧ (s.chan 0 3).desc = none ∧ (s.chan 0 3).abort = none ∧ (s.chan 0 3).given = some desc) ∧
    (let s := engine true { state := .running, chain := 0xFFFFFFFFFFC0 }
     (s.engine 0).busy = some 3 ∧ (s.chan 0 3).desc = none ∧ (s.chan 0 3).abort = none ∧ (s.chan 0 3).given = none ∧
       (match (s.readDma 0 0 0xFFFFFFFFFFC0).2 with | .error st => decide (st = .bounds) | .ok _ => false) = true) ∧
    (let s := engine true { state := .running, desc := some desc, covered := 4096 }
     (s.engine 0).busy = some 3 ∧ (s.chan 0 3).desc = some desc ∧ (s.chan 0 3).final = false ∧ (s.chan 0 3).abort = none ∧
       s.chanPaused 0 3 = false ∧ s.gov.brakes = [] ∧
       (s.payDma 0 3 (s.chan 0 3).nextBytes desc.cls).isSome = true ∧
       (((s.payDma 0 3 (s.chan 0 3).nextBytes desc.cls).getD s).moveUnit 0 3 desc).2 = .moved) ∧
    (let s := engine false { state := .parked, park := some .gap }
     s.runs = true ∧ (s.chan 0 3).state = .parked ∧ (s.chan 0 3).park = some .gap) ∧
    (let s := engine true { state := .running, desc := some desc, final := true }
     (s.engine 0).busy = some 3 ∧ (s.chan 0 3).desc = some desc ∧ (s.chan 0 3).final = true ∧ (s.chan 0 3).abort = none ∧
       (s.chan 0 3).chain = 0) := by
  decide +kernel

/-- Whether the unit that is left of the transfer of channel 3 of engine 0 moves, and ends it. -/
def ends (s : State) (d : DmaDesc) (k : DmaKind) : Bool :=
  s.engineRuns 0 && decide ((s.engine 0).busy = some 3) && decide ((s.chan 0 3).desc = some d) && !(s.chan 0 3).final &&
  decide ((s.chan 0 3).abort = none) && !s.chanPaused 0 3 && decide (s.gov.brakes = []) &&
  decide (d.kind = some k) &&
  match s.payDma 0 3 (s.chan 0 3).nextBytes d.cls with
  | none => false
  | some q =>
    decide ((q.moveUnit 0 3 d).2 = .moved) && ((q.moveUnit 0 3 d).1.chan 0 3).final &&
      decide ((q.moveUnit 0 3 d).1.runningKind 0 = none)

/-- Channel 3 of engine 0 runs `d` with scratch as given and its tolls paid. -/
def moving (d : DmaDesc) (bytes : List Byte) (x : Channel) : State :=
  { engine true { x with state := .running, desc := some d, covered := 16384 } with
    scratch := { bytes := Memory.ofBytes 0 bytes } }

/-- DmaTransfersEnd: a last burst of each kind of copy that moves. -/
theorem witness_DmaTransfersEnd :
    ends (moving desc (List.replicate 8 7) {}) desc .copy = true ∧
    (let d := { desc with code := 1, elem := 1 }
     ends (moving d (List.replicate 8 7) {}) d .compress = true) ∧
    (let d := { desc with code := 2, elem := 1 }
     ends (moving d (codeBlock [] 1 (List.replicate 64 7)) {}) d .expand = true) ∧
    (let d := { desc with code := 3, elem := 1, dst := 0x500000000000 }
     ends ((moving d (List.replicate 8 7) {}).setReg (partBase 0 + Off.pvolCtl) 16) d .link = true) := by
  decide +kernel

/-- DmaTransfersEnd: a last burst of the other transfers that name no queue. -/
theorem witness_OtherTransfersEnd :
    (let d := { desc with code := 4, elem := 1 }
     ends (moving d [1] {}) d .kn4 = true) ∧
    (let d := { desc with code := 5, dst := 0, len := 144 }
     ends (moving d (List.replicate 16 0 ++ [1]) {}) d .tableLoad = true) ∧
    (let d := { desc with mode := 1 }
     ends (moving d [1, 2, 3] { srcDesc := some (line 0x200000000000), dstDesc := some (line 0x200000000100) }) d .tensor = true) := by
  decide +kernel

/-- DmaTransfersEnd: the last burst of a last tile to a queue and from one. -/
theorem witness_QueueTransfersEnd :
    (let inward (s : State) : State :=
       { s with cores := [(0, { running with queues := [(5, { kind := .dmaIn, fmt := .int8, param := 3 })] })] }
     let half : Channel := { step := 2048, buf := List.replicate 16 (3, false) }
     let d := { desc with mode := 2, dst := 0 }
     let coded (code : Nat) : DmaDesc := { d with code := code, aux0 := 8 + 2 ^ 32 }
     ends (inward (moving d [1, 2, 3] { srcDesc := some (line 0x200000000000), step := 2048 })) d .toQueue = true ∧
       ends (inward (moving (coded 2) [] half)) (coded 2) .toQueueExpand = true ∧
       ends (inward (moving (coded 4) [] half)) (coded 4) .toQueueKn4 = true) ∧
    (let d := { desc with mode := 3, src := 0 }
     let s := moving d [] { dstDesc := some (line 0x200000000100), step := 2048 }
     let q : Queue := { kind := .dmaOut, fmt := .int8, param := 3, tags := [mkTag false true 1 8] }
     ends { s with cores := [(0, { running with queues := [(31, q)] })] } d .fromQueue = true) := by
  decide +kernel

/-- DmaTransfersEnd: a complete block at the link expander. -/
theorem witness_BlockAtExpander :
    (let b : CBlock := { part := 0, addr := 0x200000000000, ulen := 64, srcId := 1, srcPart := 0, tag := 0, ackReq := false, counter := none,
                         total := 96, bytes := codeBlock [] 1 (List.replicate 64 7) ++ List.replicate 16 0 }
     let s := { one with engines := [(0, { cblocks := [b] })] }
     s.engineRuns 0 = true ∧ (s.engine 0).cblocks.findIdx? (fun b => decide (b.bytes.length ≥ b.total)) = some 0 ∧
       (s.engine 0).cblocks[0]? = some b ∧
       (blockHead b.bytes).needs.any (fun n => (mget ({} : Machine.Slot) (s.engine 0).slots n).loading) = false) := by
  decide +kernel

/-! ## Partitions -/

/-- Partition 0 in a state, with its disable procedure. -/
def draining (p : PartState) (d : Disable) : State := { up with parts := [(0, { state := p, disable := some d })] }

/-- PartitionLife: a free mask, one that is taken and one of groups that a KQ08 lacks, an ENABLED partition, and each state of the disable procedure. -/
theorem witness_PartitionLife :
    (let s := { up with parts := [] }
     s.takes .pf (partBase 0 + Off.pctl) = true ∧ (s.part 0).state = .disabled ∧ s.stopped = false ∧
       (0x80000FFF : Word).getLsbD 31 = true ∧ s.groupsOk 0 0xFFF = true ∧ s.groupsExist 0xFFF = true ∧
       s.groupsOk 1 1 = false ∧ { s with variant := .kq08 }.groupsExist 0xFFF = false) ∧
    (up.takes .pf (partBase 0 + Off.pctl) = true ∧ (up.part 0).state = .enabled ∧ up.portUp = true ∧ 0 < up.units ∧
      (1 : Word).getLsbD 31 = false ∧ (0xC0000001 : Word).getLsbD 31 = true ∧ (0xC0000001 : Word).getLsbD 30 = true ∧
      up.stopped = false ∧ up.port.vfEnable = true ∧ up.pfFlr = false) ∧
    (let s := draining .draining { toEnabled := false, status := .aborted, flr := false }
     s.runs = true ∧ (s.part 0).disable.isSome = true ∧ (s.part 0).state = .draining ∧ s.landing.fclk.toNat ≥ 0 + 0) ∧
    ((draining .flr { toEnabled := true, status := .flrCancelled, flr := true }).part 0).state = .flr ∧
    (let s := draining .cleaning { toEnabled := true, status := .aborted, flr := false }
     (s.part 0).state = .cleaning ∧ s.towersQuiet 0 = true ∧ s.runs = true ∧
       (s.partChannels 0).all (fun x => (s.chan x.1 x.2).free) = true) := by
  decide +kernel

/-! ## Links -/

/-- Link 7 in a phase, with link 1 of device 1 at its other end and all nine lanes; this device is 5. -/
def linked (phase : Nat) (k : LinkState) : State :=
  ({ up with links := [(7, k)] }.setReg (linkBase 7 + Off.volLstat) (phase * 2 ^ 29 + 0x1FF * 2 ^ 16 + 9)).setReg
    (routerBase + Off.volId) 5

/-- LinksTrain: each phase with what its command needs. -/
theorem witness_LinksTrain :
    (let s := linked 1 {}
     s.runs = true ∧ s.linkPhase 7 = 1 ∧ 4 ≤ laneCount ((0x1FF : BitVec 9).toNat &&& s.laneMask)) ∧
    (linked 2 {}).linkPhase 7 = 2 ∧
    (let s := linked 3 { partnerGood := 0x1FF }
     s.linkPhase 7 = 3 ∧ s.ownId ≠ 0x1FFF ∧ s.regField (linkBase 7 + Off.volLstat) 3 13 ≠ s.ownId ∧ (s.link 7).retraining = false ∧
       (s.chooseLanes 7 (0x1FF &&& (s.link 7).partnerGood.toNat &&& s.laneMask &&&
         (0x1FF - s.regField (linkBase 7 + Off.volLaneFail) 0 9))).isSome = true) ∧
    (let s := (linked 3 {}).setReg (routerBase + Off.volId) 1
     s.linkPhase 7 = 3 ∧ s.regField (linkBase 7 + Off.volLstat) 3 13 = s.ownId) ∧
    (let s := linked 4 { partnerCredits := some [1, 2, 3, 4] }
     s.linkPhase 7 = 4 ∧ (s.link 7).partnerCredits = some [1, 2, 3, 4]) ∧
    (let s := linked 5 { retraining := true }
     s.linkPhase 7 = 5 ∧ 8 < 9 ∧ nbit (s.regField (linkBase 7 + Off.volLstat) 16 9) 8 = true ∧
       s.takes .pf (linkBase 7 + Off.volLctl) = true ∧ (s.link 7).retraining = true ∧
       (let s := { s with landing := { s.landing with fclk := 135000000 } }
        (s.link 7).retrainStart + retrainLimit ≤ s.landing.fclk.toNat)) ∧
    ((linked 0 {}).linkPhase 7 = 0 ∧ (linked 0 {}).takes .pf (linkBase 7 + Off.volLctl) = true) := by
  decide +kernel

theorem crcForward_lt (n r : Nat) (h : r < 2 ^ 64) : crcForward 64 0x42F0E1EBA9EA3693 n r < 2 ^ 64 := by
  induction n generalizing r with
  | zero => exact h
  | succ n ih =>
    refine ih _ ?_
    split
    · exact Nat.xor_lt_two_pow (Nat.mod_lt _ (by decide)) (by decide)
    · exact Nat.mod_lt _ (by decide)

theorem crc64_lt (bs : List Byte) : crc64 bs < 2 ^ 64 := by
  suffices h : ∀ r, r < 2 ^ 64 →
      bs.foldl (fun r b => crcForward 64 0x42F0E1EBA9EA3693 8 (r ^^^ (b.toNat * 2 ^ 56))) r < 2 ^ 64 from h 0 (by decide)
  induction bs with
  | nil => exact fun r h => h
  | cons b bs ih => exact fun r h => ih _ (crcForward_lt 8 _ (Nat.xor_lt_two_pow h (by have := b.isLt; omega)))

/-- A flit sealed with its CRC is good, and one whose CRC is another is not. -/
theorem crcGood_sealFlit (f : Flit) : crcGood (sealFlit f) = true :=
  decide_eq_true ((BitVec.toNat_ofNat _ _).trans (Nat.mod_eq_of_lt (crc64_lt (flitBytes f))))

theorem crcGood_damaged (f : Flit) (c : BitVec 64) (h : c ≠ (sealFlit f).crc) : crcGood { sealFlit f with crc := c } = false :=
  decide_eq_false fun e => h (BitVec.eq_of_toNat_eq (e.trans (of_decide_eq_true (crcGood_sealFlit f)).symm))

/-- A DATA flit. -/
def dataFlit : Flit := { seq := 4095, dstId := 5, srcId := 9, len := 8, payload := List.replicate 8 1 }

/-- LinksCarryFlits: an IDLE and a DATA flit with their CRC, a damaged one, a replay, and links that are not past DETECT. -/
theorem witness_LinksCarryFlits :
    (crcGood (sealFlit dataFlit) = true ∧ crcGood (sealFlit { ftype := 0 }) = true ∧
      ∃ c, crcGood { sealFlit dataFlit with crc := c } = false) ∧
    (let s := linked 5 { expect := 4095, replay := [dataFlit] }
     s.runs = true ∧ s.linkPhase 7 = 5 ∧ (sealFlit dataFlit).ftype = 1 ∧ (sealFlit dataFlit).nak = false ∧
       (sealFlit dataFlit).seq.toNat = (s.link 7).expect ∧ (sealFlit { ftype := 0 }).ftype = 0 ∧
       (sealFlit { ftype := 0 }).nak = false ∧ (s.link 7).replay ≠ [] ∧ s.takes .pf (linkBase 7 + Off.volLctl) = true) ∧
    (up.runs = true ∧ up.takes .pf (routerBase + Off.volId) = true ∧ (List.range 8).all (fun k => decide (up.linkPhase k ≤ 1)) = true) :=
  ⟨⟨crcGood_sealFlit _, crcGood_sealFlit _, ~~~(sealFlit dataFlit).crc, crcGood_damaged _ _ (by
    generalize (sealFlit dataFlit).crc = x
    intro h
    have := congrArg (fun v => v.getLsbD 0) h
    simp at this)⟩, by decide +kernel⟩

/-- A flit in the buffer of link 7 for partition 0, whose window begins at the granule of scratch; core 0 holds TAG 3. -/
def holding (f : Flit) : State :=
  (({ linked 5 { inbox := [(true, f)] } with cores := [(0, running)], tags := [(3, 0)] }.setReg
    (partBase 0 + Off.pvolCtl) 32).setReg (partBase 0 + Off.pvolInIds) (0x1FFF * 2 ^ 16)).setReg
    (partBase 0 + Off.pvolInBaseHi) 0x2000

/-- The state after the flit has left the buffer. -/
def taken (f : Flit) : State := (holding f).modLink 7 fun k =>
  { k with inbox := dropFlit f k.inbox, giveBack := k.giveBack.modify f.vc.toNat (· + 1) }

/-- LinkRequestsPerform: a WRITE that raises a counter, a first and a later piece of a CBLOCK, READs that are performed and refused, an
ATOMIC, and an answer of each kind. -/
theorem witness_LinkRequestsPerform :
    (let f : Flit := { op := 0, len := 8, counter := 4095, cntEn := true, srcId := 9, payload := List.replicate 8 1 }
     let t := taken f
     (holding f).runs = true ∧ headOf f ((holding f).link 7).inbox = some true ∧ f.op.toNat = opWrite ∧ t.refuses f = false ∧
       lenOk f = true ∧ f.cntEn = true ∧
       (t.writeRun (.link 7) f.dstPart.toNat (t.inboundAddr f) (f.payload.take f.len.toNat) (flitPoison f) false).2 = true) ∧
    (let f : Flit := { op := 1, len := 224, srcId := 9, first := true, payload := (codeBlock [] 1 (List.replicate 64 7)).take 224 }
     let ulen := leNum (((f.payload.take f.len.toNat).drop 12).take 4) % 2 ^ 13
     headOf f ((holding f).link 7).inbox = some true ∧ f.op.toNat = opCblock ∧ (taken f).refuses f = false ∧ lenOk f = true ∧
       16 ≤ (f.payload.take f.len.toNat).length ∧ f.addr.toNat + ulen ≤ 2 ^ 32 ∧
       (taken f).reachable f.dstPart.toNat ((taken f).inboundAddr f) (max ulen 1) true = true) ∧
    (let f : Flit := { op := 1, len := 224, srcId := 9, first := false }
     headOf f ((holding f).link 7).inbox = some true ∧ f.op.toNat = opCblock ∧ (taken f).refuses f = false ∧ lenOk f = true ∧
       f.first = false) ∧
    (let f : Flit := { op := 2, len := 8, srcId := 9 }
     let t := taken f
     headOf f ((holding f).link 7).inbox = some true ∧ f.op.toNat = opRead ∧ t.refuses f = false ∧ lenOk f = true ∧
       (let r := (t.readRun (.link 7) f.dstPart.toNat (t.inboundAddr f) f.len.toNat).2
        r.refused = false ∧ r.found = false ∧ r.poison = [])) ∧
    (let f : Flit := { op := 2, len := 8, srcId := 9, dstPart := 1 }
     headOf f ((holding f).link 7).inbox = some true ∧ (taken f).refuses f = true) ∧
    (let f : Flit := { op := 3, len := 8, srcId := 9, aop := 0, payload := leBytes 8 7 }
     let t := taken f
     headOf f ((holding f).link 7).inbox = some true ∧ f.op.toNat = opAtomic ∧ t.refuses f = false ∧ lenOk f = true ∧
       f.aop.toNat ≤ 4 ∧
       (match (t.atomicAt (.link 7) f.dstPart.toNat (t.inboundAddr f)
          { size := f.len.toNat, aop := f.aop.toNat, value := leNum (f.payload.take f.len.toNat),
            new := leNum ((f.payload.drop f.len.toNat).take f.len.toNat) }).2 with
        | .ok v => decide (v = 0)
        | .error _ => false) = true) ∧
    (([4, 5, 6] : List (BitVec 4)).all fun op =>
      let f : Flit := { op := op, tag := 3, len := 9, payload := leBytes 8 7 ++ [0] }
      decide (headOf f ((holding f).link 7).inbox = some true) && decide (f.tag.toNat < 0x800) &&
        decide ((taken f).tags.find? (fun e => decide (e.1 = f.tag.toNat)) = some (f.tag.toNat, 0)) &&
        [opResp, opWack, opErr].contains f.op.toNat) = true := by
  decide +kernel

/-! ## The module and start-up -/

/-- ModulePower: the module before and after power good, and a device that is not yet READY. -/
theorem witness_ModulePower :
    (let s := { up with mod := { up.mod with modPg := false, rising := true } }
     s.mod.bulk = true ∧ s.mod.ignore = false ∧ s.mod.needFall = false ∧ s.mod.modPg = false ∧ s.mod.pwrEn = true ∧
       s.mod.rising = true) ∧
    (let m : Module := { up.mod with modPg := false, ignore := true, needFall := true }
     m.ignore = true ∧ m.needFall = true ∧ { m with needFall := false }.pwrEn = true) ∧
    (let s := up.setReg Off.gstat 0
     s.runs = true ∧ s.ready = false ∧ s.aldeah.up = true) ∧
    (up.mod.modPg = true ∧ 64 < 65 ∧ 25 < 26 ∧ 125 ≤ 125 ∧ 47 < 48) := by
  decide +kernel

/-- PortAndAlerts: PERST# released and asserted, a change of width at training and by L0p, and a supply that fails. -/
theorem witness_PortAndAlerts :
    (up.mod.perst = false ∧ up.mod.modPg = true ∧ up.aldeah.up = true ∧ 1 ∈ [0, 1, 2, 4, 8, 16] ∧ 64 ∈ [2, 5, 8, 16, 32, 64] ∧
      64 ≤ up.maxRate ∧ up.port.width ≠ 0 ∧ 8 ∈ [2, 4, 8] ∧ 8 ≤ up.port.trained) ∧
    (26000 ≤ 26000 ∧ 39999 < 40000) := by
  decide +kernel

/-! ## Aldeah -/

/-- Aldeah with a mailbox request of a code, whose payload is given. -/
def asked (code : Nat) (payload : List Byte) : State := { up with
  aldeah := { up.aldeah with req := some { bytes := leBytes 2 code ++ List.replicate 14 0 ++ payload, path := none } } }

/-- ManagementRequests: a doorbell and a message that are taken, the paths, a response to deliver, and each command. -/
theorem witness_ManagementRequests :
    (up.takes .pf (mboxBase + Off.mbxDoorbell) = true ∧ up.aldeah.up = true ∧ up.regBit (mboxBase + Off.mbxStat) 31 = false ∧
      16 ≤ (4096 : BitVec 13).toNat ∧ (4096 : BitVec 13).toNat ≤ 4096 ∧ up.aldeah.req = none ∧ up.mod.modPg = true ∧
      16 ≤ (List.replicate 16 (0 : Byte)).length ∧ up.pathOpen .outOfBand = true ∧ up.pathOpen (.inBand (.vf 12)) = true ∧
      up.aldeah.recovery = false ∧ up.aldeah.update = none) ∧
    (let s := { asked 1 [] with aldeah := { (asked 1 []).aldeah with rsp := some [] } }
     (match s.aldeah.req with | some q => decide (q.path = none) && !q.dropped | none => false) = true ∧ s.aldeah.rsp = some [] ∧
       s.aldeah.queue = []) ∧
    (([1, 2, 3, 0x10, 0x11, 0x20, 0x40, 0x50, 0x51] : List Nat).all fun code =>
      let s := asked code []
      s.aldeah.up && s.aldeah.rsp.isNone && s.ready && (match s.aldeah.req with
        | some q => decide (requestCode q = code) && decide (leNum ((q.bytes.drop 8).take 8) = 0)
        | none => false)) = true := by
  decide +kernel

/-- ManagementRequests: what READ_LOG, OTP_WRITE, FW_STAGE and REPAIR_PERSIST ask of their payloads. -/
theorem witness_ManagementPayloads :
    (let b := (leBytes 8 0 ++ leBytes 4 63)
     12 ≤ b.length ∧ 1 ≤ argWord b 2 ∧ argWord b 2 ≤ 63) ∧
    (let b := leBytes 4 3 ++ leBytes 4 1
     b.length = 8 ∧ argWord b 0 < 4 ∧ up.unusedRecord (argWord b 0) = some 0) ∧
    (let b := leBytes 4 0 ++ leBytes 4 0 ++ [1]
     argWord b 0 = 0 ∧ 8 < b.length ∧ argWord b 1 + (b.length - 8) ≤ slotSize false ∧ up.aldeah.update ≠ some true) ∧
    (let b := leBytes 4 11 ++ leBytes 4 15 ++ leBytes 4 63 ++ leBytes 4 63
     16 ≤ b.length ∧ argWord b 0 < up.units ∧ argWord b 1 < 16 ∧ argWord b 2 < 64 ∧ argWord b 3 < 64) := by
  decide +kernel

/-- FirmwareAndLog: an inactive slot that verifies. -/
theorem witness_SlotVerifies :
    let s := { up with flash := { up.flash with aldeahB := .factory } }
    s.slotVerifies false (!s.directory.active) = true := by
  have h : up.setting 0 = 0 := by decide +kernel
  have h : up.setting 0 ≤ Config.factorySvn false := h ▸ Nat.zero_le _
  exact decide_eq_true h

/-- FirmwareAndLog: an FW_ACTIVATE of the empty slot, a UCODE_APPLY that begins, one at its idle point and one whose time is over, a
handover, and a log. -/
theorem witness_FirmwareAndLog :
    (let s := asked 0x21 (leBytes 4 0)
     let q : MgmtRequest := { bytes := leBytes 2 0x21 ++ List.replicate 14 0 ++ leBytes 4 0, path := none }
     s.aldeah.up = true ∧ s.aldeah.req = some q ∧ s.aldeah.rsp = none ∧ s.ready = true ∧
       leNum ((q.bytes.drop 8).take 8) = 0 ∧ requestCode q = 0x21 ∧ 20 ≤ q.bytes.length ∧ argWord (q.bytes.drop 16) 0 = 0 ∧
       s.aldeah.update = none ∧ s.slotVerifies false (!s.directory.active) = false) ∧
    (let s := asked 0x31 (leBytes 4 0 ++ leBytes 4 1000)
     let q : MgmtRequest := { bytes := leBytes 2 0x31 ++ List.replicate 14 0 ++ (leBytes 4 0 ++ leBytes 4 1000), path := none }
     s.aldeah.req = some q ∧ requestCode q = 0x31 ∧ 24 ≤ q.bytes.length ∧ argWord (q.bytes.drop 16) 0 < s.units ∧
       1 ≤ argWord (q.bytes.drop 16) 1 ∧ argWord (q.bytes.drop 16) 1 ≤ 1000 ∧ s.aldeah.ucode = none ∧
       (s.part (argWord (q.bytes.drop 16) 0)).state = .enabled) ∧
    (let s := { up with aldeah := { up.aldeah with ucode := some ⟨0, 5, 0⟩, handover := true } }
     s.aldeah.ucode = some ⟨0, 5, 0⟩ ∧ s.ucodeLate ⟨0, 5, 0⟩ = false ∧ s.idlePoint 0 = true ∧ s.runs = true ∧
       s.aldeah.handover = true ∧ s.mod.modPg = true ∧
       { s with landing := { s.landing with mclk := 1687500 } }.ucodeLate ⟨0, 5, 0⟩ = true) ∧
    (let s := up.setReg Off.gstat (2 ^ 31 + 2 ^ 25)
     s.takes .pf Off.gctl = true ∧ s.regBit Off.gstat 25 = true) ∧
    (let e : LogEntry := { seq := 9, cycles := 0, boot := 1, typ := 2, body := [] }
     let s := { up with aldeah := { up.aldeah with log := [e], area0 := [{ e with seq := 8 }] } }
     e ∈ s.copyLog.aldeah.log ∧ e.seq > (s.aldeah.area0.getLast?.map (·.seq)).getD 0 ∧ s.aldeah.log.length ≤ 4096 ∧
       s.aldeah.area0 ≠ []) := by
  decide +kernel

/-- AldeahRestarts: Aldeah up with no microcode on its way, and down with its queue full. -/
theorem witness_AldeahRestarts :
    (up.aldeah.up = true ∧ up.aldeah.ucode = none) ∧
    (let s := { up with aldeah := { up.aldeah with up := false } }.setReg Off.gstat (2 ^ 24)
     s.aldeah.up = false ∧ s.mod.modPg = true ∧ s.regBit Off.gstat 24 = true) ∧
    (let r := errOf .linkRefused 0 3 0
     let s := { up with
       aldeah := { up.aldeah with up := false }
       landing := { records := [r], waiting := List.replicate 255 r, recordsLost := 2 } }
     s.aldeah.up = false ∧ s.takes .pf (mboxBase + Off.mbxDoorbell) = true ∧ s.landing.records = r :: [] ∧
       foldRecord r s.landing.records = none ∧ 256 ≤ s.landing.records.length + s.landing.waiting.length ∧
       s.landing.recordsLost ≠ 0) := by
  decide +kernel

/-! ## Reliability -/

/-- ErrorRecordsLeave: a record at the front of the queue, a ring that is enabled and empty, and ERR_STAT within reach. -/
theorem witness_ErrorRecordsLeave :
    ([{ errOf .linkRefused 0 3 0 with cls := .fatal }, errOf .linkRefused 0 3 0] : List ErrRec).all (fun r =>
      let s := { up with landing := { records := [r] } }.setReg (errBase + Off.errCtl) 1
      decide (s.landing.records = r :: []) && s.regBit (errBase + Off.errCtl) 0 &&
        decide (s.reg (errBase + Off.errRingPidx) = s.reg (errBase + Off.errRingCidx)) &&
        s.takes .pf (errBase + Off.errStat)) = true := by
  decide +kernel

/-- RepairsComplete: a core to test, drained, replaced and retired, a group to test, an evacuation, and a channel to fold. -/
theorem witness_RepairsComplete :
    (up.takes .pf (errBase + Off.errCoreTest) = true ∧ up.regBit (errBase + Off.errCoreStat) 31 = false ∧
      up.coreExists 287 = true ∧ (up.core 287).retired = false ∧ up.stopped = false) ∧
    (up.runs = true ∧ up.coreExists 0 = true ∧ (up.core 0).retired = false ∧ up.serving (Config.groupOfCore 0) = true ∧
      (up.core 0).testing = none) ∧
    (let s := { up with cores := [(287, { testing := some false, drained := true })] }
     s.runs = true ∧ (s.core 287).testing = some false ∧ (s.core 287).task = none ∧ (s.core 287).drained = true ∧
      s.otherTests 287 = false) ∧
    (let s := { up with cores := [(0, { testing := some true, drained := true })], spares := [(0, 1000)] }
     (s.core 0).testing = some true ∧ (s.core 0).drained = true ∧ s.sparesLeft (s.spireOf 0) = 0) ∧
    (up.takes .pf (errBase + Off.errGroupTest) = true ∧ up.regBit (errBase + Off.errGroupStat) 31 = false ∧
      (11 : BitVec 4).toNat < up.units ∧ up.owner 11 = 15 ∧ (up.group 11).outOfService = false) ∧
    ({ up with groups := [(11, { testing := true })] }.group 11).testing = true ∧
    (up.takes .pf (towerBase 0 + Off.twrEvac) = true ∧ up.canEvacuate 0 = true ∧ 0 < up.units ∧ 31 < 32 ∧
      nbit (up.tower 0).chanFail 31 = false) ∧
    ({ up with towers := [(0, { evac := some 15 })] }.tower 0).evac = some 15 := by
  decide +kernel

/-! ## Register writes and steps -/

/-- RegisterWrites: an access of half a register, one that no table lists, PSLICE of the last partition, the configuration space, and the
unlocked debug block. -/
theorem witness_RegisterWrites :
    (up.takes .pf (partBase 0 + Off.pslice + 2) = true ∧ fnOffset .pf (partBase 0 + Off.pslice + 2) = some (partBase 0 + Off.pslice + 2) ∧
      locate (partBase 0 + Off.pslice + 2) = some (.part, 0, Off.pslice + 2) ∧ accessKind .part (Off.pslice + 2) false = .undefined) ∧
    (up.takes .pf 0xFFFFC = true ∧ locate 0xFFFFC = some (.global, 0, 0xFFFFC) ∧ accessKind .global 0xFFFFC false = .nothing) ∧
    (let a := partBase 11 + Off.pslice
     fnOffset (.vf 12) Off.pslice = some a ∧ a < 0x10000000 ∧ up.takes (.vf 12) a = true ∧ (locate a).isSome = true ∧ 11 < 12 ∧
       accessKind .part Off.pslice false = .register) ∧
    (up.portUp = true ∧ up.pfFlr = false ∧ up.takes (.vf 1) (partBase 11 + Off.pslice) = false ∧
      (let s := up.setReg Off.gstat (2 ^ 31 + 2 ^ 25)
       s.answers .pf = true ∧ s.regBit Off.gstat 25 = true ∧ 0x10000000 < 2 ^ 29)) := by
  decide +kernel

/-- CommandsLeaveTheQueue: a write to the unlocked debug block stops, and one to the locked one does not. -/
theorem witness_CommandsLeaveTheQueue :
    (let s := up.setReg Off.gstat (2 ^ 31 + 2 ^ 25)
     s.answers .pf = true ∧ s.regBit Off.gstat 25 = true ∧
       (match exec (.registerWrite .pf (.bar0 0x10000000) true 1) s with | .fault .debugBlock => true | _ => false) = true) ∧
    up.regBit Off.gstat 25 = false := by
  decide +kernel

/-- A state that keeps the invariant and steps: what StepsKeepTheInvariant assumes. -/
theorem witness_StepsKeepTheInvariant :
    { up with pending := [.pwrEnIgnoreEnd] }.Inv .kq12 up.otp ∧
    (∃ n, step { up with pending := [.pwrEnIgnoreEnd] } = .next n) ∧ ∃ n, exec .pwrEnIgnoreEnd up = .next n :=
  ⟨⟨rfl, fun _ _ h => h, by decide⟩, ⟨_, rfl⟩, ⟨_, rfl⟩⟩

/-! ## Well-formedness -/

/-- A TRAIN flit of device 9. -/
def info : TrainInfo := { deviceId := 9, link := 0, physLane := 0, goodLanes := 0x1FF, phase := 4, credits := [1, 2, 3, 4] }

/-- A command with a term out of the range of each check is refused. -/
theorem test_wf_refuses : ([
    .taskEnd 288, .tcmdStart 12, .cupolaEviction 4 0 0, .cupolaEviction 0 12 0, .killDrainEnd 0 64, .killDrainEnd 12 0,
    .dmaBurst 14, .rateGapEnd 0 16, .ackReport 8, .granuleChangeDone 64, .cupolaInPush 0 32, .semacqGrant 0 4096,
    .lastEntryWrite 0 4096, .servingStep 0 256, .flr (.vf 0) .flr, .flr (.vf 13) .d3hot,
    .cupolaScratchAccess 0 1048576 .read .none, .cupolaScratchAccess 0 0 (.write [] false) .none,
    .cupolaScratchAccess 0 0 (.narrow 31 [1, 2]) .none, .cupolaScratchAccess 0 0 .read (.soft []),
    .towerAccess 0 (2 ^ 32) 0 .read .none, .narrowWrite 0 0 0 0 [] .none,
    .narrowWrite 0 0 0 0 (List.replicate 32 0) .none, .colRepairDone 0 17 0 0, .colRepairDone 0 0 64 0,
    .colRepairDone 0 0 0 64, .frameTableWrite 0 32768 0, .ceWindowExpire 0 65536, .refresh 0 17 0,
    .add { core := 288 } 0 0 0, .data 0 { payload := List.replicate 225 0 }, .train 0 { info with physLane := 9 },
    .train 0 { info with credits := [] }, .laneFail 0 9, .powerGood [.core 288], .powerGood [.landing, .floor 0 16 0], .powerGood [.keep 0 11],
    .powerGood [.repairMap 12], .mctpRequest (.inBand (.vf 13)) [], .thermalTrip 128 0, .chanFold 0 32 .tsv, .regulatorFault 32,
    .pcieLinkChange 3 64 false, .pcieLinkChange 16 63 false, .pcieLinkChange 16 1 false, .hostBar2Write .pf 0 [] false, .hostBar2Read .pf 0 0,
    .registerWrite .pf (.bar0 (2 ^ 29)) false 0, .registerWrite (.vf 13) (.config .linkIde) false 0,
    .cupolaScratchAccess 0 0 .read (.hard [288]), .towerAccess 0 0 0 .read (.unit 8 true)] : List Instr).all (fun c => !c.wf) = true := by
  decide +kernel

/-- The last term in each range is well formed. -/
theorem test_wf_takes : ([
    .taskEnd 287, .tcmdStart 11, .cupolaEviction 3 11 0, .killDrainEnd 11 63, .dmaBurst 13, .rateGapEnd 13 15, .ackReport 7,
    .granuleChangeDone 63, .cupolaInPush 287 31, .semacqGrant 11 4095, .lastEntryWrite 11 4095, .servingStep 11 255,
    .flr (.vf 12) .d3hot, .cupolaScratchAccess 63 1048575 (.narrow 31 [1]) (.hard [0, 287]), .colRepairDone 11 16 63 63,
    .data 7 { payload := List.replicate 224 0 }, .laneFail 7 8, .powerGood [.floor 11 15 10], .thermalTrip 127 0,
    .pcieLinkChange 0 2 true, .regulatorFault 31, .train 7 { info with physLane := 8 },
    .registerWrite (.vf 12) (.bar0 (2 ^ 29 - 1)) true 0, .towerAccess 11 0xFFFFFFFF 0 .read (.unit 7 true)] : List Instr).all (fun c => c.wf) = true := by
  decide +kernel

/-! ## Results -/

/-- The state after a command. -/
def after (c : Instr) (s : State) : State :=
  match exec c s with
  | .next n => n
  | _ => s

/-- 5 + 0xFFFFFFFF wraps to 4, and the PC moves past the long word's 3 parcels (R82). -/
theorem test_add : ((after (.add lw 4 1 3) one).core 0).rd 4 = 4 ∧ ((after (.add lw 4 1 3) one).core 0).pc = 3 := by
  decide +kernel

/-- The parcels of the long words of the worked program (Table 03-20): S and Q, S and D, S alone, T, V, and D. -/
theorem test_lengths : [ { lw with s := some (.load .ld 4 0 0), q := some (.bind 20 2 0 3 0 0) },
    { lw with s := some (.load .ld 6 0 8), d := some (.lcfg ⟨true, 0⟩ 4) }, { lw with s := some (.aluImm .andi 7 7 0xFF) },
    { lw with t := some ⟨.tgemv, 8, 20, true, ⟨false, 0⟩⟩ }, { lw with v := some ⟨.vsilu, 21, 20, 0, 0, false, false, 0, false⟩ },
    { lw with d := some (.semrel ⟨false, 0⟩ 4 7) }].map longWordLen = [5, 5, 3, 5, 5, 3] := by
  decide

/-- Words written out from the fields of Tables 04-1 to 04-15: an operation of every layout and slot; a reserved operation and a reserved
bit that is set are refused. -/
theorem test_slots :
    decodeS (0x16#6 ++ 4#5 ++ 3#5 ++ 31#16) = some (.aluImm .srai 4 3 31) ∧
    decodeS (0x2A#6 ++ 3#5 ++ 2#5 ++ 0xFFC0#16) = some (.store .st 3 2 0xFFC0) ∧
    decodeS (0x35#6 ++ 3#5 ++ 1#5 ++ 5#16) = some (.branch .bgeu 3 1 5) ∧
    decodeS (0x36#6 ++ 4#5 ++ 0x1FFFFF#21) = some (.jal 4 0x1FFFFF) ∧
    decodeS (0x3B#6 ++ 4#5 ++ 1#5 ++ 0#4 ++ 0x020#12) = some (.csr .csrc 4 1 0x20) ∧
    decodeS (0x3D#6 ++ 0#25 ++ 1#1) = some (.tret true) ∧ decodeS (0x0E#6 ++ 0#26) = none ∧ decodeS (0x01#6 ++ 1#26) = none ∧
    decodeQ (1#1 ++ 20#5 ++ 2#4 ++ 1#4 ++ 3#6 ++ 5#7 ++ 6#5) = some (.bind 20 2 1 3 5 6) ∧
    decodeQ (0#1 ++ 4#4 ++ 2#5 ++ 1#5 ++ 63#6 ++ 7#6 ++ 0#5) = some (.tpush 2 1 63 7) ∧
    decodeQ (0#1 ++ 6#4 ++ 0#5 ++ 1#5 ++ 2#5 ++ 0#12) = some (.qlive 1 2) ∧ decodeQ 0 = none ∧
    decodeD (0x02#5 ++ 1#1 ++ 8#5 ++ 4#5 ++ 1#1 ++ 4095#12 ++ 0#3) = some (.fst true 8 4 true 4095) ∧
    decodeD (0x03#5 ++ 1#1 ++ 4#3 ++ 3#3 ++ 8#5 ++ 4#5 ++ 12#5 ++ 0#5) = some (.atom true 4 3 8 4 12) ∧
    decodeD (0x05#5 ++ 1#1 ++ 7#3 ++ 2#3 ++ 4095#12 ++ 0#8) = some (.semacq ⟨true, 7⟩ 2 4095) ∧
    decodeD (0x08#5 ++ 1#1 ++ 3#3 ++ 4#5 ++ 14#4 ++ 0#14) = some (.dmak ⟨true, 3⟩ 4 14) ∧
    decodeV (0x0A#6 ++ 21#5 ++ 20#5 ++ 19#5 ++ 0#5 ++ 1#1 ++ 0#1 ++ 2#2 ++ 1#1 ++ 0#33) = some ⟨.vmulr, 21, 20, 19, 0, true, false, 2, true⟩ ∧
    decodeM (0x02#6 ++ 0#5 ++ 0#5 ++ 31#5 ++ 3#2 ++ 0#1 ++ 0#1 ++ 1#1 ++ 3#2 ++ 0#1 ++ 0#35) =
      some ⟨.mdrain, 0, 0, 31, 3, false, false, true, 3, false⟩ ∧
    decodeT (0#40 ++ 2#4 ++ 8#5 ++ 20#5 ++ 1#1 ++ 1#1 ++ 6#3 ++ 0#5) = some ⟨.tgemv, 8, 20, true, ⟨true, 6⟩⟩ := by
  decide

/-- The parcels of a long word that waits for flags 7 and 0 and adds s1 and s2 into s4, the header first (R82, Table 03-8). -/
theorem test_parcels : decodeLongWord 3 [0x8101, 0x1000, 0x0481, 0xFFFF] =
    some ({ core := 3, wait := 0x81, s := some (.alu .add 4 1 2) }, [0xFFFF]) := by
  decide

/-- s0 discards what is written (R76); a shift takes the low five bits of its amount; SRAI keeps the sign. -/
theorem test_shifts : ((after (.addi lw 0 1 7) one).core 0).rd 0 = 0 ∧ ((after (.sll lw 4 1 3) one).core 0).rd 4 = 0x80000000 ∧
    ((after (.srai lw 4 3 31) one).core 0).rd 4 = 0xFFFFFFFF ∧ ((after (.srl lw 4 3 1) one).core 0).rd 4 = 0x07FFFFFF := by
  decide +kernel

/-- MULH of -1 and -1 is 0, MULHU is 0xFFFFFFFE. -/
theorem test_mul : ((after (.mulh lw 4 3 3) one).core 0).rd 4 = 0 ∧ ((after (.mulhu lw 4 3 3) one).core 0).rd 4 = 0xFFFFFFFE := by
  decide +kernel

/-- LDB extends the sign of the byte that STB stored, and LDBU does not. -/
theorem test_bytes :
    ((after (.ldb lw 4 2 0) (after (.stb lw 3 2 0) one)).core 0).rd 4 = 0xFFFFFFFF ∧
    ((after (.ldbu lw 4 2 0) (after (.stb lw 3 2 0) one)).core 0).rd 4 = 0xFF := by
  decide +kernel

/-- A misaligned LD of the S slot: CAUSE 6, SLOTS 1, and the handler is at TRAP_VEC + 32 * 6 (R110, Tables 03-6 and 03-17). -/
theorem test_trap : ((after (.ld lw 4 1 0) guarded).core 0).trapMode = true ∧ ((after (.ld lw 4 1 0) guarded).core 0).pc = 0x1C0 ∧
    ((after (.ld lw 4 1 0) guarded).core 0).trapCause = 0x106 ∧ ((after (.ld lw 4 1 0) guarded).core 0).trapAddr = 5 := by
  decide +kernel

/-- Largest and smallest codes of the formats of Table 02-2, and 7.875 to E2M1, which saturates to 6 (R45's note). -/
theorem test_formats :
    decodeElem .e4m3 0x7E = .fin false 14 5 ∧ (encodeElem .mxE2m1 .rne true 0 (.fin false 63 (-3))).1 = 7 ∧
    (encodeElem .bf16 .rne false 0 (.fin false 1 0)).1 = 0x3F80 ∧ (encodeElem .fp16 .rne false 0 (.fin false 65520 0)).1 = 0x7C00 ∧
    (encodeElem .fp16 .rne true 0 (.fin true 65520 0)).1 = 0xFBFF ∧ (encodeElem .int8 .rne true 0 (.fin true 128 0)).1 = 0x81 := by
  decide +kernel

/-- SipHash-2-4's published vector for the key 00 to 0F and the message 00 to 07. -/
theorem test_siphash : sipHash 0x0F0E0D0C0B0A09080706050403020100 [0x0706050403020100] = 0x93F5F5799A932462 := by
  decide +kernel

/-- A host write of a semaphore in LOCK mode sets HOLDER to 0xFF (R285). -/
theorem test_sem_write : (after (.semWrite .pf 0 9 0x40000001) up).sem 0 9 = 0x40FF0001 := by decide +kernel

/-- CNT_ADD adds to the counter it names (R284). -/
theorem test_cnt_add : ((after (.cntAdd .pf 0 4095 7) (after (.cntAdd .pf 0 4095 7) up)).counter 0 4095) = 14 := by decide +kernel

/-- An empty queue lets the clocks tick, and the front command runs first. -/
theorem test_step : (match step { up with pending := [.cntAdd .pf 0 0 1, .perstAssert] } with
    | .next n => decide (n.pending = [.perstAssert]) && decide (n.counter 0 0 = 1) && n.portUp
    | _ => false) = true := by
  decide +kernel

end Sys2Proof.Tests
end

section
/-! What every command leaves unchanged: the part, the commands that wait, and OTP (`State.fixed`). One lemma per operation on the
state, in the order of the model, says that the operation leaves them; then one per command that branches, and from these the
invariant of O60. -/

namespace Sys2Proof.Machine

/-! ## Operations on the state

Where a lemma's proof generalizes the callees of an operation (`generalize @State.f = g at …`), it does so before its case split:
the kernel would otherwise evaluate the addresses in the operation's own equation, which are beyond its depth. -/

/-- What leaves everything outside the memories as it is leaves the part, the queue and OTP. -/
theorem fixed_of_outside {s t : State} (h : t.outside = s.outside) : t.fixed = s.fixed :=
  congrArg State.fixed (a₁ := t.outside) (a₂ := s.outside) h

theorem fixed_of_eq {α : Type} {p : State × α} {n s : State} {x : α} (h : p = (n, x)) (hp : p.1.fixed = s.fixed) :
    n.fixed = s.fixed := by
  rw [h] at hp
  exact hp

theorem fst_fixed {α : Type} {p : State × α} {s : State} (h : ∀ n x, p = (n, x) → n.fixed = s.fixed) :
    p.1.fixed = s.fixed := h _ _ Prod.mk.eta.symm

@[simp] theorem ite_fixed (c : Prop) [Decidable c] (a b : State) :
    (if c then a else b).fixed = if c then a.fixed else b.fixed := apply_ite _ _ _ _

@[simp] theorem ite_fixed1 {β : Type} (c : Prop) [Decidable c] (a b : State × β) :
    (if c then a else b).1.fixed = if c then a.1.fixed else b.1.fixed :=
  apply_ite (fun p : State × β => p.1.fixed) _ _ _

@[simp] theorem foldl_fixed {α : Type} (f : State → α → State) (l : List α) (s : State)
    (h : ∀ s x, (f s x).fixed = s.fixed) : (l.foldl f s).fixed = s.fixed := by
  induction l generalizing s with
  | nil => rfl
  | cons x l ih => simp only [List.foldl_cons, ih, h]

@[simp] theorem foldl_fixed1 {α β : Type} (f : State × β → α → State × β) (l : List α) (s : State × β)
    (h : ∀ s x, (f s x).1.fixed = s.1.fixed) : (l.foldl f s).1.fixed = s.1.fixed := by
  induction l generalizing s with
  | nil => rfl
  | cons x l ih => simp only [List.foldl_cons, ih, h]

/-- Induction on the count of a loop whose own equation the kernel cannot check: unfolded with its callees hidden. -/
theorem brecOn_induction {C : Type} {F : (n : Nat) → Nat.below (motive := fun _ => C) n → C} {P : C → Prop}
    (h0 : P (F 0 ⟨⟩)) (hs : ∀ n f, P f.1 → P (F (n + 1) f)) (n : Nat) : P (Nat.brecOn n F) := by
  induction n with
  | zero => exact h0
  | succ n ih => exact hs n _ ih

/-- The same over a list. -/
theorem listBrecOn_induction {α C : Type} {F : (l : List α) → List.below (motive := fun _ => C) l → C} {P : C → Prop}
    (h0 : P (F [] ⟨⟩)) (hs : ∀ x l f, P f.1 → P (F (x :: l) f)) (l : List α) : P (List.brecOn l F) := by
  induction l with
  | nil => exact h0
  | cons x l ih => exact hs x l _ ih

theorem State.IssueFrame.fixed {s n : State} {c : Nat} (h : s.IssueFrame n c) : n.fixed = s.fixed := by
  obtain ⟨-, -, _, _, _, _, _, _, _, _, _, _, rfl⟩ := h
  rfl

/-! ### The state's operations -/

@[simp] theorem State.setCore_fixed (s : State) (c : Nat) (x : Core) : (s.setCore c x).fixed = s.fixed :=
  fixed_of_outside (State.setCore_outside ..)

@[simp] theorem State.setTower_fixed (s : State) (t : Nat) (x : Tower) : (s.setTower t x).fixed = s.fixed :=
  fixed_of_outside (State.setTower_outside ..)

@[simp] theorem State.setGroup_fixed (s : State) (g : Nat) (x : Group) : (s.setGroup g x).fixed = s.fixed :=
  fixed_of_outside (State.setGroup_outside ..)

@[simp] theorem State.setPart_fixed (s : State) (p : Nat) (x : Part) : (s.setPart p x).fixed = s.fixed := (rfl)

@[simp] theorem State.setGranule_fixed (s : State) (k : Nat) (x : Granule) : (s.setGranule k x).fixed = s.fixed := (rfl)

@[simp] theorem State.setCupola_fixed (s : State) (k : Nat) (x : List Line) : (s.setCupola k x).fixed = s.fixed :=
  fixed_of_outside (State.setCupola_outside ..)

@[simp] theorem State.modCore_fixed (s : State) (c : Nat) (f : Core → Core) : (s.modCore c f).fixed = s.fixed :=
  fixed_of_outside (State.modCore_outside ..)

@[simp] theorem State.modTower_fixed (s : State) (t : Nat) (f : Tower → Tower) :
    (s.modTower t f).fixed = s.fixed := fixed_of_outside (State.modTower_outside ..)

@[simp] theorem State.modPart_fixed (s : State) (p : Nat) (f : Part → Part) : (s.modPart p f).fixed = s.fixed := (rfl)

@[simp] theorem State.modLanding_fixed (s : State) (f : Landing → Landing) : (s.modLanding f).fixed = s.fixed :=
  fixed_of_outside (State.modLanding_outside ..)

@[simp] theorem State.setEngine_fixed (s : State) (e : Nat) (x : Engine) : (s.setEngine e x).fixed = s.fixed :=
  fixed_of_outside (State.setEngine_outside ..)

@[simp] theorem State.modEngine_fixed (s : State) (e : Nat) (f : Engine → Engine) :
    (s.modEngine e f).fixed = s.fixed := fixed_of_outside (State.modEngine_outside ..)

@[simp] theorem State.setChan_fixed (s : State) (e c : Nat) (x : Channel) : (s.setChan e c x).fixed = s.fixed :=
  fixed_of_outside (State.setChan_outside ..)

@[simp] theorem State.modChan_fixed (s : State) (e c : Nat) (f : Channel → Channel) :
    (s.modChan e c f).fixed = s.fixed := fixed_of_outside (State.modChan_outside ..)

@[simp] theorem State.setJob_fixed (s : State) (p j : Nat) (x : Job) : (s.setJob p j x).fixed = s.fixed := (rfl)

@[simp] theorem State.modJob_fixed (s : State) (p j : Nat) (f : Job → Job) : (s.modJob p j f).fixed = s.fixed := (rfl)

@[simp] theorem State.setLink_fixed (s : State) (l : Nat) (x : LinkState) : (s.setLink l x).fixed = s.fixed := (rfl)

@[simp] theorem State.modLink_fixed (s : State) (l : Nat) (f : LinkState → LinkState) :
    (s.modLink l f).fixed = s.fixed := (rfl)

@[simp] theorem State.tick_fixed (s : State) : (s.tick).fixed = s.fixed := fixed_of_outside (State.tick_outside ..)

@[simp] theorem State.setReg_fixed (s : State) (a v : Nat) : (s.setReg a v).fixed = s.fixed := (rfl)

@[simp] theorem State.setRegField_fixed (s : State) (a lo n v : Nat) : (s.setRegField a lo n v).fixed = s.fixed := (rfl)

@[simp] theorem State.setRegBit_fixed (s : State) (a i : Nat) (b : Bool) : (s.setRegBit a i b).fixed = s.fixed := (rfl)

@[simp] theorem State.logError_fixed (s : State) (e : ErrRec) : (s.logError e).fixed = s.fixed :=
  fixed_of_outside (State.logError_outside ..)

@[simp] theorem State.signal_fixed (s : State) (v : Nat) : (s.signal v).fixed = s.fixed := by simp [State.signal]

@[simp] theorem State.signalPart_fixed (s : State) (p v : Nat) : (s.signalPart p v).fixed = s.fixed := by
  simp [State.signalPart]

@[simp] theorem State.partEvent_fixed (s : State) (p : Nat) : (s.partEvent p).fixed = s.fixed := by
  simp [State.partEvent]

@[simp] theorem State.setPartState_fixed (s : State) (p : Nat) (x : PartState) :
    (s.setPartState p x).fixed = s.fixed := by simp [State.setPartState]

@[simp] theorem State.reportAer_fixed (s : State) (fn : Fn) (x : AerSeverity) :
    (s.reportAer fn x).fixed = s.fixed := (rfl)

/-! ### Memory accesses -/

@[simp] theorem State.writeJournal_fixed (s : State) (kind unit floor bank place : Nat) :
    (s.writeJournal kind unit floor bank place).1.fixed = s.fixed := fixed_of_outside (State.writeJournal_outside ..)

@[simp] theorem State.report_fixed (s : State) (pl : Place) (f : Finding) : (s.report pl f).fixed = s.fixed :=
  fixed_of_outside (State.report_outside ..)

@[simp] theorem State.readTower_fixed (s : State) (pl : Place) (u : Upset) :
    (s.readTower pl u).1.fixed = s.fixed := fixed_of_outside (State.readTower_outside ..)

@[simp] theorem State.writeTower_fixed (s : State) (pl : Place) (d : Memory) (poison : Bool) :
    (s.writeTower pl d poison).fixed = s.fixed := fixed_of_outside (State.writeTower_outside ..)

@[simp] theorem State.narrowTower_fixed (s : State) (pl : Place) (off : Nat) (bs : List Byte) (u : Upset) :
    (s.narrowTower pl off bs u).fixed = s.fixed := fixed_of_outside (State.narrowTower_outside ..)

@[simp] theorem State.wake_fixed (s : State) (g : Nat) : (s.wake g).fixed = s.fixed :=
  fixed_of_outside (State.wake_outside ..)

@[simp] theorem State.admitAccess_fixed (s : State) (ag : Agent) (p a : Nat) (pl : Place)
    (write completion : Bool) : (s.admitAccess ag p a pl write completion).1.fixed = s.fixed :=
  fixed_of_outside (State.admit_outside ..)

@[simp] theorem State.readScratch_fixed (s : State) (p k off : Nat) (u : Upset) :
    (s.readScratch p k off u).1.fixed = s.fixed := fixed_of_outside (State.readScratch_outside ..)

@[simp] theorem State.writeScratch_fixed (s : State) (k off : Nat) (d : Memory) (poison : Bool) :
    (s.writeScratch k off d poison).fixed = s.fixed := fixed_of_outside (State.writeScratch_outside ..)

@[simp] theorem State.narrowScratch_fixed (s : State) (p k off : Nat) (bs : List Byte) (u : Upset) :
    (s.narrowScratch p k off bs u).fixed = s.fixed := fixed_of_outside (State.narrowScratch_outside ..)

@[simp] theorem State.dropLine_fixed (s : State) (k p la : Nat) : (s.dropLine k p la).fixed = s.fixed :=
  fixed_of_outside (State.dropLine_outside ..)

@[simp] theorem State.cleanLine_fixed (s : State) (k p la : Nat) : (s.cleanLine k p la).fixed = s.fixed :=
  fixed_of_outside (State.cleanLine_outside ..)

@[simp] theorem State.putHost_fixed (s : State) (a : Nat) (bs : List Byte) : (s.putHost a bs).fixed = s.fixed :=
  fixed_of_outside (State.putHost_outside ..)

@[simp] theorem State.readWord_fixed (s : State) (ag : Agent) (p wa : Nat) :
    (s.readWord ag p wa).1.fixed = s.fixed := fixed_of_outside (State.readWord_outside ..)

@[simp] theorem State.writeWord_fixed (s : State) (ag : Agent) (p a : Nat) (bs : List Byte)
    (poison completion : Bool) : (s.writeWord ag p a bs poison completion).1.fixed = s.fixed :=
  fixed_of_outside (State.writeWord_outside ..)

@[simp] theorem State.readRun_fixed (s : State) (ag : Agent) (p a n : Nat) :
    (s.readRun ag p a n).1.fixed = s.fixed := fixed_of_outside (State.readRun_outside ..)

@[simp] theorem State.writeRun_fixed (s : State) (ag : Agent) (p a : Nat) (bs : List Byte) (poison : List Nat)
    (completion : Bool) : (s.writeRun ag p a bs poison completion).1.fixed = s.fixed :=
  fixed_of_outside (State.writeRun_outside ..)

@[simp] theorem State.writeRecord_fixed (s : State) (ag : Agent) (p a : Nat) (rec : List Byte) :
    (s.writeRecord ag p a rec).fixed = s.fixed := fixed_of_outside (State.writeRecord_outside ..)

/-! ### Register access and runs of bytes -/

@[simp] theorem State.onWrite_fixed (s : State) (fn : Fn) (a : Nat) (f : State → State)
    (h : ∀ t, (f t).fixed = t.fixed) : (s.onWrite fn a f).fixed = s.fixed := by
  fun_cases State.onWrite <;> simp [*]

@[simp] theorem State.storeRun_fixed (s : State) (p a : Nat) (bs : List Byte) :
    (s.storeRun p a bs).1.fixed = s.fixed := by
  unfold State.storeRun; split <;> simp

/-! ### Counters and semaphores -/

@[simp] theorem State.addCounter_fixed (s : State) (p i n : Nat) : (s.addCounter p i n).fixed = s.fixed := (rfl)

@[simp] theorem State.setSem_fixed (s : State) (p i : Nat) (w : Word) : (s.setSem p i w).fixed = s.fixed := (rfl)

@[simp] theorem State.releaseLocks_fixed (s : State) (p j : Nat) : (s.releaseLocks p j).fixed = s.fixed := (rfl)

@[simp] theorem State.dropWaits_fixed (s : State) (p core : Nat) : (s.dropWaits p core).fixed = s.fixed := (rfl)

/-! ### Tensor descriptors -/

@[simp] theorem State.createDesc_fixed (s : State) (ag : Agent) (p a : Nat) :
    (s.createDesc ag p a).1.fixed = s.fixed := fixed_of_outside (State.createDesc_outside ..)

@[simp] theorem State.readImage_fixed (s : State) (ag : Agent) (p : Nat) (im : Image) (l : List Nat) :
    (s.readImage ag p im l).1.fixed = s.fixed := fixed_of_outside (State.readImage_outside ..)

@[simp] theorem State.readCells_fixed (s : State) (ag : Agent) (p : Nat) (d : TensorDesc) (l : List Resolved) :
    (s.readCells ag p d l).1.fixed = s.fixed := fixed_of_outside (State.readCells_outside ..)

/-! ### Jobs, channels and the ends of commands -/

@[simp] theorem State.modContext_fixed (s : State) (p j c : Nat) (f : Core → Core) :
    (s.modContext p j c f).fixed = s.fixed := by simp [State.modContext]

@[simp] theorem State.beginChain_fixed (s : State) (e c p chain : Nat) (k : Kicker) :
    (s.beginChain e c p chain k).fixed = s.fixed := (rfl)

@[simp] theorem State.startChain_fixed (s : State) (e c p chain : Nat) (k : Kicker) :
    (s.startChain e c p chain k).fixed = s.fixed := by simp [State.startChain]

@[simp] theorem State.dmaRecord_fixed (s : State) (e c : Nat) (st : Status) (late : Bool) :
    (s.dmaRecord e c st late).fixed = s.fixed := by
  unfold State.dmaRecord
  dsimp only
  split
  · simp
  · split
    · simp
    · split <;> simp

@[simp] theorem State.endLoad_fixed (s : State) (e c : Nat) : (s.endLoad e c).fixed = s.fixed := by
  unfold State.endLoad; split <;> simp

@[simp] theorem State.chainEnd_fixed (s : State) (e c : Nat) (st : Status) (flags : Nat) (halt : Bool) :
    (s.chainEnd e c st flags halt).fixed = s.fixed := by
  unfold State.chainEnd
  extract_lets ch s1 s2 s3
  have h3 : s3.fixed = s.fixed := by simp [s3, s2, s1]
  clear_value s3
  split
  · split <;> simp [h3]
  · exact h3
  · split
    · split <;> simp [h3]
    · exact h3

@[simp] theorem State.acceptAbort_fixed (s : State) (e c : Nat) (st : Status) :
    (s.acceptAbort e c st).fixed = s.fixed := by
  simp only [State.acceptAbort]; split <;> simp

@[simp] theorem State.abortChannel_fixed (s : State) (e c : Nat) (st : Status) :
    (s.abortChannel e c st).fixed = s.fixed := by
  simp only [State.abortChannel]; split <;> simp

@[simp] theorem State.abortJobChannels_fixed (s : State) (p j : Nat) (st : Status) :
    (s.abortJobChannels p j st).fixed = s.fixed := by
  unfold State.abortJobChannels; grind [foldl_fixed, foldl_fixed1, State.abortChannel_fixed]

@[simp] theorem State.towerRecord_fixed (s : State) (t : Nat) (c : TowerCmd) (st : Status)
    (flags progress : Nat) : (s.towerRecord t c st flags progress).fixed = s.fixed :=
  fixed_of_outside (State.towerRecord_outside ..)

@[simp] theorem State.killCommand_fixed (s : State) (t : Nat) (c : TowerCmd) (st : Status)
    (drop silent : Bool) : (s.killCommand t c st drop silent).fixed = s.fixed := by simp [State.killCommand]

@[simp] theorem State.purgeQueue_fixed (s : State) (t : Nat) (sel : TowerCmd → Bool) (st : Status)
    (drop silent : Bool) : (s.purgeQueue t sel st drop silent).fixed = s.fixed := by simp [State.purgeQueue]

@[simp] theorem State.atomicAt_fixed (s : State) (ag : Agent) (p a : Nat) (x : AtomArgs) :
    (s.atomicAt ag p a x).1.fixed = s.fixed := fixed_of_outside (State.atomicAt_outside ..)

@[simp] theorem State.performOp_fixed (s : State) (p c : Nat) (x : InFlight) :
    (s.performOp p c x).1.fixed = s.fixed := by
  simp only [State.performOp]
  repeat' split
  all_goals simp

@[simp] theorem State.performOps_fixed (s : State) (p c : Nat) (sel : InFlight → Bool) (l : List InFlight) :
    (s.performOps p c sel l).1.fixed = s.fixed := by
  fun_induction State.performOps <;> grind [State.performOp_fixed]

@[simp] theorem State.performSel_fixed (s : State) (p c n : Nat) (sel : InFlight → Bool) :
    (s.performSel p c n sel).fixed = s.fixed := by simp [State.performSel]

theorem State.settleBy_fixed (s : State) (p c n : Nat) (sel : InFlight → Bool) :
    ∀ r, s.settleBy p c n sel = some r → r.fixed = s.fixed := by
  simp only [State.settleBy]; split <;> simp

theorem State.settle_fixed (s : State) (p c n a len : Nat) :
    ∀ r, s.settle p c n a len = some r → r.fixed = s.fixed := by
  unfold State.settle; grind [State.settleBy_fixed]

@[simp] theorem State.stopTask_fixed (s : State) (c : Nat) : (s.stopTask c).fixed = s.fixed := by
  unfold State.stopTask; split <;> simp

@[simp] theorem State.purgeJob_fixed (s : State) (p j : Nat) (st : Status) (silent : Bool) :
    (s.purgeJob p j st silent).fixed = s.fixed := by simp [State.purgeJob]

@[simp] theorem State.jobRecord_fixed (s : State) (p : Nat) (record tag : Nat) (st : Status) (core : Nat)
    (late : Bool) (progress : Nat) : (s.jobRecord p record tag st core late progress).fixed = s.fixed := by
  simp [State.jobRecord]

@[simp] theorem State.lowerRefs_fixed (s : State) (p m : Nat) : (s.lowerRefs p m).fixed = s.fixed := by
  simp [State.lowerRefs]

@[simp] theorem State.endCommand_fixed (s : State) (p j : Nat) (st : Status) (late : Bool) :
    (s.endCommand p j st late).fixed = s.fixed := by
  unfold State.endCommand; split <;> simp

@[simp] theorem State.stopJob_fixed (s : State) (p j : Nat) (st : Status) : (s.stopJob p j st).fixed = s.fixed := by
  simp [State.stopJob]

@[simp] theorem State.clearJob_fixed (s : State) (p j : Nat) (st : JobState) :
    (s.clearJob p j st).fixed = s.fixed := (rfl)

@[simp] theorem State.faultJob_fixed (s : State) (p j core : Nat) (st : Status) (cause : Word) :
    (s.faultJob p j core st cause).fixed = s.fixed := by simp [State.faultJob]

@[simp] theorem State.faultTask_fixed (s : State) (core : Nat) (st : Status) (cause : Word) :
    (s.faultTask core st cause).fixed = s.fixed := by
  unfold State.faultTask; split <;> simp

/-! ### Traps and fetch -/

@[simp] theorem State.takeTrap_fixed (s : State) (c : Nat) (t : Trap) (source slots len : Nat)
    (addr : Option Nat) : (s.takeTrap c t source slots len addr).fixed = s.fixed := by simp [State.takeTrap]

@[simp] theorem State.fetchLines_fixed (s : State) (c p : Nat) (n n1 : Nat) :
    (s.fetchLines c p n n1).1.fixed = s.fixed := by
  fun_induction State.fetchLines <;> grind [State.readRun_fixed, State.modCore_fixed]

@[simp] theorem State.fetch_fixed (s : State) (c len : Nat) : (s.fetch c len).1.fixed = s.fixed := by
  unfold State.fetch; split <;> simp

/-! ### Shares and budgets -/

@[simp] theorem State.charge_fixed (s : State) (g n : Nat) : (s.charge g n).fixed = s.fixed := (rfl)

@[simp] theorem State.debit_fixed (s : State) (p j n : Nat) : (s.debit p j n).fixed = s.fixed := (rfl)

/-! ### The clock -/

@[simp] theorem State.tickCore_fixed (s : State) (c : Nat) : (s.tickCore c).fixed = s.fixed := by
  fun_cases State.tickCore <;> rfl

@[simp] theorem State.tickTower_fixed (s : State) (t : Nat) : (s.tickTower t).fixed = s.fixed := by
  simp [State.tickTower]

@[simp] theorem State.clockTick_fixed (s : State) : (s.clockTick).fixed = s.fixed := by
  unfold State.clockTick; grind [State.fixed, foldl_fixed, foldl_fixed1, State.modLanding_fixed,
    State.tickTower_fixed, State.tickCore_fixed]

/-! ### Tiles -/

@[simp] theorem State.writeBits_fixed (s : State) (ag : Agent) (p : Nat) (m : BitWrites) (poison : List Nat) :
    (s.writeBits ag p m poison).1.fixed = s.fixed := fixed_of_outside (State.writeBits_outside ..)

/-! ### The layer sequencer -/

@[simp] theorem State.lcbDesc_fixed (s : State) (ag : Agent) (p : Nat) (q : LayerSeq) (i : Nat) :
    (s.lcbDesc ag p q i).1.fixed = s.fixed := by
  unfold State.lcbDesc; grind [State.createDesc_fixed]

@[simp] theorem State.validateLcb_fixed (s : State) (core p : Nat) (q : LayerSeq) :
    (s.validateLcb core p q).1.fixed = s.fixed := by
  simp only [State.validateLcb]
  repeat' split
  all_goals simp

@[simp] theorem State.loadLcb_fixed (s : State) (core p a : Nat) : (s.loadLcb core p a).fixed = s.fixed := by
  unfold State.loadLcb; grind [State.readRun_fixed, State.modCore_fixed, State.validateLcb_fixed]

@[simp] theorem State.readTile_fixed (s : State) (ag : Agent) (p : Nat) (d : TensorDesc) (rows cols : Nat)
    (at_ : Nat → Nat → Resolved) : (s.readTile ag p d rows cols at_).1.fixed = s.fixed :=
  fixed_of_outside (State.readTile_outside ..)

@[simp] theorem State.writeTile_fixed (s : State) (ag : Agent) (p : Nat) (d : TensorDesc) (r0 c0 : Nat)
    (outer : List Nat) (t : Tile) (rowTag : Nat) : (s.writeTile ag p d r0 c0 outer t rowTag).1.fixed = s.fixed :=
  fixed_of_outside (State.writeTile_outside ..)

@[simp] theorem State.seqIssue_fixed (s : State) (core : Nat) (n : Nat) : (s.seqIssue core n).fixed = s.fixed := by
  fun_induction State.seqIssue <;> grind [State.setTower_fixed, State.setCore_fixed]

@[simp] theorem State.seqTake_fixed (s : State) (core : Nat) (t : RetTile) : (s.seqTake core t).fixed = s.fixed := by
  simp only [State.seqTake]
  split
  · simp
  · split <;> simp

@[simp] theorem State.seqStream_fixed (s : State) (core p word : Nat) (d : TensorDesc) (rows cols : Nat)
    (at_ : Nat → Nat → Resolved) : (s.seqStream core p word d rows cols at_).1.fixed = s.fixed := by
  unfold State.seqStream; grind [State.readTile_fixed, State.modCore_fixed]

@[simp] theorem State.seqMacs_fixed (s : State) (core p : Nat) (q : LayerSeq) (a b : TensorDesc)
    (bt m n rows cols : Nat) (n1 n2 : Nat) (x : AccBank) (x1 : FpFlags) :
    (s.seqMacs core p q a b bt m n rows cols n1 n2 x x1).1.fixed = s.fixed := by
  fun_induction State.seqMacs <;> grind [State.seqStream_fixed]

@[simp] theorem State.seqPlane_fixed (s : State) (core p word : Nat) (d : TensorDesc) (bt m n rows cols : Nat) :
    (s.seqPlane core p word d bt m n rows cols).1.fixed = s.fixed := by simp [State.seqPlane]

@[simp] theorem State.seqSquares_fixed (s : State) (core p : Nat) (q : LayerSeq) (d : TensorDesc)
    (bt m rows : Nat) (n n1 : Nat) (l : List (Val × FpFlags)) (x : Bool) :
    (s.seqSquares core p q d bt m rows n n1 l x).1.fixed = s.fixed := by
  fun_induction State.seqSquares <;> grind [State.seqPlane_fixed]

@[simp] theorem State.seqGemm_fixed (s : State) (core p : Nat) (q : LayerSeq) (r : SliceRun) (a : TensorDesc)
    (b m n rows cols : Nat) : (s.seqGemm core p q r a b m n rows cols).1.fixed = s.fixed := by
  unfold State.seqGemm; split <;> simp

@[simp] theorem State.seqNorm_fixed (s : State) (core p : Nat) (q : LayerSeq) (a bd : TensorDesc) (t : SrcTile)
    (b m n rows cols : Nat) : (s.seqNorm core p q a bd t b m n rows cols).1.fixed = s.fixed := by
  unfold State.seqNorm; grind [State.seqSquares_fixed, State.seqStream_fixed]

@[simp] theorem State.seqProduct_fixed (s : State) (core p : Nat) (q : LayerSeq) (r : SliceRun) (a : TensorDesc)
    (b m n rows cols : Nat) : (s.seqProduct core p q r a b m n rows cols).1.fixed = s.fixed := by
  unfold State.seqProduct; grind [State.seqGemm_fixed, State.seqPlane_fixed, State.seqNorm_fixed]

@[simp] theorem State.seqOperand_fixed (s : State) (core p : Nat) (d : Option TensorDesc) (bias : Bool)
    (b m n rows cols : Nat) : (s.seqOperand core p d bias b m n rows cols).1.fixed = s.fixed := by
  unfold State.seqOperand; split <;> simp

@[simp] theorem State.seqStop_fixed (s : State) (core : Nat) (st : Status) (trap : Option (Option Nat)) :
    (s.seqStop core st trap).fixed = s.fixed := (rfl)

@[simp] theorem State.seqFault_fixed (s : State) (core : Nat) (x : ReadStop) :
    (s.seqFault core x).fixed = s.fixed := by
  cases x <;> simp [State.seqFault]

@[simp] theorem State.seqWrite_fixed (s : State) (core p : Nat) (cd : TensorDesc) (b m n : Nat) (t : Tile) :
    (s.seqWrite core p cd b m n t).fixed = s.fixed := by
  unfold State.seqWrite; grind [State.modCore_fixed, State.seqStop_fixed, State.writeTile_fixed, State.seqFault_fixed]

@[simp] theorem State.seqTile_fixed (s : State) (core p : Nat) (q : LayerSeq) (r : SliceRun) (b m n : Nat) :
    (s.seqTile core p q r b m n).fixed = s.fixed := by
  fun_cases State.seqTile <;> grind [State.seqProduct_fixed, State.seqFault_fixed, State.seqOperand_fixed,
    State.tick_fixed, State.modCore_fixed, State.seqWrite_fixed]

/-! ### Preemption and donation -/

@[simp] theorem State.becomeReady_fixed (s : State) (p j : Nat) : (s.becomeReady p j).fixed = s.fixed := by
  unfold State.becomeReady; split <;> simp

@[simp] theorem State.settleJob_fixed (s : State) (p j : Nat) : (s.settleJob p j).fixed = s.fixed := by
  simp [State.settleJob]

@[simp] theorem State.yieldCores_fixed (s : State) (p j : Nat) : (s.yieldCores p j).fixed = s.fixed := by
  simp [State.yieldCores]

@[simp] theorem State.pauseChannels_fixed (s : State) : (s.pauseChannels).fixed = s.fixed := by
  simp [State.pauseChannels]

@[simp] theorem State.beginPreempt_fixed (s : State) (p j : Nat) : (s.beginPreempt p j).fixed = s.fixed := by
  simp [State.beginPreempt]

@[simp] theorem State.endDonation_fixed (s : State) (p j : Nat) (sem : Option Nat) :
    (s.endDonation p j sem).fixed = s.fixed := by
  unfold State.endDonation; split <;> simp

/-! ### The Keep -/

@[simp] theorem State.accessTower_fixed (s : State) (tower wordAddr : Nat) (engineId : BitVec 16)
    (access : WordAccess) (upset : Upset) : (s.accessTower tower wordAddr engineId access upset).fixed = s.fixed := by
  unfold State.accessTower; split <;> simp

@[simp] theorem State.writeFrames_fixed (s : State) (t i v : Nat) : (s.writeFrames t i v).fixed = s.fixed := (rfl)

@[simp] theorem State.clearCounts_fixed (s : State) (t : Nat) : (s.clearCounts t).fixed = s.fixed := (rfl)

@[simp] theorem State.startSanitise_fixed (s : State) (t : Nat) : (s.startSanitise t).fixed = s.fixed := by
  unfold State.startSanitise
  split
  · exact State.modTower_fixed ..
  · exact State.setRegBit_fixed ..

@[simp] theorem State.writePin_fixed (s : State) (t v : Nat) : (s.writePin t v).fixed = s.fixed := by
  simp [State.writePin]

@[simp] theorem State.startMigration_fixed (s : State) (t frame band : Nat) :
    (s.startMigration t frame band).fixed = s.fixed := by
  unfold State.startMigration
  extract_lets
  split
  · exact State.setReg_fixed ..
  · exact (State.setReg_fixed ..).trans (State.setTower_fixed ..)

@[simp] theorem State.copyWord_fixed (s : State) (pl : Place) (dest n : Nat) :
    (s.copyWord pl dest n).1.fixed = s.fixed := by simp [State.copyWord]

@[simp] theorem State.scrubWord_fixed (s : State) (pl : Place) : (s.scrubWord pl).1.fixed = s.fixed := by
  simp only [State.scrubWord]; split <;> simp

/-! ### Tower commands -/

@[simp] theorem State.readElems_fixed (s : State) (ag : Agent) (p : Nat) (d : TensorDesc) (tag : Nat)
    (l : List Resolved) : (s.readElems ag p d tag l).1.fixed = s.fixed := by simp [State.readElems]

@[simp] theorem State.streamX_fixed (s : State) (t : Nat) (c : TowerCmd) (x : TensorDesc) (int : Bool)
    (n n1 : Nat) : (s.streamX t c x int n n1).1.fixed = s.fixed := by
  fun_induction State.streamX <;> grind [State.readElems_fixed]

@[simp] theorem State.gemvLine_fixed (s : State) (t : Nat) (c : TowerCmd) (w : TensorDesc)
    (tail : Option TensorDesc) (n : Nat) : (s.gemvLine t c w tail n).1.fixed = s.fixed := by
  simp only [State.gemvLine]; split <;> simp

@[simp] theorem State.gemvTile_fixed (s : State) (t : Nat) (c : TowerCmd) (w : TensorDesc)
    (tail : Option TensorDesc) (xs : List Streamed) (first : Nat) (n n1 : Nat) :
    (s.gemvTile t c w tail xs first n n1).1.fixed = s.fixed := by
  fun_induction State.gemvTile <;> grind [State.gemvLine_fixed]

@[simp] theorem State.gemvTiles_fixed (s : State) (t : Nat) (c : TowerCmd) (w : TensorDesc)
    (tail : Option TensorDesc) (xs : List Streamed) (stop : Bool) (n n1 : Nat) :
    (s.gemvTiles t c w tail xs stop n n1).1.fixed = s.fixed := by
  fun_induction State.gemvTiles <;> grind [foldl_fixed, foldl_fixed1, State.gemvTile_fixed]

@[simp] theorem State.runGemv_fixed (s : State) (t : Nat) (c : TowerCmd) (w x : TensorDesc)
    (tail : Option TensorDesc) : (s.runGemv t c w x tail).1.fixed = s.fixed := by
  simp only [State.runGemv]; split <;> simp

@[simp] theorem State.fillRun_fixed (s : State) (t p pattern : Nat) (run : Nat × Nat × Nat) :
    (s.fillRun t p pattern run).1.fixed = s.fixed := by simp [State.fillRun]

@[simp] theorem State.fillRuns_fixed (s : State) (t p pattern : Nat) (l : List (Nat × Nat × Nat)) :
    (s.fillRuns t p pattern l).1.fixed = s.fixed := by
  fun_induction State.fillRuns <;> grind [State.fillRun_fixed]

@[simp] theorem State.runFill_fixed (s : State) (t : Nat) (c : TowerCmd) : (s.runFill t c).1.fixed = s.fixed := by
  simp [State.runFill]

@[simp] theorem State.copyWords_fixed (s : State) (t p a b : Nat) (n : Nat) (x : RunOut) :
    (s.copyWords t p a b n x).1.fixed = s.fixed := by
  fun_induction State.copyWords <;> grind [State.readWord_fixed, State.writeWord_fixed]

@[simp] theorem State.initFrames_fixed (s : State) (t : Nat) (runs : List (Nat × Nat × Nat)) :
    (s.initFrames t runs).fixed = s.fixed := (rfl)

@[simp] theorem State.runCopy_fixed (s : State) (t : Nat) (c : TowerCmd) : (s.runCopy t c).1.fixed = s.fixed := by
  simp [State.runCopy]

@[simp] theorem State.writeLine_fixed (s : State) (ag : Agent) (p : Nat) (d : TensorDesc) (n lo : Nat)
    (l : List (Nat × Nat × Bool)) (tag : Nat) : (s.writeLine ag p d n lo l tag).1.fixed = s.fixed := by
  simp [State.writeLine]

@[simp] theorem State.xformLines_fixed (s : State) (ag : Agent) (p : Nat) (x y : TensorDesc) (mode : Rounding)
    (ovf : Bool) (tag : Nat) (n n1 : Nat) (x1 : RunOut) :
    (s.xformLines ag p x y mode ovf tag n n1 x1).1.fixed = s.fixed := by
  fun_induction State.xformLines <;> grind [State.readElems_fixed, State.writeLine_fixed]

@[simp] theorem State.runXform_fixed (s : State) (t : Nat) (c : TowerCmd) (x y : TensorDesc) :
    (s.runXform t c x y).1.fixed = s.fixed := by simp [State.runXform]

@[simp] theorem State.reduceLines_fixed (s : State) (t p : Nat) (x : TensorDesc) (rop : Nat) (n n1 : Nat) :
    (s.reduceLines t p x rop n n1).1.fixed = s.fixed := by
  fun_induction State.reduceLines <;> grind [State.readElems_fixed]

@[simp] theorem State.runReduce_fixed (s : State) (t : Nat) (c : TowerCmd) (x : TensorDesc) :
    (s.runReduce t c x).1.fixed = s.fixed := by simp [State.runReduce]

@[simp] theorem State.scrubRun_fixed (s : State) (t : Nat) (run : Nat × Nat × Nat) :
    (s.scrubRun t run).1.fixed = s.fixed := by simp [State.scrubRun]

@[simp] theorem State.runScrub_fixed (s : State) (t : Nat) (c : TowerCmd) : (s.runScrub t c).1.fixed = s.fixed := by
  simp [State.runScrub]

/-! ### Volath flits -/

@[simp] theorem State.setPhase_fixed (s : State) (l ph : Nat) : (s.setPhase l ph).fixed = s.fixed := by
  simp [State.setPhase]

@[simp] theorem State.countReg_fixed (s : State) (a n : Nat) : (s.countReg a n).fixed = s.fixed := (rfl)

@[simp] theorem State.freeBuffer_fixed (s : State) (x : Nat × Nat) : (s.freeBuffer x).fixed = s.fixed := (rfl)

@[simp] theorem State.pumpLink_fixed (s : State) (l : Nat) : (s.pumpLink l).fixed = s.fixed := by simp [State.pumpLink]

@[simp] theorem State.sendIdle_fixed (s : State) (l : Nat) (nak : Bool) : (s.sendIdle l nak).fixed = s.fixed := (rfl)

@[simp] theorem State.logDrop_fixed (s : State) (from_ : Option Nat) (f : Flit) (reason : Nat) :
    (s.logDrop from_ f reason).fixed = s.fixed := by simp [State.logDrop]

@[simp] theorem State.forward_fixed (s : State) (from_ : Option Nat) (here : Nat) (f : Flit) :
    (s.forward from_ here f).1.fixed = s.fixed := by
  unfold State.forward; split <;> simp

@[simp] theorem State.sendFlit_fixed (s : State) (from_ : Option Nat) (here : Nat) (f : Flit) :
    (s.sendFlit from_ here f).fixed = s.fixed := by
  unfold State.sendFlit; grind [foldl_fixed, foldl_fixed1, State.forward_fixed, State.freeBuffer_fixed,
    State.logDrop_fixed]

@[simp] theorem State.refuse_fixed (s : State) (l : Nat) (f : Flit) : (s.refuse l f).fixed = s.fixed := by
  simp [State.refuse]

@[simp] theorem State.performWrite_fixed (s : State) (l : Nat) (f : Flit) : (s.performWrite l f).fixed = s.fixed := by
  simp [State.performWrite]

@[simp] theorem State.performRead_fixed (s : State) (l : Nat) (f : Flit) : (s.performRead l f).fixed = s.fixed := by
  simp [State.performRead]

@[simp] theorem State.performAtomic_fixed (s : State) (l : Nat) (f : Flit) :
    (s.performAtomic l f).fixed = s.fixed := by
  unfold State.performAtomic; grind [State.refuse_fixed, State.atomicAt_fixed, State.sendFlit_fixed]

@[simp] theorem State.performCblock_fixed (s : State) (l : Nat) (f : Flit) :
    (s.performCblock l f).fixed = s.fixed := by
  simp [State.performCblock]

@[simp] theorem State.logFarStore_fixed (s : State) (l : Nat) (f : Flit) (a : Nat) :
    (s.logFarStore l f a).fixed = s.fixed := by simp [State.logFarStore]

@[simp] theorem State.haltByTag_fixed (s : State) (tag : Nat) (st : Status) :
    (s.haltByTag tag st).fixed = s.fixed := by
  simp only [State.haltByTag]
  split
  · simp
  · split <;> simp

@[simp] theorem State.takeAnswer_fixed (s : State) (l : Nat) (f : Flit) : (s.takeAnswer l f).fixed = s.fixed := by
  unfold State.takeAnswer; grind [State.fixed, State.haltByTag_fixed, State.logFarStore_fixed, State.modCore_fixed]

/-! ### DMA transfers -/

@[simp] theorem State.readSegs_fixed (s : State) (e p : Nat) (l : List (Nat × Nat)) :
    (s.readSegs e p l).1.fixed = s.fixed := fixed_of_outside (State.readSegs_outside ..)

@[simp] theorem State.putMarked_fixed (s : State) (e p : Nat) (n n1 : Nat) (l : List (Byte × Bool)) :
    (s.putMarked e p n n1 l).1.fixed = s.fixed := fixed_of_outside (State.putMarked_outside ..)

@[simp] theorem State.writeSegs_fixed (s : State) (e p : Nat) (l : List (Nat × Nat)) (l1 : List (Byte × Bool)) :
    (s.writeSegs e p l l1).1.fixed = s.fixed := fixed_of_outside (State.writeSegs_outside ..)

@[simp] theorem State.sendDma_fixed (s : State) (e c : Nat) (f : Flit) : (s.sendDma e c f).fixed = s.fixed := by
  unfold State.sendDma; split <;> simp

@[simp] theorem State.sendWrites_fixed (s : State) (e c p : Nat) (d : DmaDesc) (n n1 : Nat)
    (l : List (Byte × Bool)) : (s.sendWrites e c p d n n1 l).fixed = s.fixed := by
  fun_induction State.sendWrites <;> grind [State.sendDma_fixed]

@[simp] theorem State.sendBlock_fixed (s : State) (e c p : Nat) (d : DmaDesc) (x : Nat) (first : Bool) (n : Nat)
    (l : List Byte) : (s.sendBlock e c p d x first n l).fixed = s.fixed := by
  fun_induction State.sendBlock <;> grind [State.sendDma_fixed]

@[simp] theorem State.dmaTensor_fixed (s : State) (e p a : Nat) (want : Bool) :
    (s.dmaTensor e p a want).1.fixed = s.fixed := by
  unfold State.dmaTensor; grind [State.createDesc_fixed]

@[simp] theorem State.placementOk_fixed (s : State) (e c p : Nat) (d : DmaDesc) (k : DmaKind)
    (x y : Option TensorDesc) : (s.placementOk e c p d k x y).1.fixed = s.fixed := by
  unfold State.placementOk; grind [State.readSegs_fixed]

@[simp] theorem State.checkDma_fixed (s : State) (e c p n : Nat) (d : DmaDesc) :
    (s.checkDma e c p n d).1.fixed = s.fixed := by
  unfold State.checkDma; grind [State.dmaTensor_fixed, State.placementOk_fixed]

@[simp] theorem State.advance_fixed (s : State) (e c n : Nat) (count : Bool) :
    (s.advance e c n count).fixed = s.fixed := by
  simp only [State.advance]; split <;> simp

@[simp] theorem State.tileDone_fixed (s : State) (e c : Nat) (final : Bool) :
    (s.tileDone e c final).fixed = s.fixed := (rfl)

@[simp] theorem State.itemDone_fixed (s : State) (e c : Nat) (final : Bool) :
    (s.itemDone e c final).fixed = s.fixed := (rfl)

@[simp] theorem State.passed_fixed (s : State) (e c n : Nat) : (s.passed e c n).fixed = s.fixed := (rfl)

theorem State.midTile_fixed (s : State) (e c size : Nat) : ∀ r, s.midTile e c size = some r → r.fixed = s.fixed := by
  simp [State.midTile]

@[simp] theorem State.tileEnd_fixed (s : State) (e c size : Nat) : (s.tileEnd e c size).fixed = s.fixed := (rfl)

@[simp] theorem State.deliverBytes_fixed (s : State) (e c : Nat) (d : DmaDesc) (l : List (Byte × Bool)) :
    (s.deliverBytes e c d l).1.fixed = s.fixed := by simp [State.deliverBytes]

@[simp] theorem State.drain_fixed (s : State) (e c n : Nat) : (s.drain e c n).fixed = s.fixed := (rfl)

@[simp] theorem State.deliverExpanded_fixed (s : State) (e c : Nat) (d : DmaDesc) :
    (s.deliverExpanded e c d).1.fixed = s.fixed := by
  unfold State.deliverExpanded; grind [State.drain_fixed, State.passed_fixed, State.deliverBytes_fixed,
    State.modChan_fixed]

@[simp] theorem State.notePoison_fixed (s : State) (e c : Nat) (poison check : Bool) :
    (s.notePoison e c poison check).fixed = s.fixed := (rfl)

@[simp] theorem State.copyUnit_fixed (s : State) (e c : Nat) (d : DmaDesc) :
    (s.copyUnit e c d).1.fixed = s.fixed := by
  unfold State.copyUnit; grind [foldl_fixed, foldl_fixed1, State.passed_fixed, State.readSegs_fixed,
    State.sendWrites_fixed, State.advance_fixed, State.notePoison_fixed, State.itemDone_fixed,
    State.deliverBytes_fixed]

@[simp] theorem State.gather_fixed (s : State) (e c : Nat) (d : DmaDesc) (size : Nat) :
    (s.gather e c d size).1.fixed = s.fixed := by
  unfold State.gather; grind [State.passed_fixed, State.readSegs_fixed, State.modChan_fixed]

@[simp] theorem State.writeIndex_fixed (s : State) (e p : Nat) (d : DmaDesc) (k v : Nat) :
    (s.writeIndex e p d k v).1.fixed = s.fixed := by simp [State.writeIndex]

@[simp] theorem State.compressUnit_fixed (s : State) (e c : Nat) (d : DmaDesc) :
    (s.compressUnit e c d).1.fixed = s.fixed := by
  unfold State.compressUnit; grind [State.gather_fixed, State.putMarked_fixed, State.modChan_fixed,
    State.advance_fixed, State.writeIndex_fixed, State.itemDone_fixed]

@[simp] theorem State.linkUnit_fixed (s : State) (e c : Nat) (d : DmaDesc) :
    (s.linkUnit e c d).1.fixed = s.fixed := by
  unfold State.linkUnit; grind [State.gather_fixed, State.sendBlock_fixed, State.advance_fixed, State.itemDone_fixed]

@[simp] theorem State.blockPlace_fixed (s : State) (e c : Nat) (d : DmaDesc) :
    (s.blockPlace e c d).1.fixed = s.fixed := by
  unfold State.blockPlace; grind [State.readSegs_fixed]

@[simp] theorem State.takeBlock_fixed (s : State) (e c size : Nat) (slot : Option Nat) (l : List (Byte × Bool))
    (lost : Bool) : (s.takeBlock e c size slot l lost).fixed = s.fixed := (rfl)

@[simp] theorem State.expandNext_fixed (s : State) (e c : Nat) (d : DmaDesc) :
    (s.expandNext e c d).1.fixed = s.fixed := by
  fun_cases State.expandNext <;> grind [State.blockPlace_fixed, State.readSegs_fixed, State.takeBlock_fixed]

@[simp] theorem State.kn4Next_fixed (s : State) (e c : Nat) (d : DmaDesc) : (s.kn4Next e c d).1.fixed = s.fixed := by
  unfold State.kn4Next; grind [State.readSegs_fixed, State.takeBlock_fixed]

@[simp] theorem State.takeNext_fixed (s : State) (e c : Nat) (d : DmaDesc) (kn4 : Bool) :
    (s.takeNext e c d kn4).1.fixed = s.fixed := by
  unfold State.takeNext; grind [State.kn4Next_fixed, State.expandNext_fixed, State.notePoison_fixed]

@[simp] theorem State.expandUnit_fixed (s : State) (e c : Nat) (d : DmaDesc) (kn4 : Bool) :
    (s.expandUnit e c d kn4).1.fixed = s.fixed := by
  unfold State.expandUnit; grind [State.takeNext_fixed, State.deliverExpanded_fixed]

@[simp] theorem State.tableUnit_fixed (s : State) (e c : Nat) (d : DmaDesc) :
    (s.tableUnit e c d).1.fixed = s.fixed := by
  unfold State.tableUnit; grind [State.readSegs_fixed, State.modEngine_fixed, State.modChan_fixed,
    State.itemDone_fixed]

@[simp] theorem State.readCodes_fixed (s : State) (e p : Nat) (x : TensorDesc) (l : List Resolved) :
    (s.readCodes e p x l).1.fixed = s.fixed := by simp [State.readCodes]

@[simp] theorem State.tensorLine_fixed (s : State) (e p : Nat) (d : DmaDesc) (x y : TensorDesc)
    (l : List Resolved) : (s.tensorLine e p d x y l).1.fixed = s.fixed := by simp [State.tensorLine]

@[simp] theorem State.tensorUnit_fixed (s : State) (e c : Nat) (d : DmaDesc) (x y : TensorDesc) :
    (s.tensorUnit e c d x y).1.fixed = s.fixed := by
  unfold State.tensorUnit; grind [State.tensorLine_fixed, State.writeLine_fixed, State.advance_fixed,
    State.notePoison_fixed, State.modChan_fixed, State.itemDone_fixed]

@[simp] theorem State.sourceTile_fixed (s : State) (e p : Nat) (d : DmaDesc) (x : TensorDesc) (ext : List Nat)
    (t : Nat × Nat × Nat × Nat × List Nat) (last : Bool) : (s.sourceTile e p d x ext t last).1.fixed = s.fixed := by
  simp [State.sourceTile]

@[simp] theorem State.pushTile_fixed (s : State) (e c : Nat) (kq : Nat × Nat) (t : Tile) (last : Bool)
    (check : Bool) : (s.pushTile e c kq t last check).fixed = s.fixed := by simp [State.pushTile]

@[simp] theorem State.toQueueUnit_fixed (s : State) (e c : Nat) (d : DmaDesc) (x : TensorDesc) :
    (s.toQueueUnit e c d x).1.fixed = s.fixed := by
  unfold State.toQueueUnit; grind [State.midTile_fixed, State.tileEnd_fixed, State.sourceTile_fixed,
    State.modChan_fixed, State.pushTile_fixed]

@[simp] theorem State.toQueueCoded_fixed (s : State) (e c : Nat) (d : DmaDesc) (kn4 : Bool) :
    (s.toQueueCoded e c d kn4).1.fixed = s.fixed := by
  unfold State.toQueueCoded; grind [State.takeNext_fixed, State.midTile_fixed, State.tileEnd_fixed,
    State.drain_fixed, State.pushTile_fixed]

@[simp] theorem State.fromQueueUnit_fixed (s : State) (e c : Nat) (y : TensorDesc) :
    (s.fromQueueUnit e c y).1.fixed = s.fixed := by
  unfold State.fromQueueUnit; grind [State.midTile_fixed, State.tileEnd_fixed, State.modCore_fixed,
    State.writeTile_fixed, State.advance_fixed, State.notePoison_fixed, State.modChan_fixed, State.tileDone_fixed]

@[simp] theorem State.moveUnit_fixed (s : State) (e c : Nat) (d : DmaDesc) :
    (s.moveUnit e c d).1.fixed = s.fixed := by
  simp only [State.moveUnit]; split <;> simp

/-! ### DMA commands -/

@[simp] theorem State.kick_fixed (s : State) (e c chain : Nat) : (s.kick e c chain).fixed = s.fixed := by
  simp [State.kick]

@[simp] theorem State.kickHost_fixed (s : State) (p engine c chain : Nat) :
    (s.kickHost p engine c chain).fixed = s.fixed := by simp [State.kickHost]

theorem State.payDma_fixed (s : State) (e c n : Nat) (cls : Nat) :
    ∀ r, s.payDma e c n cls = some r → r.fixed = s.fixed := by
  simp only [State.payDma]
  split
  · simp
  · split <;> simp

@[simp] theorem State.parkChannel_fixed (s : State) (e c : Nat) (st : ChState) (r : ParkReason) :
    (s.parkChannel e c st r).fixed = s.fixed := (rfl)

@[simp] theorem State.haltChannel_fixed (s : State) (e c : Nat) (st : Status) :
    (s.haltChannel e c st).fixed = s.fixed := by simp [State.haltChannel]

@[simp] theorem State.takeDesc_fixed (s : State) (e c addr : Nat) (d : DmaDesc) :
    (s.takeDesc e c addr d).fixed = s.fixed := (rfl)

@[simp] theorem State.readDma_fixed (s : State) (e p a : Nat) : (s.readDma e p a).1.fixed = s.fixed :=
  fixed_of_outside (State.readDma_outside ..)

@[simp] theorem State.markLoad_fixed (s : State) (e c : Nat) : (s.markLoad e c).fixed = s.fixed := by
  unfold State.markLoad; split <;> simp

@[simp] theorem State.startDesc_fixed (s : State) (e c p n : Nat) (d : DmaDesc) :
    (s.startDesc e c p n d).fixed = s.fixed := by
  unfold State.startDesc; grind [State.checkDma_fixed, State.haltChannel_fixed, State.modChan_fixed,
    State.markLoad_fixed]

@[simp] theorem State.afterUnit_fixed (s : State) (e c before : Nat) : (s.afterUnit e c before).fixed = s.fixed := by
  simp [State.afterUnit]

@[simp] theorem State.burst_fixed (s : State) (e : Nat) : (s.burst e).fixed = s.fixed := by
  fun_cases State.burst <;> grind [State.acceptAbort_fixed, State.parkChannel_fixed, State.payDma_fixed,
    State.moveUnit_fixed, State.afterUnit_fixed, State.haltChannel_fixed]

@[simp] theorem State.runUnits_fixed (s : State) (e : Nat) (ks : List DmaKind) (n : Nat) :
    (s.runUnits e ks n).fixed = s.fixed := by fun_induction State.runUnits <;> simp [*]

@[simp] theorem State.expandArrival_fixed (s : State) (e : Nat) (b : CBlock) :
    (s.expandArrival e b).fixed = s.fixed := by
  simp only [State.expandArrival]
  repeat' split
  all_goals simp

/-! ### Aldeah -/

@[simp] theorem State.modAldeah_fixed (s : State) (f : Aldeah → Aldeah) : (s.modAldeah f).fixed = s.fixed := (rfl)

@[simp] theorem State.stageImage_fixed (s : State) (ucode b : Bool) (off : Nat) (bs : List Byte) :
    (s.stageImage ucode b off bs).fixed = s.fixed := (rfl)

@[simp] theorem State.writeDirectory_fixed (s : State) (d : Directory) : (s.writeDirectory d).fixed = s.fixed := by
  fun_cases State.writeDirectory <;> rfl

@[simp] theorem State.writeSettings_fixed (s : State) (bs : List Byte) : (s.writeSettings bs).fixed = s.fixed := by
  unfold State.writeSettings
  extract_lets
  split <;> rfl

@[simp] theorem State.copyLog_fixed (s : State) : (s.copyLog).fixed = s.fixed := by simp [State.copyLog]

@[simp] theorem State.logEntry_fixed (s : State) (typ : Nat) (body : List Byte) (urgent : Bool) :
    (s.logEntry typ body urgent).fixed = s.fixed := by simp [State.logEntry]

@[simp] theorem State.aldeahTakes_fixed (s : State) (r : ErrRec) : (s.aldeahTakes r).fixed = s.fixed := by
  unfold State.aldeahTakes; grind [State.fixed, State.logEntry_fixed]

@[simp] theorem State.setDown_fixed (s : State) (b : Bool) : (s.setDown b).fixed = s.fixed := by simp [State.setDown]

@[simp] theorem State.respond_fixed (s : State) (st : Status) (payload : List Byte) :
    (s.respond st payload).fixed = s.fixed := (rfl)

@[simp] theorem State.handle_fixed (s : State) (code : Nat) (f : List Byte → State)
    (h : ∀ x, (f x).fixed = s.fixed) : (s.handle code f).fixed = s.fixed := by
  fun_cases State.handle <;> simp [*]

@[simp] theorem State.loadUcode_fixed (s : State) (p : Nat) (b : Bool) : (s.loadUcode p b).fixed = s.fixed := by
  simp [State.loadUcode]

@[simp] theorem State.endUcode_fixed (s : State) (old : Bool) (st : Status) :
    (s.endUcode old st).fixed = s.fixed := by
  unfold State.endUcode; split <;> simp

@[simp] theorem State.abortUcode_fixed (s : State) (p : Nat) : (s.abortUcode p).fixed = s.fixed := by
  unfold State.abortUcode; split <;> simp

/-! ### The dispatcher -/

@[simp] theorem State.enableJob_fixed (s : State) (p j : Nat) : (s.enableJob p j).fixed = s.fixed := by
  simp [State.enableJob]

@[simp] theorem State.disableJob_fixed (s : State) (p j : Nat) : (s.disableJob p j).fixed = s.fixed := by
  simp [State.disableJob]

@[simp] theorem State.resumeChannels_fixed (s : State) : (s.resumeChannels).fixed = s.fixed := by
  simp [State.resumeChannels]

@[simp] theorem State.afterCommand_fixed (s : State) (p j : Nat) : (s.afterCommand p j).fixed = s.fixed := by
  simp [State.afterCommand]

@[simp] theorem State.endEntry_fixed (s : State) (p j : Nat) (r : RunCmd) (st : Status) :
    (s.endEntry p j r st).fixed = s.fixed := by simp [State.endEntry]

@[simp] theorem State.readArgs_fixed (s : State) (p : Nat) (r : RunCmd) : (s.readArgs p r).1.fixed = s.fixed :=
  fixed_of_outside (State.readArgs_outside ..)

@[simp] theorem State.readEntry_fixed (s : State) (p j : Nat) : (s.readEntry p j).1.fixed = s.fixed :=
  fixed_of_outside (State.readEntry_outside ..)

@[simp] theorem State.advanceHead_fixed (s : State) (p j : Nat) : (s.advanceHead p j).fixed = s.fixed := (rfl)

@[simp] theorem State.readModel_fixed (s : State) (p m : Nat) : (s.readModel p m).1.fixed = s.fixed := by
  simp [State.readModel]

@[simp] theorem State.writeModel_fixed (s : State) (p m off n v : Nat) :
    (s.writeModel p m off n v).fixed = s.fixed := by
  simp [State.writeModel]

@[simp] theorem State.setModelState_fixed (s : State) (p m st : Nat) : (s.setModelState p m st).fixed = s.fixed := by
  simp [State.setModelState]

@[simp] theorem State.hotModels_fixed (s : State) (p : Nat) (n : Nat) : (s.hotModels p n).1.fixed = s.fixed := by
  fun_induction State.hotModels <;> grind [State.readModel_fixed]

@[simp] theorem State.hotPlace_fixed (s : State) (p n : Nat) (held : List (Nat × ModelEntry)) (n1 : Nat) :
    (s.hotPlace p n held n1).1.fixed = s.fixed := by
  fun_induction State.hotPlace <;> grind [State.setModelState_fixed, State.tick_fixed]

@[simp] theorem State.startLoad_fixed (s : State) (p j m which place : Nat) (d : DmaDesc) :
    (s.startLoad p j m which place d).fixed = s.fixed := by simp [State.startLoad]

@[simp] theorem State.failCommand_fixed (s : State) (p j : Nat) (st : Status) :
    (s.failCommand p j st).fixed = s.fixed := by simp [State.failCommand]

@[simp] theorem State.modelStep_fixed (s : State) (p j : Nat) (r : RunCmd) : (s.modelStep p j r).fixed = s.fixed := by
  generalize hf : @State.modelStep = f
  delta State.modelStep at hf
  have hread := @State.readModel_fixed
  have hmodels := @State.hotModels_fixed
  have hplace := @State.hotPlace_fixed
  generalize @State.readModel = read, @State.hotModels = models, @State.hotPlace = place at hread hmodels hplace hf
  as_aux_lemma =>
    subst hf
    dsimp only
    split
    next h => simp [fixed_of_eq h (hread ..)]
    next h =>
      have h := fixed_of_eq h (hread ..)
      split
      · simp [h]
      · split
        · simp [h]
        · split
          · simp [h]
          · split
            · split <;> simp [h]
            · split
              · simp [h]
              · split
                · simp [h]
                · split
                  · simp [h]
                  · split
                    next h' => simp [fixed_of_eq h' (hplace ..), hmodels, h]
                    next h' => simp [fixed_of_eq h' (hplace ..), hmodels, h]

@[simp] theorem State.startRun_fixed (s : State) (p j : Nat) (r : RunCmd) : (s.startRun p j r).fixed = s.fixed := by
  simp [State.startRun]

@[simp] theorem State.takeEntry_fixed (s : State) (p j n : Nat) : (s.takeEntry p j n).fixed = s.fixed := by
  unfold State.takeEntry; grind [State.endEntry_fixed, State.afterCommand_fixed, State.readArgs_fixed,
    State.startRun_fixed]

@[simp] theorem State.placeTask_fixed (s : State) (p j c : Nat) (r : RunCmd) :
    (s.placeTask p j c r).fixed = s.fixed := by
  unfold State.placeTask; grind [State.readArgs_fixed, State.stopJob_fixed, State.endCommand_fixed,
    State.afterCommand_fixed, State.wake_fixed, State.charge_fixed, State.modCore_fixed, State.modJob_fixed]

@[simp] theorem State.savePieces_fixed (s : State) (p base : Nat) (l : List (Nat × Nat × Memory)) :
    (s.savePieces p base l).1.fixed = s.fixed := by
  fun_induction State.savePieces <;> grind [State.writeRun_fixed]

@[simp] theorem State.saveCores_fixed (s : State) (p j : Nat) (l : List Nat) :
    (s.saveCores p j l).1.fixed = s.fixed := by
  fun_induction State.saveCores <;> grind [State.tick_fixed, State.savePieces_fixed]

@[simp] theorem State.loadPiece_fixed (s : State) (p a n : Nat) : (s.loadPiece p a n).1.fixed = s.fixed := by
  simp [State.loadPiece]

@[simp] theorem State.loadTiles_fixed (s : State) (p base : Nat) (l : List (Nat × Nat)) (x : Memory) :
    (s.loadTiles p base l x).1.fixed = s.fixed := by
  fun_induction State.loadTiles <;> grind [State.loadPiece_fixed]

@[simp] theorem State.loadCore_fixed (s : State) (p j : Nat) (x : SavedCore) :
    (s.loadCore p j x).1.fixed = s.fixed := by
  generalize hf : @State.loadCore = f
  delta State.loadCore at hf
  have htiles := @State.loadTiles_fixed
  have hpiece := @State.loadPiece_fixed
  generalize @State.loadTiles = tiles, @State.loadPiece = piece at htiles hpiece hf
  as_aux_lemma =>
    subst hf
    grind [State.tick_fixed]

@[simp] theorem State.rejoinWaits_fixed (s : State) (p c : Nat) (k : Core) :
    (s.rejoinWaits p c k).fixed = s.fixed := (rfl)

@[simp] theorem State.loadCores_fixed (s : State) (p j : Nat) (l : List SavedCore) :
    (s.loadCores p j l).1.fixed = s.fixed := by
  fun_induction State.loadCores <;> grind [State.loadCore_fixed, State.setCore_fixed, State.rejoinWaits_fixed]

@[simp] theorem State.abortEntries_fixed (s : State) (p j : Nat) (n : Nat) :
    (s.abortEntries p j n).fixed = s.fixed := by
  fun_induction State.abortEntries <;> grind [State.readEntry_fixed, State.endEntry_fixed, State.advanceHead_fixed]

@[simp] theorem State.unhalt_fixed (s : State) (p j : Nat) : (s.unhalt p j).fixed = s.fixed := by simp [State.unhalt]

@[simp] theorem State.killJob_fixed (s : State) (p j window : Nat) (st : Status) :
    (s.killJob p j window st).fixed = s.fixed := by
  unfold State.killJob; split <;> simp

@[simp] theorem State.dropLoad_fixed (s : State) (p j : Nat) (st : Status) : (s.dropLoad p j st).fixed = s.fixed := by
  unfold State.dropLoad; split <;> simp

@[simp] theorem State.finishKill_fixed (s : State) (p j : Nat) : (s.finishKill p j).fixed = s.fixed := by
  simp [State.finishKill]

@[simp] theorem State.preemptRivals_fixed (s : State) (p h : Nat) : (s.preemptRivals p h).fixed = s.fixed := by
  simp [State.preemptRivals]

@[simp] theorem State.donate_fixed (s : State) (p w sem : Nat) (n : Nat) : (s.donate p w sem n).fixed = s.fixed := by
  fun_induction State.donate <;> grind [foldl_fixed, foldl_fixed1, State.modJob_fixed, State.beginPreempt_fixed,
    State.preemptRivals_fixed]

/-! ### Job commands -/

@[simp] theorem State.clearFault_fixed (s : State) (p j : Nat) : (s.clearFault p j).fixed = s.fixed := by
  simp [State.clearFault]

@[simp] theorem State.writePjobCtl_fixed (s : State) (p j v : Nat) : (s.writePjobCtl p j v).fixed = s.fixed := by
  simp [State.writePjobCtl]

@[simp] theorem State.writeTail_fixed (s : State) (p j : Nat) (tail : Word) :
    (s.writeTail p j tail).fixed = s.fixed := by simp [State.writeTail]

@[simp] theorem State.wakeJob_fixed (s : State) (p j : Nat) : (s.wakeJob p j).fixed = s.fixed := by
  simp [State.wakeJob]

@[simp] theorem State.endSlice_fixed (s : State) (p j : Nat) : (s.endSlice p j).fixed = s.fixed := by
  simp [State.endSlice]

/-! ### Staged appends and sequence tables -/

@[simp] theorem State.readSeq_fixed (s : State) (t p a : Nat) : (s.readSeq t p a).1.fixed = s.fixed :=
  fixed_of_outside (State.readSeq_outside ..)

@[simp] theorem State.saveSeq_fixed (s : State) (t p : Nat) (q : SeqTable) : (s.saveSeq t p q).1.fixed = s.fixed := by
  simp [State.saveSeq]

@[simp] theorem State.readKeep_fixed (s : State) (t p a : Nat) : (s.readKeep t p a).1.fixed = s.fixed :=
  fixed_of_outside (State.readKeep_outside ..)

theorem State.fixed_of_readKeep {s n : State} {t p a : Nat} {x : Except Status Nat} :
    s.readKeep t p a = (n, x) → n.fixed = s.fixed := fun h => fixed_of_eq h (s.readKeep_fixed ..)

@[simp] theorem State.pageEntry_fixed (s : State) (t p : Nat) (q : SeqTable) (k : Nat) :
    (s.pageEntry t p q k).1.fixed = s.fixed := fixed_of_outside (State.pageEntry_outside ..)

theorem State.fixed_of_pageEntry {s n : State} {t p : Nat} {q : SeqTable} {k : Nat} {x : Except Status Nat} :
    s.pageEntry t p q k = (n, x) → n.fixed = s.fixed := fun h => fixed_of_eq h (s.pageEntry_fixed ..)

@[simp] theorem State.poolRecord_fixed (s : State) (t p : Nat) : (s.poolRecord t p).1.fixed = s.fixed := by
  fun_cases State.poolRecord <;> grind [State.readRun_fixed]

theorem State.fixed_of_poolRecord {s n : State} {t p : Nat} {x : Except Status (Nat × Nat)} :
    s.poolRecord t p = (n, x) → n.fixed = s.fixed := fun h => fixed_of_eq h (s.poolRecord_fixed ..)

@[simp] theorem State.takePage_fixed (s : State) (t p rows : Nat) : (s.takePage t p rows).1.fixed = s.fixed := by
  refine fst_fixed fun n x h => ?_
  generalize hf : @State.takePage = f at h
  delta State.takePage at hf
  subst hf
  beta_reduce at h
  repeat' split at h
  all_goals
    rw [Prod.mk.injEq] at h
    grind [→ State.fixed_of_poolRecord, → State.fixed_of_readKeep, State.writeRun_fixed]

theorem State.fixed_of_takePage {s n : State} {t p rows : Nat} {x : Except Status Nat} :
    s.takePage t p rows = (n, x) → n.fixed = s.fixed := fun h => fixed_of_eq h (s.takePage_fixed ..)

@[simp] theorem State.releasePage_fixed (s : State) (t p e : Nat) : (s.releasePage t p e).1.fixed = s.fixed := by
  generalize hf : @State.releasePage = f
  delta State.releasePage at hf
  have hrecord := @State.poolRecord_fixed
  have hwrite := @State.writeRun_fixed
  generalize @State.poolRecord = record, @State.writeRun = write at hrecord hwrite hf
  as_aux_lemma =>
    subst hf
    grind

theorem State.fixed_of_releasePage {s n : State} {t p e : Nat} {x : Bool} :
    s.releasePage t p e = (n, x) → n.fixed = s.fixed := fun h => fixed_of_eq h (s.releasePage_fixed ..)

@[simp] theorem State.readRow_fixed (s : State) (t p a : Nat) : (s.readRow t p a).1.fixed = s.fixed := by
  simp [State.readRow]

@[simp] theorem State.writeRow_fixed (s : State) (t p a : Nat) (m : Memory) (poison : List Nat) :
    (s.writeRow t p a m poison).1.fixed = s.fixed := by simp [State.writeRow]

@[simp] theorem State.copyPage_fixed (s : State) (t p : Nat) (q : SeqTable) (src dst u : Nat) (l : List Nat) :
    (s.copyPage t p q src dst u l).1.fixed = s.fixed := by
  generalize hf : @State.copyPage = f
  delta State.copyPage State.copyPage._f at hf
  have hread := @State.readRow_fixed
  have hwrite := @State.writeRow_fixed
  generalize @State.readRow = read, @State.writeRow = write at hread hwrite hf
  as_aux_lemma =>
    subst hf
    refine listBrecOn_induction (C := State → State × Option Bool) (P := fun g => ∀ s, (g s).1.fixed = s.fixed)
      (fun _ => rfl) (fun r l g ih s => ?_) l s
    dsimp only
    grind

theorem State.fixed_of_copyPage {s n : State} {t p : Nat} {q : SeqTable} {src dst u : Nat} {l : List Nat}
    {x : Option Bool} : s.copyPage t p q src dst u l = (n, x) → n.fixed = s.fixed :=
  fun h => fixed_of_eq h (s.copyPage_fixed ..)

@[simp] theorem State.writeRows_fixed (s : State) (t p : Nat) (q : SeqTable) (dst lo hi : Nat)
    (entry : Nat → Staged) : (s.writeRows t p q dst lo hi entry).1.fixed = s.fixed := by
  generalize hf : @State.writeRows = f
  delta State.writeRows at hf
  have hwrite := @State.writeRow_fixed
  have hread := @State.readRow_fixed
  generalize @State.writeRow = write, @State.readRow = read at hwrite hread hf
  as_aux_lemma =>
    subst hf
    refine foldl_fixed1 _ _ _ fun x hr => ?_
    grind

@[simp] theorem State.pageFor_fixed (s : State) (t p : Nat) (q : SeqTable) (k : Nat) :
    (s.pageFor t p q k).1.fixed = s.fixed := by
  refine fst_fixed fun n x h => ?_
  generalize hf : @State.pageFor = f at h
  delta State.pageFor at hf
  have hrecord := @State.fixed_of_poolRecord
  have htake := @State.fixed_of_takePage
  have hrelease := @State.fixed_of_releasePage
  generalize @State.poolRecord = record, @State.takePage = take,
    @State.releasePage = release at hrecord htake hrelease hf
  as_aux_lemma =>
    subst hf
    dsimp only at h
    repeat' split at h
    all_goals
      rw [Prod.mk.injEq] at h
      grind [→ State.fixed_of_pageEntry, → State.fixed_of_copyPage, State.writeRun_fixed]

@[simp] theorem State.flushPages_fixed (s : State) (t p : Nat) (part : Bool) (n : Nat) (x : Flushed) :
    (s.flushPages t p part n x).1.fixed = s.fixed := by
  generalize hf : @State.flushPages = f
  delta State.flushPages State.flushPages._f at hf
  have hpage := @State.pageFor_fixed
  have hrows := @State.writeRows_fixed
  have hsave := @State.saveSeq_fixed
  generalize @State.pageFor = page, @State.writeRows = rows, @State.saveSeq = save at hpage hrows hsave hf
  as_aux_lemma =>
    subst hf
    refine brecOn_induction (C := State → Flushed → State × Flushed) (P := fun g => ∀ s x, (g s x).1.fixed = s.fixed)
      (fun _ _ => rfl) (fun n g ih s x => ?_) n s x
    dsimp only
    grind [State.modTower_fixed]

@[simp] theorem State.stageTokens_fixed (s : State) (t : Nat) (c : TowerCmd) (q : SeqTable) (kd vd : TensorDesc)
    (key : Nat) (n n1 : Nat) : (s.stageTokens t c q kd vd key n n1).1.fixed = s.fixed := by
  fun_induction State.stageTokens <;> grind [State.readElems_fixed]

@[simp] theorem State.runAppend_fixed (s : State) (t : Nat) (c : TowerCmd) (q : SeqTable) (kd vd : TensorDesc) :
    (s.runAppend t c q kd vd).1.fixed = s.fixed := by
  unfold State.runAppend; grind [State.stageTokens_fixed, State.modTower_fixed, State.saveSeq_fixed, State.tick_fixed]

@[simp] theorem State.runCommit_fixed (s : State) (t : Nat) (c : TowerCmd) (q : SeqTable) :
    (s.runCommit t c q).1.fixed = s.fixed := by
  fun_cases State.runCommit <;> grind [State.modTower_fixed, State.saveSeq_fixed, State.flushPages_fixed]

@[simp] theorem State.runDiscard_fixed (s : State) (t : Nat) (c : TowerCmd) (q : SeqTable) :
    (s.runDiscard t c q).1.fixed = s.fixed := by simp [State.runDiscard]

@[simp] theorem State.runFlush_fixed (s : State) (t : Nat) (c : TowerCmd) (q : SeqTable) :
    (s.runFlush t c q).1.fixed = s.fixed := by simp [State.runFlush]

/-! ### Serving -/

@[simp] theorem State.srvRead_fixed (s : State) (p a n : Nat) : (s.srvRead p a n).1.fixed = s.fixed :=
  fixed_of_outside (State.srvRead_outside ..)

@[simp] theorem State.srvWrite_fixed (s : State) (p a n v : Nat) : (s.srvWrite p a n v).fixed = s.fixed := by
  simp [State.srvWrite]

@[simp] theorem State.readReq_fixed (s : State) (p i : Nat) : (s.readReq p i).1.fixed = s.fixed := by
  simp [State.readReq]

@[simp] theorem State.putReq_fixed (s : State) (p i off n v : Nat) : (s.putReq p i off n v).fixed = s.fixed := by
  simp [State.putReq]

@[simp] theorem State.setReqState_fixed (s : State) (p i st : Nat) : (s.setReqState p i st).fixed = s.fixed := by
  simp [State.setReqState]

@[simp] theorem State.setDone_fixed (s : State) (p i : Nat) (st : Status) : (s.setDone p i st).fixed = s.fixed := by
  simp [State.setDone]

@[simp] theorem State.modSrv_fixed (s : State) (p : Nat) (f : Serving → Serving) :
    (s.modSrv p f).fixed = s.fixed := (rfl)

@[simp] theorem State.modReq_fixed (s : State) (p i : Nat) (f : SrvReq → SrvReq) :
    (s.modReq p i f).fixed = s.fixed := (rfl)

@[simp] theorem State.kvTables_fixed (s : State) (p dir : Nat) (n : Nat) :
    (s.kvTables p dir n).1.fixed = s.fixed := fixed_of_outside (State.kvTables_outside ..)

@[simp] theorem State.reqTables_fixed (s : State) (p e : Nat) : (s.reqTables p e).1.fixed = s.fixed :=
  fixed_of_outside (State.reqTables_outside ..)

@[simp] theorem State.setTable_fixed (s : State) (p : Nat) (k : KvTable) (committed flushed : Nat) :
    (s.setTable p k committed flushed).fixed = s.fixed := by simp [State.setTable]

@[simp] theorem State.srvPool_fixed (s : State) (p t : Nat) : (s.srvPool p t).1.fixed = s.fixed := by
  generalize hf : @State.srvPool = f
  delta State.srvPool at hf
  have hread := @State.srvRead_fixed
  generalize @State.srvRead = read at hread hf
  as_aux_lemma =>
    subst hf
    grind

@[simp] theorem State.raiseRef_fixed (s : State) (p t e : Nat) : (s.raiseRef p t e).fixed = s.fixed := by
  generalize hf : @State.raiseRef = f
  delta State.raiseRef at hf
  have hpool := @State.srvPool_fixed
  have hread := @State.srvRead_fixed
  generalize @State.srvPool = pool, @State.srvRead = read at hpool hread hf
  as_aux_lemma =>
    subst hf
    grind [State.srvWrite_fixed]

@[simp] theorem State.dropRef_fixed (s : State) (p t e : Nat) : (s.dropRef p t e).fixed = s.fixed := by
  generalize hf : @State.dropRef = f
  delta State.dropRef at hf
  have hpool := @State.srvPool_fixed
  have hread := @State.srvRead_fixed
  generalize @State.srvPool = pool, @State.srvRead = read at hpool hread hf
  as_aux_lemma =>
    subst hf
    grind [State.srvWrite_fixed]

@[simp] theorem State.countPages_fixed (s : State) (p t rec : Nat) (n n1 : Nat) :
    (s.countPages p t rec n n1).fixed = s.fixed := by
  fun_induction State.countPages <;> grind [State.srvRead_fixed, State.raiseRef_fixed]

@[simp] theorem State.takeReleased_fixed (s : State) (p t rec : Nat) (n n1 : Nat) :
    (s.takeReleased p t rec n n1).fixed = s.fixed := by
  fun_induction State.takeReleased <;> grind [State.srvRead_fixed, State.dropRef_fixed]

@[simp] theorem State.servePool_fixed (s : State) (p t : Nat) : (s.servePool p t).fixed = s.fixed := by
  generalize hf : @State.servePool = f
  delta State.servePool at hf
  have hpool := @State.srvPool_fixed
  generalize @State.srvPool = pool at hpool hf
  as_aux_lemma =>
    subst hf
    grind [State.srvWrite_fixed, State.countPages_fixed, State.modSrv_fixed, State.takeReleased_fixed]

@[simp] theorem State.servePools_fixed (s : State) (p : Nat) : (s.servePools p).fixed = s.fixed := by
  simp [State.servePools]

@[simp] theorem State.freePages_fixed (s : State) (p t : Nat) : (s.freePages p t).1.fixed = s.fixed := by
  generalize hf : @State.freePages = f
  delta State.freePages at hf
  have hpool := @State.srvPool_fixed
  generalize @State.srvPool = pool at hpool hf
  as_aux_lemma =>
    subst hf
    grind

@[simp] theorem State.findNode_fixed (s : State) (p key : Nat) (parent : Option Nat) (mv : Nat) (n n1 : Nat) :
    (s.findNode p key parent mv n n1).1.fixed = s.fixed := by
  fun_induction State.findNode <;> grind [State.srvRead_fixed]

@[simp] theorem State.lookup_fixed (s : State) (p key : Nat) (parent : Option Nat) (mv : Nat) :
    (s.lookup p key parent mv).1.fixed = s.fixed := by
  unfold State.lookup
  split
  next h => simp [fixed_of_eq h (s.srvRead_fixed ..)]
  next h => exact fixed_of_eq h (s.srvRead_fixed ..)

@[simp] theorem State.setNodeRefs_fixed (s : State) (p a v : Nat) : (s.setNodeRefs p a v).fixed = s.fixed := by
  simp [State.setNodeRefs]

@[simp] theorem State.leaveNode_fixed (s : State) (p a : Nat) : (s.leaveNode p a).fixed = s.fixed := by
  unfold State.leaveNode; grind [State.srvRead_fixed, State.setNodeRefs_fixed]

@[simp] theorem State.unlink_fixed (s : State) (p a next : Nat) (n n1 : Nat) :
    (s.unlink p a next n n1).fixed = s.fixed := by
  fun_induction State.unlink <;> grind [State.srvRead_fixed, State.srvWrite_fixed]

@[simp] theorem State.dropNode_fixed (s : State) (p a : Nat) : (s.dropNode p a).fixed = s.fixed := by
  unfold State.dropNode; grind [foldl_fixed, foldl_fixed1, State.modSrv_fixed, State.srvRead_fixed,
    State.unlink_fixed, State.dropRef_fixed, State.lookup_fixed, State.srvWrite_fixed]

@[simp] theorem State.treeNodes_fixed (s : State) (p : Nat) (l : List (Nat × List Nat)) :
    (s.treeNodes p l).1.fixed = s.fixed := by
  fun_induction State.treeNodes <;> grind [State.srvRead_fixed]

@[simp] theorem State.flushTree_fixed (s : State) (p : Nat) : (s.flushTree p).fixed = s.fixed := by
  simp [State.flushTree]

@[simp] theorem State.idleNode_fixed (s : State) (p : Nat) : (s.idleNode p).1.fixed = s.fixed := by
  simp [State.idleNode]

@[simp] theorem State.enterPages_fixed (s : State) (p : Nat) (t : KvTable) (n n1 n2 : Nat) :
    (s.enterPages p t n n1 n2).fixed = s.fixed := by
  fun_induction State.enterPages <;> grind [State.srvRead_fixed, State.srvWrite_fixed, State.raiseRef_fixed]

@[simp] theorem State.enterBlock_fixed (s : State) (p n : Nat) (l : List (Option KvTable)) (n1 : Nat) :
    (s.enterBlock p n l n1).fixed = s.fixed := by fun_induction State.enterBlock <;> simp [*]

@[simp] theorem State.matchBlocks_fixed (s : State) (p e : Nat) (tables : List (Option KvTable))
    (n n1 n2 : Nat) : (s.matchBlocks p e tables n n1 n2).1.fixed = s.fixed := by
  fun_induction State.matchBlocks <;> grind [State.srvRead_fixed, State.lookup_fixed, State.setNodeRefs_fixed,
    State.srvWrite_fixed, State.enterBlock_fixed]

@[simp] theorem State.blockPages_fixed (s : State) (p n : Nat) (l : List (Option KvTable)) :
    (s.blockPages p n l).1.fixed = s.fixed := by
  fun_induction State.blockPages <;> grind [foldl_fixed, foldl_fixed1, State.srvRead_fixed]

@[simp] theorem State.insertNode_fixed (s : State) (p i e key parent : Nat) (up : Option Nat)
    (pages : List (Nat × Nat × Nat)) : (s.insertNode p i e key parent up pages).1.fixed = s.fixed := by
  unfold State.insertNode; grind [foldl_fixed, foldl_fixed1, State.tick_fixed, State.srvRead_fixed,
    State.writeRun_fixed, State.srvWrite_fixed, State.raiseRef_fixed, State.modSrv_fixed, State.modReq_fixed]

@[simp] theorem State.insertBlocks_fixed (s : State) (p i e : Nat) (tables : List (Option KvTable))
    (n n1 n2 : Nat) (x : Option Nat) : (s.insertBlocks p i e tables n n1 n2 x).fixed = s.fixed := by
  fun_induction State.insertBlocks <;> grind [State.srvRead_fixed, State.lookup_fixed, State.blockPages_fixed,
    State.insertNode_fixed]

@[simp] theorem State.letPages_fixed (s : State) (p : Nat) (t : KvTable) (n n1 : Nat) :
    (s.letPages p t n n1).fixed = s.fixed := by
  fun_induction State.letPages <;> grind [State.srvRead_fixed, State.dropRef_fixed, State.srvWrite_fixed]

@[simp] theorem State.cutTable_fixed (s : State) (p b : Nat) (t : KvTable) : (s.cutTable p b t).fixed = s.fixed := by
  simp [State.cutTable]

@[simp] theorem State.cutTables_fixed (s : State) (p i e b : Nat) : (s.cutTables p i e b).fixed = s.fixed := by
  unfold State.cutTables; grind [foldl_fixed, foldl_fixed1, State.reqTables_fixed, State.cutTable_fixed,
    State.leaveNode_fixed, State.modReq_fixed]

@[simp] theorem State.cutBack_fixed (s : State) (p i e b : Nat) : (s.cutBack p i e b).fixed = s.fixed := by
  simp [State.cutBack]

@[simp] theorem State.releaseReq_fixed (s : State) (p i e : Nat) : (s.releaseReq p i e).fixed = s.fixed := by
  simp [State.releaseReq]

@[simp] theorem State.pushStream_fixed (s : State) (p i e : Nat) (entries : List (List Byte)) :
    (s.pushStream p i e entries).fixed = s.fixed := by simp [State.pushStream]

@[simp] theorem State.endReq_fixed (s : State) (p i e : Nat) (st : Status) (flags : Nat) :
    (s.endReq p i e st flags).fixed = s.fixed := by simp [State.endReq]

/-! ### Partitions -/

@[simp] theorem State.enablePart_fixed (s : State) (p : Nat) : (s.enablePart p).fixed = s.fixed := by
  simp [State.enablePart]

@[simp] theorem State.writeGroups_fixed (s : State) (p mask : Nat) : (s.writeGroups p mask).fixed = s.fixed := by
  simp [State.writeGroups]

@[simp] theorem State.startDisable_fixed (s : State) (p : Nat) (d : Disable) :
    (s.startDisable p d).fixed = s.fixed := by
  simp [State.startDisable]

@[simp] theorem State.endDrain_fixed (s : State) (p : Nat) (d : Disable) : (s.endDrain p d).fixed = s.fixed := by
  simp [State.endDrain]

@[simp] theorem State.finishDrain_fixed (s : State) (p : Nat) (d : Disable) :
    (s.finishDrain p d).fixed = s.fixed := by
  simp [State.finishDrain]

@[simp] theorem State.resetPart_fixed (s : State) (p : Nat) (flr : Bool) : (s.resetPart p flr).fixed = s.fixed := by
  unfold State.resetPart; grind [State.fixed, State.setRegBit_fixed, State.modLanding_fixed, State.modPart_fixed]

@[simp] theorem State.freeEntries_fixed (s : State) (p : Nat) : (s.freeEntries p).fixed = s.fixed := by
  unfold State.freeEntries; grind [foldl_fixed, foldl_fixed1, State.srvRead_fixed, State.setReqState_fixed]

@[simp] theorem State.idleChannels_fixed (s : State) (p : Nat) : (s.idleChannels p).fixed = s.fixed := by
  simp [State.idleChannels]

@[simp] theorem State.finishClean_fixed (s : State) (p : Nat) (d : Disable) :
    (s.finishClean p d).fixed = s.fixed := by
  unfold State.finishClean; grind [State.fixed, foldl_fixed, foldl_fixed1, State.modTower_fixed,
    State.freeEntries_fixed, State.modSrv_fixed, State.idleChannels_fixed, State.resetPart_fixed,
    State.setPartState_fixed, State.modPart_fixed]

@[simp] theorem State.resetPartition_fixed (s : State) (p window : Nat) :
    (s.resetPartition p window).fixed = s.fixed := by simp [State.resetPartition]

@[simp] theorem State.writePctl_fixed (s : State) (p v : Nat) : (s.writePctl p v).fixed = s.fixed := by
  simp only [State.writePctl]
  repeat' split
  all_goals simp

@[simp] theorem State.hostPctl_fixed (s : State) (fn : Fn) (p v : Nat) : (s.hostPctl fn p v).fixed = s.fixed := by
  unfold State.hostPctl
  split <;> simp

@[simp] theorem State.flrPart_fixed (s : State) (p window : Nat) : (s.flrPart p window).fixed = s.fixed := by
  unfold State.flrPart; split <;> simp

@[simp] theorem State.flrPf_fixed (s : State) (drain : Bool) : (s.flrPf drain).fixed = s.fixed := by
  unfold State.flrPf; grind [State.fixed, foldl_fixed, foldl_fixed1, State.flrPart_fixed, State.setRegBit_fixed,
    State.modAldeah_fixed]

@[simp] theorem State.logAperture_fixed (s : State) (p a : Nat) : (s.logAperture p a).fixed = s.fixed := by
  simp [State.logAperture]

@[simp] theorem State.hostWord_fixed (s : State) (p a n wa : Nat) : (s.hostWord p a n wa).1.fixed = s.fixed := by
  unfold State.hostWord; grind [State.logAperture_fixed, State.readWord_fixed]

@[simp] theorem State.hostWords_fixed (s : State) (p a n : Nat) (n1 n2 : Nat) :
    (s.hostWords p a n n1 n2).1.fixed = s.fixed := by
  fun_induction State.hostWords <;> grind [State.hostWord_fixed]

/-! ### Aldeah's commands -/

@[simp] theorem State.accept_fixed (s : State) (q : MgmtRequest) : (s.accept q).fixed = s.fixed := (rfl)

@[simp] theorem State.doorbell_fixed (s : State) (n : Nat) : (s.doorbell n).fixed = s.fixed := by simp [State.doorbell]

@[simp] theorem State.writeRsp_fixed (s : State) (bs : List Byte) : (s.writeRsp bs).fixed = s.fixed := by
  simp [State.writeRsp]

@[simp] theorem State.deliverRsp_fixed (s : State) (q : MgmtRequest) (rsp : List Byte) :
    (s.deliverRsp q rsp).fixed = s.fixed := by
  unfold State.deliverRsp; split <;> simp

@[simp] theorem State.otpDone_fixed (s : State) (what generation : Nat) (st : Status) :
    (s.otpDone what generation st).fixed = s.fixed := by simp [State.otpDone]

@[simp] theorem State.logUpdate_fixed (s : State) (ucode old new : Bool) (st : Status) :
    (s.logUpdate ucode old new st).fixed = s.fixed := by simp [State.logUpdate]

@[simp] theorem State.handOver_fixed (s : State) : (s.handOver).fixed = s.fixed := by
  unfold State.handOver; grind [State.fixed, State.setDown_fixed]

@[simp] theorem State.newDefault_fixed (s : State) : (s.newDefault).fixed = s.fixed := by simp [State.newDefault]

@[simp] theorem State.answerPldm_fixed (s : State) (path : MgmtPath) (code : Nat) :
    (s.answerPldm path code).fixed = s.fixed := (rfl)

@[simp] theorem State.pldmData_fixed (s : State) (path : MgmtPath) (off : Nat) (bs : List Byte) :
    (s.pldmData path off bs).fixed = s.fixed := by
  unfold State.pldmData
  split
  · simp
  · split <;> simp

@[simp] theorem State.pldmActivate_fixed (s : State) (path : MgmtPath) : (s.pldmActivate path).fixed = s.fixed := by
  simp [State.pldmActivate]

@[simp] theorem State.lockDebug_fixed (s : State) : (s.lockDebug).fixed = s.fixed := by simp [State.lockDebug]

@[simp] theorem State.switchSlot_fixed (s : State) : (s.switchSlot).fixed = s.fixed := by simp [State.switchSlot]

@[simp] theorem State.resetAldeah_fixed (s : State) (cause : AldeahCause) :
    (s.resetAldeah cause).fixed = s.fixed := by
  unfold State.resetAldeah
  split
  · simp
  · split <;> simp

@[simp] theorem State.takeOver_fixed (s : State) : (s.takeOver).fixed = s.fixed := by
  simp only [State.takeOver]; split <;> simp

@[simp] theorem State.catchUp_fixed (s : State) : (s.catchUp).fixed = s.fixed := by
  unfold State.catchUp; grind [foldl_fixed, foldl_fixed1, State.logEntry_fixed, State.modAldeah_fixed,
    State.aldeahTakes_fixed, State.modLanding_fixed]

/-! ### Cupolas -/

@[simp] theorem State.leaveCache_fixed (s : State) (k : Nat) : (s.leaveCache k).fixed = s.fixed := by
  simp [State.leaveCache]

@[simp] theorem State.writeGranule_fixed (s : State) (k v : Nat) : (s.writeGranule k v).fixed = s.fixed := by
  simp [State.writeGranule]

@[simp] theorem State.accessScratch_fixed (s : State) (granule word : Nat) (access : WordAccess)
    (upset : Upset) : (s.accessScratch granule word access upset).fixed = s.fixed := by
  unfold State.accessScratch; split <;> simp

/-! ### Issue of a long word -/

@[simp] theorem State.probe_fixed (s : State) (core p a : Nat) (write : Bool) :
    (s.probe core p a write).1.fixed = s.fixed := by
  fun_cases State.probe <;> simp

@[simp] theorem State.farTrap_fixed (s : State) (core p ra n : Nat) (write : Bool) :
    (s.farTrap core p ra n write).1.fixed = s.fixed := by
  unfold State.farTrap; grind [State.probe_fixed]

@[simp] theorem State.dTrap_fixed (s : State) (core : Nat) (t : Task) (x : DSlot) :
    (s.dTrap core t x).1.fixed = s.fixed := by
  refine fst_fixed fun n y h => ?_
  cases x <;> simp only [State.dTrap] at h <;> grind [State.farTrap_fixed]

@[simp] theorem State.issueTrap_fixed (s : State) (w : LongWord) (t : Task) :
    (s.issueTrap w t).1.fixed = s.fixed := by
  unfold State.issueTrap
  dsimp only
  split <;> split <;> simp

@[simp] theorem State.issueEffects_fixed (s : State) (w : LongWord) (t : Task) :
    (s.issueEffects w t).fixed = s.fixed := by
  obtain ⟨l, h⟩ := s.issueEffects_frame w t
  exact h.fixed

@[simp] theorem State.stallCore_fixed (s : State) (core : Nat) (r : StallReason) :
    (s.stallCore core r).fixed = s.fixed := (rfl)

@[simp] theorem State.issue_fixed (s : State) (w : LongWord) : (s.issue w).fixed = s.fixed := by
  fun_cases State.issue <;> grind [State.stallCore_fixed, State.fetch_fixed, State.takeTrap_fixed,
    State.issueTrap_fixed, State.issueEffects_fixed]

/-! ### Cache flushes and purges -/

@[simp] theorem State.flushLines_fixed (s : State) (k p a n : Nat) : (s.flushLines k p a n).fixed = s.fixed :=
  fixed_of_outside (State.flushLines_outside ..)

/-! ### Attention -/

@[simp] theorem State.readPage_fixed (s : State) (t p : Nat) (q : SeqTable) (e base n : Nat) :
    (s.readPage t p q e base n).1.fixed = s.fixed := by simp [State.readPage]

@[simp] theorem State.readPages_fixed (s : State) (t : Nat) (c : TowerCmd) (q : SeqTable) (l : List Nat) :
    (s.readPages t c q l).1.fixed = s.fixed := by
  fun_induction State.readPages <;> grind [State.pageEntry_fixed, State.readPage_fixed]

@[simp] theorem State.readQuery_fixed (s : State) (t : Nat) (c : TowerCmd) (d : TensorDesc) (n n1 : Nat) :
    (s.readQuery t c d n n1).1.fixed = s.fixed := by
  fun_induction State.readQuery <;> grind [State.readElems_fixed]

@[simp] theorem State.runAttn_fixed (s : State) (t : Nat) (c : TowerCmd) (q : SeqTable) (d : TensorDesc) :
    (s.runAttn t c q d).1.fixed = s.fixed := by
  unfold State.runAttn; grind [foldl_fixed, foldl_fixed1, State.readQuery_fixed, State.tick_fixed,
    State.readPages_fixed]

/-! ### Tower queues -/

@[simp] theorem State.checkCmd_fixed (s : State) (t : Nat) (c : TowerCmd) : (s.checkCmd t c).1.fixed = s.fixed :=
  fixed_of_outside (State.checkCmd_outside ..)

@[simp] theorem State.seqRefill_fixed (s : State) (t : Nat) : (s.seqRefill t).fixed = s.fixed := by
  simp [State.seqRefill]

@[simp] theorem State.payFirst_fixed (s : State) (t : Nat) (c : TowerCmd) (k : CmdCheck) :
    (s.payFirst t c k).1.fixed = s.fixed := by simp [State.payFirst]

@[simp] theorem State.runCmd_fixed (s : State) (t : Nat) (c : TowerCmd) (d : List (Option TensorDesc)) :
    (s.runCmd t c d).1.fixed = s.fixed := by
  unfold State.runCmd; grind [State.readSeq_fixed, State.runAttn_fixed, State.runAppend_fixed,
    State.runCommit_fixed, State.runDiscard_fixed, State.runFlush_fixed, State.runGemv_fixed, State.runFill_fixed,
    State.runCopy_fixed, State.runXform_fixed, State.runReduce_fixed, State.runScrub_fixed]

@[simp] theorem State.finishWork_fixed (s : State) (t index : Nat) : (s.finishWork t index).fixed = s.fixed := by
  unfold State.finishWork
  split
  · simp
  · split <;> simp

@[simp] theorem State.noteDegraded_fixed (s : State) (c : TowerCmd) : (s.noteDegraded c).fixed = s.fixed := by
  simp [State.noteDegraded]

@[simp] theorem State.cutWork_fixed (s : State) (t : Nat) (r : Running) : (s.cutWork t r).fixed = s.fixed := by
  unfold State.cutWork; split <;> simp

@[simp] theorem State.purgeTower_fixed (s : State) (t : Nat) : (s.purgeTower t).fixed = s.fixed := by
  simp [State.purgeTower]

/-! ### The governor -/

@[simp] theorem State.fatalStop_fixed (s : State) : (s.fatalStop).fixed = s.fixed := by simp [State.fatalStop]

@[simp] theorem State.applyBrake_fixed (s : State) (c : BrakeCause) : (s.applyBrake c).fixed = s.fixed := by
  unfold State.applyBrake; grind [State.fixed, State.logError_fixed, State.tick_fixed, State.setRegBit_fixed,
    State.signal_fixed]

@[simp] theorem State.releaseBrake_fixed (s : State) (c : BrakeCause) : (s.releaseBrake c).fixed = s.fixed := by
  unfold State.releaseBrake; grind [State.fixed, State.setRegBit_fixed]

@[simp] theorem State.readThermal_fixed (s : State) (hottest : Nat) : (s.readThermal hottest).fixed = s.fixed := by
  unfold State.readThermal; grind [State.fixed, State.setRegField_fixed, State.setRegBit_fixed, State.signal_fixed,
    State.applyBrake_fixed, State.releaseBrake_fixed]

@[simp] theorem State.recoverStep_fixed (s : State) : (s.recoverStep).fixed = s.fixed := by
  fun_cases State.recoverStep <;> rfl

@[simp] theorem State.credit_fixed (s : State) : (s.credit).fixed = s.fixed := by simp [State.credit]

@[simp] theorem State.chargeRunning_fixed (s : State) (t : Nat) (i : Nat) (l : List Running) :
    (s.chargeRunning t i l).1.fixed = s.fixed := by
  fun_induction State.chargeRunning <;> grind [State.charge_fixed]

@[simp] theorem State.payHead_fixed (s : State) (t : Nat) : (s.payHead t).fixed = s.fixed := by
  unfold State.payHead
  split
  · simp
  · split <;> simp

@[simp] theorem State.payJob_fixed (s : State) (p g j : Nat) (x : Unpaid) : (s.payJob p g j x).1.fixed = s.fixed := by
  simp [State.payJob]

@[simp] theorem State.payCores_fixed (s : State) (p g : Nat) (unpaid : List Nat) :
    (s.payCores p g unpaid).1.fixed = s.fixed := by simp [State.payCores]

@[simp] theorem State.settleJobs_fixed (s : State) (p : Nat) (unpaid : List Nat) :
    (s.settleJobs p unpaid).fixed = s.fixed := by simp [State.settleJobs]

@[simp] theorem State.countHeld_fixed (s : State) (g : Nat) : (s.countHeld g).fixed = s.fixed := (rfl)

@[simp] theorem State.settleTower_fixed (s : State) (g : Nat) : (s.settleTower g).fixed = s.fixed := by
  simp [State.settleTower]

@[simp] theorem State.settlePart_fixed (s : State) (p : Nat) : (s.settlePart p).fixed = s.fixed := by
  simp [State.settlePart]

@[simp] theorem State.setPower_fixed (s : State) (g : Nat) (x : PState) : (s.setPower g x).fixed = s.fixed := (rfl)

@[simp] theorem State.writeGrpCfg_fixed (s : State) (g v : Nat) : (s.writeGrpCfg g v).fixed = s.fixed := by
  simp [State.writeGrpCfg]

@[simp] theorem State.exitG4_fixed (s : State) (g : Nat) : (s.exitG4 g).fixed = s.fixed := by
  unfold State.exitG4; grind [State.fixed, foldl_fixed, foldl_fixed1, State.modTower_fixed, State.setReg_fixed,
    State.modEngine_fixed]

/-! ### Links -/

@[simp] theorem State.startRetrain_fixed (s : State) (l : Nat) : (s.startRetrain l).fixed = s.fixed := by
  simp [State.startRetrain]

@[simp] theorem State.setLanes_fixed (s : State) (l width lanes : Nat) :
    (s.setLanes l width lanes).fixed = s.fixed := by
  simp [State.setLanes]

@[simp] theorem State.sendTrain_fixed (s : State) (l phase : Nat) : (s.sendTrain l phase).fixed = s.fixed := by
  simp [State.sendTrain]

@[simp] theorem State.dropLink_fixed (s : State) (l : Nat) : (s.dropLink l).fixed = s.fixed := by
  unfold State.dropLink; grind [foldl_fixed, foldl_fixed1, State.setLink_fixed, State.freeBuffer_fixed,
    State.logDrop_fixed, State.sendFlit_fixed]

@[simp] theorem State.linkGoesDown_fixed (s : State) (l : Nat) : (s.linkGoesDown l).fixed = s.fixed := by
  simp [State.linkGoesDown]

@[simp] theorem State.trainAgain_fixed (s : State) (l : Nat) : (s.trainAgain l).fixed = s.fixed := by
  simp [State.trainAgain]

@[simp] theorem State.retrainLink_fixed (s : State) (l : Nat) : (s.retrainLink l).fixed = s.fixed := by
  simp [State.retrainLink]

@[simp] theorem State.resendLink_fixed (s : State) (l : Nat) : (s.resendLink l).fixed = s.fixed := by
  simp [State.resendLink]

@[simp] theorem State.control_fixed (s : State) (l : Nat) (f : Flit) : (s.control l f).fixed = s.fixed := by
  simp [State.control]

@[simp] theorem State.discard_fixed (s : State) (l : Nat) : (s.discard l).fixed = s.fixed := by simp [State.discard]

@[simp] theorem State.deliver_fixed (s : State) (l : Nat) (f : Flit) (op : Nat) (perform : State → State)
    (h : ∀ t, (perform t).fixed = t.fixed) : (s.deliver l f op perform).fixed = s.fixed := by
  unfold State.deliver; grind [State.modLink_fixed]

@[simp] theorem State.clearLink_fixed (s : State) (l : Nat) : (s.clearLink l).fixed = s.fixed := by
  simp [State.clearLink]

@[simp] theorem State.writeVolId_fixed (s : State) (id : Nat) : (s.writeVolId id).fixed = s.fixed := by
  simp [State.writeVolId]

@[simp] theorem State.enableLink_fixed (s : State) (l : Nat) (enable allowX4 : Bool) :
    (s.enableLink l enable allowX4).fixed = s.fixed := by
  unfold State.enableLink
  dsimp only
  split <;> split <;> simp

/-! ### Errors and repairs -/

@[simp] theorem State.ringRecord_fixed (s : State) (r : ErrRec) : (s.ringRecord r).fixed = s.fixed := by
  simp [State.ringRecord]

@[simp] theorem State.countCe_fixed (s : State) : (s.countCe).1.fixed = s.fixed := by simp [State.countCe]

@[simp] theorem State.markContained_fixed (s : State) (r : ErrRec) : (s.markContained r).fixed = s.fixed := by
  simp [State.markContained]

@[simp] theorem State.countRecord_fixed (s : State) (r : ErrRec) : (s.countRecord r).fixed = s.fixed := by
  unfold State.countRecord; split <;> simp

@[simp] theorem State.passRecord_fixed (s : State) (r : ErrRec) : (s.passRecord r).fixed = s.fixed := by
  simp [State.passRecord]

@[simp] theorem State.writeErrStat_fixed (s : State) (v : Nat) : (s.writeErrStat v).fixed = s.fixed := by
  simp [State.writeErrStat]

@[simp] theorem State.coreStat_fixed (s : State) (busy done : Bool) (st : Status) (core : Nat) :
    (s.coreStat busy done st core).fixed = s.fixed := by simp [State.coreStat]

@[simp] theorem State.testCore_fixed (s : State) (replace : Bool) (core : Nat) :
    (s.testCore replace core).fixed = s.fixed := by simp [State.testCore]

@[simp] theorem State.coreError_fixed (s : State) (core : Nat) (array : Word) :
    (s.coreError core array).fixed = s.fixed := by simp [State.coreError]

@[simp] theorem State.replaceCore_fixed (s : State) (core : Nat) : (s.replaceCore core).fixed = s.fixed := by
  unfold State.replaceCore; grind [State.fixed, State.logError_fixed, State.setCore_fixed, State.setRegBit_fixed,
    State.writeJournal_fixed, State.tick_fixed]

@[simp] theorem State.groupOut_fixed (s : State) (g detail : Nat) : (s.groupOut g detail).fixed = s.fixed := by
  simp [State.groupOut]

@[simp] theorem State.groupStat_fixed (s : State) (busy done : Bool) (st : Status) :
    (s.groupStat busy done st).fixed = s.fixed := by simp [State.groupStat]

@[simp] theorem State.testGroup_fixed (s : State) (g : Nat) : (s.testGroup g).fixed = s.fixed := by
  simp [State.testGroup]

@[simp] theorem State.startEvac_fixed (s : State) (t floor : Nat) : (s.startEvac t floor).fixed = s.fixed := by
  simp [State.startEvac]

@[simp] theorem State.copyFrame_fixed (s : State) (t frame n : Nat) : (s.copyFrame t frame n).1.fixed = s.fixed := by
  simp [State.copyFrame]

@[simp] theorem State.copyFloor_fixed (s : State) (t floor : Nat) : (s.copyFloor t floor).1.fixed = s.fixed := by
  generalize hf : @State.copyFloor = f
  delta State.copyFloor at hf
  have hcopy := @State.copyFrame_fixed
  generalize @State.copyFrame = copy, floorWords = words at hcopy hf
  as_aux_lemma =>
    subst hf
    simp [hcopy]

@[simp] theorem State.foldBridge_fixed (s : State) (t c : Nat) : (s.foldBridge t c).fixed = s.fixed := by
  simp [State.foldBridge]

@[simp] theorem State.containPart_fixed (s : State) (p : Nat) : (s.containPart p).fixed = s.fixed := by
  unfold State.containPart; split <;> simp

@[simp] theorem State.loseFloor_fixed (s : State) (t floor : Nat) : (s.loseFloor t floor).fixed = s.fixed := by
  unfold State.loseFloor
  dsimp only
  split <;> split <;> simp

@[simp] theorem State.foldTsv_fixed (s : State) (t c : Nat) : (s.foldTsv t c).fixed = s.fixed := by
  simp [State.foldTsv]

@[simp] theorem State.stopKeep_fixed (s : State) (t : Nat) : (s.stopKeep t).fixed = s.fixed := by simp [State.stopKeep]

@[simp] theorem State.keepUpset_fixed (s : State) (t : Nat) (x : Upset) : (s.keepUpset t x).fixed = s.fixed := by
  fun_cases State.keepUpset <;> simp

/-! ### Module, port and power -/

@[simp] theorem State.modMod_fixed (s : State) (f : Module → Module) : (s.modMod f).fixed = s.fixed := (rfl)

@[simp] theorem State.startAldeah_fixed (s : State) (slotB fallback : Bool) :
    (s.startAldeah slotB fallback).fixed = s.fixed := by simp [State.startAldeah]

@[simp] theorem State.settleLinks_fixed (s : State) : (s.settleLinks).fixed = s.fixed := by simp [State.settleLinks]

@[simp] theorem State.applySettings_fixed (s : State) : (s.applySettings).fixed = s.fixed := by
  simp [State.applySettings]

@[simp] theorem State.bindSpire_fixed (s : State) (sp : Nat) : (s.bindSpire sp).fixed = s.fixed := by
  simp [State.bindSpire]

@[simp] theorem State.factoryBinding_fixed (s : State) : (s.factoryBinding).fixed = s.fixed := by
  simp [State.factoryBinding]

@[simp] theorem State.applyEntry_fixed (s : State) (e : JournalEntry) : (s.applyEntry e).fixed = s.fixed := by
  unfold State.applyEntry; grind [State.fixed, State.modCore_fixed, State.modTower_fixed]

@[simp] theorem State.applyMaps_fixed (s : State) : (s.applyMaps).fixed = s.fixed := by simp [State.applyMaps]

@[simp] theorem State.failFloor_fixed (s : State) (t floor step : Nat) :
    (s.failFloor t floor step).fixed = s.fixed := by
  simp [State.failFloor]

@[simp] theorem State.failCore_fixed (s : State) (c : Nat) : (s.failCore c).fixed = s.fixed := by simp [State.failCore]

@[simp] theorem State.bootFailure_fixed (s : State) (f : BootFailure) : (s.bootFailure f).fixed = s.fixed := by
  unfold State.bootFailure; split <;> simp

@[simp] theorem State.logLatched_fixed (s : State) : (s.logLatched).fixed = s.fixed := by simp [State.logLatched]

@[simp] theorem State.trainPort_fixed (s : State) : (s.trainPort).fixed = s.fixed := by
  fun_cases State.trainPort <;> rfl

@[simp] theorem State.logBoot_fixed (s : State) (step : Nat) : (s.logBoot step).fixed = s.fixed := by
  simp [State.logBoot]

@[simp] theorem State.startUp_fixed (s : State) (failures : List BootFailure) :
    (s.startUp failures).fixed = s.fixed := by
  simp only [State.startUp]
  repeat' split
  all_goals simp

@[simp] theorem State.raiseRails_fixed (s : State) : (s.raiseRails).fixed = s.fixed := by simp [State.raiseRails]

@[simp] theorem State.powerDown_fixed (s : State) : (s.powerDown).fixed = s.fixed := (rfl)

@[simp] theorem State.turnOff_fixed (s : State) : (s.turnOff).fixed = s.fixed := by simp [State.turnOff]

/-! ### Queues -/

@[simp] theorem State.cupolaTile_fixed (s : State) (core p : Nat) (q : Queue) :
    (s.cupolaTile core p q).1.fixed = s.fixed := fixed_of_outside (State.cupolaTile_outside ..)

theorem State.settleTile_fixed (s : State) (core p : Nat) (q : Queue) :
    ∀ r, s.settleTile core p q = some r → r.fixed = s.fixed := by
  unfold State.settleTile; grind [State.settleBy_fixed]

/-! ### Serving steps -/

@[simp] theorem State.tablesInside_fixed (s : State) (p dir : Nat) (n : Nat) :
    (s.tablesInside p dir n).1.fixed = s.fixed := by
  fun_induction State.tablesInside <;> grind [State.srvRead_fixed]

@[simp] theorem State.modelResident_fixed (s : State) (p m : Nat) : (s.modelResident p m).1.fixed = s.fixed := by
  unfold State.modelResident; grind [State.readModel_fixed]

@[simp] theorem State.submitOk_fixed (s : State) (p e : Nat) : (s.submitOk p e).1.fixed = s.fixed := by
  simp [State.submitOk]

@[simp] theorem State.forkTable_fixed (s : State) (p at_ : Nat) (src dst : Option KvTable) :
    (s.forkTable p at_ src dst).1.fixed = s.fixed := by
  unfold State.forkTable; grind [foldl_fixed, foldl_fixed1, State.srvRead_fixed, State.srvWrite_fixed,
    State.raiseRef_fixed, State.setTable_fixed]

@[simp] theorem State.forkTables_fixed (s : State) (p at_ : Nat) (l : List (Option KvTable × Option KvTable))
    (n : Nat) : (s.forkTables p at_ l n).1.fixed = s.fixed := by
  fun_induction State.forkTables <;> grind [State.forkTable_fixed]

@[simp] theorem State.forkSource_fixed (s : State) (p i e : Nat) : (s.forkSource p i e).1.fixed = s.fixed := by
  unfold State.forkSource; grind [State.readReq_fixed]

@[simp] theorem State.copyTokens_fixed (s : State) (p src dst : Nat) (n n1 : Nat) :
    (s.copyTokens p src dst n n1).fixed = s.fixed := by
  fun_induction State.copyTokens <;> grind [State.srvRead_fixed, State.srvWrite_fixed]

@[simp] theorem State.startTokens_fixed (s : State) (p i e : Nat) : (s.startTokens p i e).1.fixed = s.fixed := by
  unfold State.startTokens; grind [foldl_fixed, foldl_fixed1, State.reqTables_fixed, State.matchBlocks_fixed,
    State.setTable_fixed, State.modReq_fixed, State.forkSource_fixed, State.forkTables_fixed,
    State.copyTokens_fixed]

@[simp] theorem State.admitReq_fixed (s : State) (p i e : Nat) : (s.admitReq p i e).fixed = s.fixed := by
  simp [State.admitReq]

@[simp] theorem State.submit_fixed (s : State) (p i : Nat) : (s.submit p i).fixed = s.fixed := by
  unfold State.submit; grind [State.servePools_fixed, State.readReq_fixed, State.submitOk_fixed,
    State.admitReq_fixed, State.setDone_fixed]

@[simp] theorem State.holdsKv_fixed (s : State) (p e : Nat) : (s.holdsKv p e).1.fixed = s.fixed := by
  simp [State.holdsKv]

@[simp] theorem State.cancelNow_fixed (s : State) (p i : Nat) : (s.cancelNow p i).fixed = s.fixed := by
  unfold State.cancelNow; grind [State.readReq_fixed, State.holdsKv_fixed, State.setReqState_fixed,
    State.endReq_fixed]

@[simp] theorem State.applyCancels_fixed (s : State) (p : Nat) : (s.applyCancels p).fixed = s.fixed := by
  simp [State.applyCancels]

@[simp] theorem State.bare_fixed (s : State) (p i : Nat) : (s.bare p i).1.fixed = s.fixed := by
  unfold State.bare; grind [State.readReq_fixed, State.holdsKv_fixed]

@[simp] theorem State.cancel_fixed (s : State) (p i : Nat) : (s.cancel p i).fixed = s.fixed := by
  unfold State.cancel; grind [State.bare_fixed, State.cancelNow_fixed, State.modSrv_fixed, State.applyCancels_fixed]

@[simp] theorem State.releaseEntry_fixed (s : State) (p i : Nat) : (s.releaseEntry p i).fixed = s.fixed := by
  unfold State.releaseEntry; grind [State.readReq_fixed, State.setReqState_fixed]

@[simp] theorem State.writeSrvCtl_fixed (s : State) (p v : Nat) : (s.writeSrvCtl p v).fixed = s.fixed := by
  generalize hf : @State.writeSrvCtl = f
  delta State.writeSrvCtl at hf
  have hpool := @State.srvPool_fixed
  generalize @State.srvPool = pool at hpool hf
  as_aux_lemma =>
    subst hf
    grind [foldl_fixed, State.modSrv_fixed, State.setRegBit_fixed, State.setRegField_fixed, State.flushTree_fixed]

@[simp] theorem State.liveEntries_fixed (s : State) (p : Nat) (l : List SrvReq) :
    (s.liveEntries p l).1.fixed = s.fixed := by
  fun_induction State.liveEntries <;> grind [State.readReq_fixed]

@[simp] theorem State.live_fixed (s : State) (p : Nat) : (s.live p).1.fixed = s.fixed := by simp [State.live]

@[simp] theorem State.stepReady_fixed (s : State) (p m : Nat) : (s.stepReady p m).1.fixed = s.fixed := by
  simp [State.stepReady]

@[simp] theorem State.pagesDue_fixed (s : State) (p : Nat) (l : List (Nat × Nat)) :
    (s.pagesDue p l).1.fixed = s.fixed := fixed_of_outside (State.pagesDue_outside ..)

@[simp] theorem State.shortOfPages_fixed (s : State) (p : Nat) (reqs : List (Nat × Nat)) :
    (s.shortOfPages p reqs).1.fixed = s.fixed := by
  generalize hf : @State.shortOfPages = f
  delta State.shortOfPages at hf
  have hfree := @State.freePages_fixed
  generalize @State.freePages = free at hfree hf
  as_aux_lemma =>
    subst hf
    simp [hfree, foldl_fixed1]

@[simp] theorem State.pageBelow_fixed (s : State) (p e : Nat) : (s.pageBelow p e).1.fixed = s.fixed := by
  simp only [State.pageBelow]; split <;> simp

@[simp] theorem State.countEviction_fixed (s : State) (p i e : Nat) : (s.countEviction p i e).fixed = s.fixed := by
  simp [State.countEviction]

@[simp] theorem State.evict_fixed (s : State) (p m : Nat) (needy cut : List Nat) (n : Nat) :
    (s.evict p m needy cut n).fixed = s.fixed := by
  generalize hf : @State.evict = f
  delta State.evict State.evict._f at hf
  have hshort := @State.shortOfPages_fixed
  have hready := @State.stepReady_fixed
  have hidle := @State.idleNode_fixed
  have hdrop := @State.dropNode_fixed
  have hlive := @State.live_fixed
  have hbelow := @State.pageBelow_fixed
  generalize @State.shortOfPages = short, @State.stepReady = ready, @State.idleNode = idle, @State.dropNode = drop,
    @State.live = live, @State.pageBelow = below at hshort hready hidle hdrop hlive hbelow hf
  as_aux_lemma =>
    subst hf
    refine brecOn_induction (C := State → List Nat → List Nat → State)
      (P := fun g => ∀ s needy cut, (g s needy cut).fixed = s.fixed)
      (fun _ _ _ => rfl) (fun n g ih s needy cut => ?_) n s needy cut
    obtain ⟨g, _⟩ := g
    dsimp only at ih ⊢
    split
    · simp [hshort, hready]
    · split
      next he => simp [ih, hdrop, fixed_of_eq he (hidle ..), hshort, hready]
      next he =>
        have he := fixed_of_eq he (hidle ..)
        split
        · simp [ih, hlive, he, hshort, hready]
        · split
          · simp [ih, hlive, he, hshort, hready, hbelow]
          · simp [hlive, he, hshort, hready]

@[simp] theorem State.evictAt_fixed (s : State) (p m : Nat) : (s.evictAt p m).fixed = s.fixed := by
  simp [State.evictAt]

@[simp] theorem State.writeStep_fixed (s : State) (p i e kind pos ntok : Nat) :
    (s.writeStep p i e kind pos ntok).fixed = s.fixed := by simp [State.writeStep]

@[simp] theorem State.submitEntry_fixed (s : State) (p j m : Nat) : (s.submitEntry p j m).fixed = s.fixed := by
  simp [State.submitEntry]

@[simp] theorem State.beginStep_fixed (s : State) (p m : Nat) (reqs : List (Nat × Nat)) :
    (s.beginStep p m reqs).fixed = s.fixed := by simp [State.beginStep]

@[simp] theorem State.beginChunk_fixed (s : State) (p i e : Nat) : (s.beginChunk p i e).fixed = s.fixed := by
  simp [State.beginChunk]

@[simp] theorem State.beginChunks_fixed (s : State) (p : Nat) (n : Nat) (l : List (Nat × Nat)) :
    (s.beginChunks p n l).fixed = s.fixed := by
  fun_induction State.beginChunks <;> grind [State.beginChunk_fixed]

@[simp] theorem State.chunkReady_fixed (s : State) (p m : Nat) : (s.chunkReady p m).1.fixed = s.fixed := by
  simp [State.chunkReady]

@[simp] theorem State.promptPart_fixed (s : State) (p m : Nat) : (s.promptPart p m).fixed = s.fixed := by
  simp [State.promptPart]

@[simp] theorem State.genPart_fixed (s : State) (p m : Nat) : (s.genPart p m).fixed = s.fixed := by
  simp [State.genPart]

@[simp] theorem State.appendLog_fixed (s : State) (p i e : Nat) (l : List (Nat × Nat)) :
    (s.appendLog p i e l).fixed = s.fixed := by
  simp [State.appendLog]

@[simp] theorem State.emit_fixed (s : State) (p i e committed : Nat) (toks : List (Nat × Nat)) :
    (s.emit p i e committed toks).fixed = s.fixed := by simp [State.emit]

@[simp] theorem State.safeBoundary_fixed (s : State) (p e : Nat) : (s.safeBoundary p e).1.fixed = s.fixed := by
  simp [State.safeBoundary]

@[simp] theorem State.readStep_fixed (s : State) (p i e : Nat) : (s.readStep p i e).1.fixed = s.fixed := by
  unfold State.readStep; grind [State.srvRead_fixed]

@[simp] theorem State.noteStep_fixed (s : State) (p i e ring tail : Nat) :
    (s.noteStep p i e ring tail).fixed = s.fixed := by simp [State.noteStep]

@[simp] theorem State.dropNotes_fixed (s : State) (p ring tail : Nat) :
    (s.dropNotes p ring tail).fixed = s.fixed := (rfl)

@[simp] theorem State.applyResult_fixed (s : State) (p i e : Nat) (r : Option (Nat × List (Nat × Nat)))
    (ok : State → List (Nat × Nat) → State) (h : ∀ t x, (ok t x).fixed = t.fixed) :
    (s.applyResult p i e r ok).fixed = s.fixed := by
  unfold State.applyResult; grind [State.safeBoundary_fixed, State.cutBack_fixed, State.modSrv_fixed,
    State.endReq_fixed]

@[simp] theorem State.stepResult_fixed (s : State) (p tail i : Nat) : (s.stepResult p tail i).fixed = s.fixed := by
  unfold State.stepResult; grind [State.readReq_fixed, State.noteStep_fixed, State.readStep_fixed,
    State.applyResult_fixed, State.emit_fixed]

@[simp] theorem State.lastChunk_fixed (s : State) (p i e committed : Nat) (toks : List (Nat × Nat)) :
    (s.lastChunk p i e committed toks).fixed = s.fixed := by simp [State.lastChunk]

@[simp] theorem State.chunkResult_fixed (s : State) (p : Nat) (c : SrvChunk) (e : Nat)
    (r : Option (Nat × List (Nat × Nat))) : (s.chunkResult p c e r).fixed = s.fixed := by simp [State.chunkResult]

@[simp] theorem State.endChunk_fixed (s : State) (p : Nat) (c : SrvChunk) (e : Nat)
    (r : Option (Nat × List (Nat × Nat))) : (s.endChunk p c e r).fixed = s.fixed := by simp [State.endChunk]

/-! ### Register writes -/

@[simp] theorem State.plainWrite_fixed (s : State) (a v : Nat) : (s.plainWrite a v).fixed = s.fixed := by
  fun_cases State.plainWrite <;> rfl

@[simp] theorem State.writeMsix_fixed (s : State) (a vec word v : Nat) :
    (s.writeMsix a vec word v).fixed = s.fixed := by
  simp [State.writeMsix]

@[simp] theorem State.writeGlobal_fixed (s : State) (o v : Nat) : (s.writeGlobal o v).fixed = s.fixed := by
  simp [State.writeGlobal]

@[simp] theorem State.writeMailbox_fixed (s : State) (o v : Nat) : (s.writeMailbox o v).fixed = s.fixed := by
  simp [State.writeMailbox]

@[simp] theorem State.writeErr_fixed (s : State) (o v : Nat) : (s.writeErr o v).fixed = s.fixed := by
  simp [State.writeErr]

@[simp] theorem State.writeGov_fixed (s : State) (o v : Nat) : (s.writeGov o v).fixed = s.fixed := by
  simp [State.writeGov]

@[simp] theorem State.writeServing_fixed (s : State) (fn : Fn) (p o v : Nat) :
    (s.writeServing fn p o v).fixed = s.fixed := by simp [State.writeServing]

@[simp] theorem State.writeJobReg_fixed (s : State) (p j k v : Nat) : (s.writeJobReg p j k v).fixed = s.fixed := by
  simp [State.writeJobReg]

@[simp] theorem State.writePart_fixed (s : State) (fn : Fn) (p o v : Nat) :
    (s.writePart fn p o v).fixed = s.fixed := by
  simp [State.writePart]

@[simp] theorem State.writeDma_fixed (s : State) (e o v : Nat) : (s.writeDma e o v).fixed = s.fixed := by
  simp [State.writeDma]

@[simp] theorem State.writeLink_fixed (s : State) (l o v : Nat) : (s.writeLink l o v).fixed = s.fixed := by
  simp [State.writeLink]

@[simp] theorem State.writeTowerReg_fixed (s : State) (t o v : Nat) : (s.writeTowerReg t o v).fixed = s.fixed := by
  simp [State.writeTowerReg]

@[simp] theorem State.writeRegister_fixed (s : State) (fn : Fn) (a v : Nat) :
    (s.writeRegister fn a v).fixed = s.fixed := by
  unfold State.writeRegister; split <;> simp

@[simp] theorem State.undefinedWrite_fixed (s : State) (fn : Fn) (a n : Nat) :
    (s.undefinedWrite fn a n).fixed = s.fixed := by
  unfold State.undefinedWrite; split <;> simp

@[simp] theorem State.writeConfig_fixed (s : State) (fn : Fn) (r : ConfigReg) (v : Nat) :
    (s.writeConfig fn r v).fixed = s.fixed := by
  fun_cases State.writeConfig <;> rfl

/-! ## Commands -/

/-- A command's outcome is a next state of the same part, with the same queue and the same OTP. -/
def State.Keeps (s : State) (r : Result) : Prop := ∃ n, r = .next n ∧ n.fixed = s.fixed

@[simp] theorem State.keeps_done (s n : State) : s.Keeps (done n) ↔ n.fixed = s.fixed := by
  simp [State.Keeps, done]

@[simp] theorem State.keeps_ite (s : State) (c : Prop) [Decidable c] (a b : Result) :
    s.Keeps (if c then a else b) ↔ if c then s.Keeps a else s.Keeps b := by
  split <;> rfl

@[simp] theorem execMigrationDone_keeps (s : State) (tower : Nat) : s.Keeps (execMigrationDone tower s) := by
  generalize hf : @execMigrationDone = f
  delta execMigrationDone at hf
  generalize frameWords = n at hf
  as_aux_lemma =>
    subst hf
    dsimp only
    split
    · simp
    · split
      · simp
      · simp [foldl_fixed1]

@[simp] theorem execPatrolScrubRow_keeps (s : State) (tower : Nat) : s.Keeps (execPatrolScrubRow tower s) := by
  simp only [execPatrolScrubRow]
  repeat' split
  all_goals simp

@[simp] theorem execDmaChannelSelect_keeps (s : State) (engine : Nat) : s.Keeps (execDmaChannelSelect engine s) := by
  fun_cases execDmaChannelSelect <;> simp

@[simp] theorem execDmaDescriptorFetch_keeps (s : State) (engine : Nat) : s.Keeps (execDmaDescriptorFetch engine s) := by
  unfold execDmaDescriptorFetch
  split
  · simp
  · dsimp only
    split
    · simp
    · split
      · simp
      · split
        · simp
        · split
          next h => simp [fixed_of_eq h (State.readDma_fixed ..)]
          next h => simp [fixed_of_eq h (State.readDma_fixed ..)]

@[simp] theorem execDmaTransferEnd_keeps (s : State) (engine : Nat) : s.Keeps (execDmaTransferEnd engine s) := by
  simp only [execDmaTransferEnd]
  repeat' split
  all_goals simp

@[simp] theorem execCblockExpand_keeps (s : State) (engine : Nat) : s.Keeps (execCblockExpand engine s) := by
  fun_cases execCblockExpand <;> simp

@[simp] theorem execRingEntryFetch_keeps (s : State) (part job : Nat) : s.Keeps (execRingEntryFetch part job s) := by
  unfold execRingEntryFetch
  extract_lets s1 b may
  split
  · split
    next h => simp [fixed_of_eq h (State.readEntry_fixed ..), s1]
    next h => simp [fixed_of_eq h (State.readEntry_fixed ..), s1]
  · simp [s1]

@[simp] theorem execTaskPlace_keeps (s : State) (part job : Nat) : s.Keeps (execTaskPlace part job s) := by
  fun_cases execTaskPlace <;> simp

@[simp] theorem execCommandComplete_keeps (s : State) (part job : Nat) : s.Keeps (execCommandComplete part job s) := by
  simp only [execCommandComplete]
  split
  · simp
  · split <;> simp

@[simp] theorem execJobResident_keeps (s : State) (part job : Nat) : s.Keeps (execJobResident part job s) := by
  unfold execJobResident
  dsimp only
  split
  · split
    next h => simp [fixed_of_eq h (State.loadCores_fixed ..)]
    next h => simp [fixed_of_eq h (State.loadCores_fixed ..)]
  · simp

@[simp] theorem execContextSaveDone_keeps (s : State) (part job : Nat) : s.Keeps (execContextSaveDone part job s) := by
  unfold execContextSaveDone
  dsimp only
  split
  · simp
  · split
    · split
      next h => simp [fixed_of_eq h (State.saveCores_fixed ..)]
      next h => simp [fixed_of_eq h (State.saveCores_fixed ..)]
    · simp

@[simp] theorem execModelLoadDone_keeps (s : State) (part job : Nat) : s.Keeps (execModelLoadDone part job s) := by
  simp only [execModelLoadDone]
  repeat' split
  all_goals simp

@[simp] theorem execFlr_keeps (s : State) (fn : Fn) (_how : FlrKind) : s.Keeps (execFlr fn _how s) := by
  fun_cases execFlr <;> simp

@[simp] theorem execDisableDrainEnd_keeps (s : State) (part : Nat) : s.Keeps (execDisableDrainEnd part s) := by
  fun_cases execDisableDrainEnd <;> simp

@[simp] theorem execFlrFlushReadDone_keeps (s : State) (part : Nat) : s.Keeps (execFlrFlushReadDone part s) := by
  unfold execFlrFlushReadDone
  split
  · simp
  · split <;> simp

@[simp] theorem execCleaningDone_keeps (s : State) (part : Nat) : s.Keeps (execCleaningDone part s) := by
  fun_cases execCleaningDone <;> simp

@[simp] theorem execHostBar2Read_keeps (s : State) (fn : Fn) (offset length : Nat) :
    s.Keeps (execHostBar2Read fn offset length s) := by
  unfold execHostBar2Read
  dsimp only
  split
  · simp
  · split
    · exact ⟨_, rfl, rfl⟩
    · split
      · exact ⟨_, rfl, s.logAperture_fixed ..⟩
      · exact ⟨_, rfl, s.hostWords_fixed ..⟩

@[simp] theorem execGfeatSelWrite_keeps (s : State) (fn : Fn) (key : BitVec 8) (index : BitVec 16) :
    s.Keeps (execGfeatSelWrite fn key index s) := by
  unfold execGfeatSelWrite; split <;> simp

@[simp] theorem execMbxResponse_keeps (s : State) : s.Keeps (execMbxResponse s) := by
  fun_cases execMbxResponse <;> simp

@[simp] theorem execFwStage_keeps (s : State) : s.Keeps (execFwStage s) := by
  unfold execFwStage
  rw [State.keeps_done]
  refine State.handle_fixed _ _ _ fun b => ?_
  dsimp only
  split
  · simp
  · split
    · simp
    · split <;> simp

@[simp] theorem execPldmFirmwareUpdate_keeps (s : State) (path : MgmtPath) (request : PldmRequest) :
    s.Keeps (execPldmFirmwareUpdate path request s) := by
  fun_cases execPldmFirmwareUpdate <;> simp

@[simp] theorem execUcodeIdlePoint_keeps (s : State) (part : Nat) : s.Keeps (execUcodeIdlePoint part s) := by
  fun_cases execUcodeIdlePoint <;> simp

@[simp] theorem execUcodeTimeout_keeps (s : State) (part : Nat) : s.Keeps (execUcodeTimeout part s) := by
  unfold execUcodeTimeout
  split
  · simp
  · split <;> simp

@[simp] theorem execGranuleChangeDone_keeps (s : State) (k : Nat) : s.Keeps (execGranuleChangeDone k s) := by
  fun_cases execGranuleChangeDone
  · simp
  · exact ⟨_, rfl, rfl⟩
  · simp

@[simp] theorem execRatioChangeDone_keeps (s : State) (group : Nat) : s.Keeps (execRatioChangeDone group s) := by
  simp only [execRatioChangeDone]
  split
  · simp
  · split <;> simp

@[simp] theorem execFldDone_keeps (s : State) (core index : Nat) : s.Keeps (execFldDone core index s) := by
  unfold execFldDone
  split
  · split
    · simp
    · split <;> simp [State.settle_fixed _ _ _ _ _ _ _ ‹_›]
  · simp

@[simp] theorem execFstDone_keeps (s : State) (core index : Nat) : s.Keeps (execFstDone core index s) := by
  unfold execFstDone
  split
  · split
    · split
      · simp
      · simp [State.settle_fixed _ _ _ _ _ _ _ ‹_›]
    · split <;> simp
  · simp

@[simp] theorem execAtomicPerform_keeps (s : State) (core index : Nat) : s.Keeps (execAtomicPerform core index s) := by
  unfold execAtomicPerform
  split
  · split
    · simp
    · simp [State.settle_fixed _ _ _ _ _ _ _ ‹_›]
  · simp

@[simp] theorem execAtomDone_keeps (s : State) (core index : Nat) : s.Keeps (execAtomDone core index s) := by
  unfold execAtomDone; split <;> simp

@[simp] theorem execFenceDone_keeps (s : State) (core index : Nat) : s.Keeps (execFenceDone core index s) := by
  fun_cases execFenceDone <;> simp

@[simp] theorem execSemacqGrant_keeps (s : State) (part sem : Nat) : s.Keeps (execSemacqGrant part sem s) := by
  simp only [execSemacqGrant]
  repeat' split
  all_goals simp

@[simp] theorem execSemrelDone_keeps (s : State) (core index : Nat) : s.Keeps (execSemrelDone core index s) := by
  simp only [execSemrelDone]
  repeat' split
  all_goals simp

@[simp] theorem execCntwaitDone_keeps (s : State) (core index : Nat) : s.Keeps (execCntwaitDone core index s) := by
  fun_cases execCntwaitDone <;> simp

@[simp] theorem execTflushDone_keeps (s : State) (core index : Nat) : s.Keeps (execTflushDone core index s) := by
  unfold execTflushDone; split <;> simp

@[simp] theorem execTinvalDone_keeps (s : State) (core index : Nat) : s.Keeps (execTinvalDone core index s) := by
  unfold execTinvalDone; split <;> simp

@[simp] theorem execLcfgDone_keeps (s : State) (core : Nat) : s.Keeps (execLcfgDone core s) := by
  unfold execLcfgDone
  split
  · simp
  · split
    · split
      · simp
      · split
        · simp
        · simp [State.settle_fixed _ _ _ _ _ _ _ ‹_›]
    · simp

@[simp] theorem execSequencerTile_keeps (s : State) (core : Nat) : s.Keeps (execSequencerTile core s) := by
  unfold execSequencerTile
  dsimp only
  split
  · split
    · split
      · split
        · simp
        · simp [State.settleBy_fixed _ _ _ _ _ _ ‹_›]
      · simp
    · simp
  · simp

@[simp] theorem execSliceEnd_keeps (s : State) (core : Nat) : s.Keeps (execSliceEnd core s) := by
  fun_cases execSliceEnd <;> simp

@[simp] theorem execSequencerTrap_keeps (s : State) (core : Nat) : s.Keeps (execSequencerTrap core s) := by
  fun_cases execSequencerTrap <;> simp

@[simp] theorem execTaskEnd_keeps (s : State) (core : Nat) : s.Keeps (execTaskEnd core s) := by
  simp only [execTaskEnd]
  repeat' split
  all_goals simp

@[simp] theorem execTcmdHeadCheck_keeps (s : State) (tower : Nat) : s.Keeps (execTcmdHeadCheck tower s) := by
  unfold execTcmdHeadCheck
  dsimp only
  split
  · simp
  · split
    · simp
    · split
      next h => simp [fixed_of_eq h (State.checkCmd_fixed ..)]
      next h => simp [fixed_of_eq h (State.checkCmd_fixed ..)]

@[simp] theorem execTcmdStart_keeps (s : State) (tower : Nat) : s.Keeps (execTcmdStart tower s) := by
  fun_cases execTcmdStart <;> simp

@[simp] theorem execTcmdReturnPush_keeps (s : State) (tower index : Nat) :
    s.Keeps (execTcmdReturnPush tower index s) := by
  simp only [execTcmdReturnPush]
  repeat' split
  all_goals simp

@[simp] theorem execTcmdComplete_keeps (s : State) (tower index : Nat) : s.Keeps (execTcmdComplete tower index s) := by
  simp only [execTcmdComplete]
  repeat' split
  all_goals simp

@[simp] theorem execTcmdWatchdog_keeps (s : State) (tower index : Nat) : s.Keeps (execTcmdWatchdog tower index s) := by
  simp only [execTcmdWatchdog]
  repeat' split
  all_goals simp

@[simp] theorem execBrake_keeps (s : State) (cause : BrakeCause) : s.Keeps (execBrake cause s) := by
  fun_cases execBrake <;> simp

@[simp] theorem execBrakeRelease_keeps (s : State) (cause : BrakeCause) : s.Keeps (execBrakeRelease cause s) := by
  fun_cases execBrakeRelease <;> simp

@[simp] theorem execThermalTrip_keeps (s : State) (site celsius : Nat) : s.Keeps (execThermalTrip site celsius s) := by
  unfold execThermalTrip
  split
  · simp
  · rw [State.keeps_done, State.fatalStop_fixed]
    exact (State.signal_fixed ..).trans (by simp)

@[simp] theorem execGovernorEpoch_keeps (s : State) (hottest : Nat) : s.Keeps (execGovernorEpoch hottest s) := by
  unfold execGovernorEpoch
  split
  · simp
  · extract_lets s1 braked s2 s3 s4 s5 s6
    have h2 : s2.fixed = s.fixed := by simp [s1, s2]
    have h4 : s4.fixed = s.fixed := by simp [s3, s4, h2]
    split
    · simpa
    · have h5 : s5.fixed = s.fixed := h4
      simp [s6, h5]

@[simp] theorem execLaneMapDone_keeps (s : State) (link : Nat) (ownGood : BitVec 9) :
    s.Keeps (execLaneMapDone link ownGood s) := by
  simp only [execLaneMapDone]
  repeat' split
  all_goals simp

@[simp] theorem execCreditInitDone_keeps (s : State) (link : Nat) : s.Keeps (execCreditInitDone link s) := by
  unfold execCreditInitDone
  split
  · simp
  · split <;> simp

@[simp] theorem execTrainTimeout_keeps (s : State) (link : Nat) : s.Keeps (execTrainTimeout link s) := by
  fun_cases execTrainTimeout <;> simp

@[simp] theorem execErrorRecordLeave_keeps (s : State) : s.Keeps (execErrorRecordLeave s) := by
  unfold execErrorRecordLeave; split <;> simp

@[simp] theorem execErrCoreTest_keeps (s : State) (cause : CoreTest) (core : BitVec 9) :
    s.Keeps (execErrCoreTest cause core s) := by
  unfold execErrCoreTest; split <;> simp

@[simp] theorem execCoreBistDone_keeps (s : State) (core : Nat) (pass : Bool) :
    s.Keeps (execCoreBistDone core pass s) := by
  simp only [execCoreBistDone]
  repeat' split
  all_goals simp

@[simp] theorem execGroupTestDone_keeps (s : State) (group : Nat) (failedStep : Option Nat) :
    s.Keeps (execGroupTestDone group failedStep s) := by
  unfold execGroupTestDone
  split
  · simp
  · split <;> simp

@[simp] theorem execEvacuationDone_keeps (s : State) (tower : Nat) : s.Keeps (execEvacuationDone tower s) := by
  unfold execEvacuationDone
  split
  · simp
  · split <;> simp

@[simp] theorem execChanFold_keeps (s : State) (tower channel : Nat) (kind : ChannelKind) :
    s.Keeps (execChanFold tower channel kind s) := by
  fun_cases execChanFold <;> simp

@[simp] theorem execCupolaScratchAccess_keeps (s : State) (granule word : Nat) (access : WordAccess) (upset : Upset) :
    s.Keeps (execCupolaScratchAccess granule word access upset s) := by
  simp only [execCupolaScratchAccess]
  repeat' split
  all_goals simp

@[simp] theorem execPerstAssert_keeps (s : State) : s.Keeps (execPerstAssert s) := by
  unfold execPerstAssert
  split
  · simp
  · refine ⟨_, rfl, ?_⟩
    show State.fixed (ite ..) = _
    simp

@[simp] theorem execPcieLinkChange_keeps (s : State) (width rate : Nat) (l0p : Bool) :
    s.Keeps (execPcieLinkChange width rate l0p s) := by
  fun_cases execPcieLinkChange <;> exact ⟨_, rfl, rfl⟩

@[simp] theorem execPowerGood_keeps (s : State) (failures : List BootFailure) : s.Keeps (execPowerGood failures s) := by
  unfold execPowerGood
  split
  · rw [State.keeps_done, State.startUp_fixed]
    rfl
  · simp

@[simp] theorem execQueueTimeout_keeps (s : State) (core : Nat) : s.Keeps (execQueueTimeout core s) := by
  fun_cases execQueueTimeout <;> simp

@[simp] theorem execCupolaInPush_keeps (s : State) (core queue : Nat) : s.Keeps (execCupolaInPush core queue s) := by
  simp only [execCupolaInPush]
  repeat' split
  all_goals simp

@[simp] theorem execCupolaOutWrite_keeps (s : State) (core queue : Nat) : s.Keeps (execCupolaOutWrite core queue s) := by
  unfold execCupolaOutWrite
  dsimp only
  split
  · simp
  · split
    · split
      · split
        · simp
        · simp [State.settleTile_fixed _ _ _ _ _ ‹_›]
      · simp
    · simp

@[simp] theorem execStepResult_keeps (s : State) (part : Nat) : s.Keeps (execStepResult part s) := by
  simp only [execStepResult]
  repeat' split
  all_goals simp

@[simp] theorem execPromptChunkDone_keeps (s : State) (part request : Nat) :
    s.Keeps (execPromptChunkDone part request s) := by
  unfold execPromptChunkDone
  dsimp only
  split
  · simp
  · split
    · simp
    · split
      · split
        · simp
        next h =>
          have h := fixed_of_eq h (State.readReq_fixed ..)
          split
          · simp
          · split <;> simp [h]
      · simp

@[simp] theorem execLastEntryWrite_keeps (s : State) (part request : Nat) :
    s.Keeps (execLastEntryWrite part request s) := by
  unfold execLastEntryWrite
  split
  · simp
  · split
    · simp
    next h =>
      have h := fixed_of_eq h (State.readReq_fixed ..)
      split <;> simp [h]

/-! ## One command -/

/-- Every command but OTP_WRITE and REGISTER_WRITE has a next state, with the part, the queue and OTP as they were. -/
theorem exec_keeps (c : Instr) (s : State) (ho : c ≠ .otpWrite)
    (hr : ∀ fn place wide value, c ≠ .registerWrite fn place wide value) : s.Keeps (exec c s) := by
  cases hw : c.word with
  | some w => exact ⟨_, exec_word hw s, s.issue_fixed w⟩
  | none =>
    cases c
    case otpWrite => exact absurd rfl ho
    case registerWrite => exact (hr _ _ _ _ rfl).elim
    case colRepairDone | ceWindowExpire | frameTableWrite | clrCounts | sanitise | sanitiseDone | twrPinWrite |
      twrMigrate | migrationDone | refresh | tempReading | patrolScrubRow =>
      simp [exec, execColRepairDone, execCeWindowExpire, execFrameTableWrite, execClrCounts, execSanitise,
        execSanitiseDone, execTwrPinWrite, execTwrMigrate, execRefresh, execTempReading]
    case chKick | phdmaKick | abort | chDescLoRead | chProgLoRead | dmaChannelSelect | dmaDescriptorFetch | dmaBurst
      | rateGapEnd | dmaTransferEnd | dmaCopy | compress | expand | link | kn4 | tableLoad | tensor | toQueue |
      fromQueue | cblockExpand =>
      simp [exec, execChKick, execPhdmaKick, execAbort, execChDescLoRead, execChProgLoRead, execDmaBurst,
        execRateGapEnd, execDmaCopy, execCompress, execExpand, execLink, execKn4, execTableLoad, execTensor,
        execToQueue, execFromQueue]
    case jobEnable | jobDisable | clear | kill | pringTail | pjobAcctLoRead | ringEntryFetch | taskPlace |
      commandComplete | jobResident | sliceExpiry | urgentPreempt | contextSaveDone | killDrainEnd | donation |
      modelLoadDone =>
      simp [exec, execJobEnable, execJobDisable, execClear, execKill, execPringTail, execPjobAcctLoRead,
        execSliceExpiry, execUrgentPreempt, execKillDrainEnd, execDonation]
    case pctlEnable | pctlDisable | reset | flr | disableDrainEnd | flrFlushReadDone | cleaningDone | hostBar2Write
      | hostBar2Read | gfeatSelWrite =>
      simp [exec, execPctlEnable, execPctlDisable, execReset, execHostBar2Write]
    case mbxDoorbell | mctpRequest | mbxResponse | getInfo | readSensors | sensorSample | readLog | logSync |
      logFlashCopy | writeSettings | fwStage | fwActivate | fwActivateFallback | pldmFirmwareUpdate | ucodeApply |
      ucodeIdlePoint | ucodeTimeout | repairPersist | debugChallenge | debugUnlock | debugLock | spdmRequest |
      aldeahReset | aldeahWatchdog | aldeahRestartDone =>
      simp [exec, execMbxDoorbell, execMctpRequest, execGetInfo, execReadSensors, execSensorSample, execReadLog,
        execLogSync, execLogFlashCopy, execWriteSettings, execFwActivate, execFwActivateFallback, execUcodeApply,
        execRepairPersist, execDebugChallenge, execDebugUnlock, execDebugLock, execSpdmRequest, execAldeahReset,
        execAldeahWatchdog, execAldeahRestartDone]
    case cupGranWrite | granuleChangeDone | cupolaEviction | ratioChangeRequest | ratioChangeDone =>
      simp [exec, execCupGranWrite, execCupolaEviction, execRatioChangeRequest]
    case fldDone | fstDone | atomicPerform | atomDone | fenceDone | semacqGrant | semrelDone | cntwaitDone |
      tflushDone | tinvalDone | lcfgDone | sequencerTile | sliceEnd | sequencerTrap | taskEnd =>
      simp [exec]
    case tcmdHeadCheck | tcmdStart | tcmdReturnPush | tcmdComplete | tcmdWatchdog | tseqPurge | tseqBusyLoRead =>
      simp [exec, execTseqPurge, execTseqBusyLoRead]
    case brake | brakeRelease | thermalTrip | governorEpoch | g1Entry | g2Entry | g3Entry | g4Entry | govGrpCfgWrite
      | groupWake | g4ExitDone =>
      simp [exec, execG1Entry, execG2Entry, execG3Entry, execG4Entry, execGovGrpCfgWrite, execGroupWake,
        execG4ExitDone]
    case detectDone | equaliseDone | laneMapDone | creditInitDone | trainTimeout | train | laneFail | retrain |
      retrainFail | idle | data | ackReport | replayTimeout | write | cblock | read | atomic | resp | wack | err |
      volLctlClrCounts | volIdWrite | volLctlEnable =>
      simp [exec, execDetectDone, execEqualiseDone, execTrain, execLaneFail, execRetrain, execRetrainFail, execIdle,
        execData, execAckReport, execReplayTimeout, execWrite, execCblock, execRead, execAtomic, execResp, execWack,
        execErr, execVolLctlClrCounts, execVolIdWrite, execVolLctlEnable]
    case errorRecordLeave | errStatWrite | errCoreTest | coreDrained | coreBistDone | errGroupTest | groupTestDone |
      twrEvac | evacuationDone | chanFold | towerAccess | narrowWrite | cupolaScratchAccess =>
      simp [exec, execErrStatWrite, execCoreDrained, execErrGroupTest, execTwrEvac, execTowerAccess,
        execNarrowWrite]
    case perstRelease | perstAssert | pcieLinkChange | powerGood | ready | pwrEnAssert | bulkCharged |
      pwrEnIgnoreEnd | pwrEnDeassert | vinOvervoltage | holdUpLoss | supplyFail | junctionOvertemp | regulatorFault
      | refclkLoss | alertResponse =>
      simp [exec, execPerstRelease, execReady, execPwrEnAssert, execBulkCharged, execPwrEnIgnoreEnd,
        execPwrEnDeassert, execVinOvervoltage, execHoldUpLoss, execSupplyFail, execJunctionOvertemp,
        execRegulatorFault, execRefclkLoss, execAlertResponse]
    case queueTimeout | cupolaInPush | cupolaOutWrite | neighbourTileArrival =>
      simp [exec, execNeighbourTileArrival]
    case srvSubmit | srvCancel | srvRelease | srvCtlWrite | pfxFlush | servingStep | stepResult | promptChunkDone |
      lastEntryWrite | cntAdd | semWrite =>
      simp [exec, execSrvSubmit, execSrvCancel, execSrvRelease, execSrvCtlWrite, execPfxFlush, execServingStep,
        execCntAdd, execSemWrite]
    all_goals cases hw

/-- REGISTER_WRITE has a next state, with the part, the queue and OTP as they were, or it stops (R417). -/
theorem State.writeBar0_keeps (s : State) (fn : Fn) (offset : Nat) (wide : Bool) (value : DWord) :
    s.Keeps (s.writeBar0 fn offset wide value) ∨ s.writeBar0 fn offset wide value = .fault .debugBlock := by
  unfold State.writeBar0
  split
  · simp
  · split
    · split <;> simp
    · split
      · simp
      · split
        · simp
        · split <;> simp

theorem execRegisterWrite_keeps (s : State) (fn : Fn) (place : RegPlace) (wide : Bool) (value : DWord) :
    s.Keeps (execRegisterWrite fn place wide value s) ∨ execRegisterWrite fn place wide value s = .fault .debugBlock := by
  cases place with
  | bar0 offset => exact s.writeBar0_keeps fn offset wide value
  | config r => exact .inl ⟨_, rfl, s.writeConfig_fixed fn r value.toNat⟩

/-! ## OTP (R399 to R401) -/

theorem OtpKeeps.refl (m : Memory) : OtpKeeps m m := fun _ _ h => h

theorem OtpKeeps.trans {a b c : Memory} (h : OtpKeeps a b) (k : OtpKeeps b c) : OtpKeeps a c :=
  fun x i hi => k x i (h x i hi)

/-- A revocation byte programmed to 0xFF has every bit set. -/
theorem otpKeeps_set_ff (m : Memory) (a : Nat) : OtpKeeps m (m.set a 0xFF) := by
  intro x i hi
  rw [Memory.get_set]
  split
  · have hi8 := BitVec.lt_of_getLsbD hi
    interval_cases i <;> rfl
  · exact hi

/-- The bytes of a number that is zero are zero. -/
theorem Memory.get_of_num_eq_zero (m : Memory) (a n x : Nat) (h : m.num a n = 0) (hx : a ≤ x ∧ x < a + n) : m.get x = 0 := by
  induction n generalizing a with
  | zero => omega
  | succ n ih =>
    obtain ⟨h0, hr⟩ : (m.get a).toNat = 0 ∧ m.num (a + 1) n = 0 := by
      simp only [Memory.num] at h
      omega
    by_cases hxa : x = a
    · rw [hxa]
      exact BitVec.eq_of_toNat_eq h0
    · exact ih (a + 1) hr (by omega)

/-- A number programmed where OTP is blank erases nothing. -/
theorem otpKeeps_setNum (m : Memory) (a n v : Nat) (h : m.num a n = 0) : OtpKeeps m (m.setNum a n v) := by
  intro x i hi
  rw [Memory.get_setNum]
  split
  · next hx => simp [m.get_of_num_eq_zero a n x h hx] at hi
  · exact hi

/-- A state of the same part with the same queue, in which every programmed bit of OTP stays programmed. -/
def State.Programs (s n : State) : Prop := n.variant = s.variant ∧ n.pending = s.pending ∧ OtpKeeps s.otp n.otp

theorem State.Programs.of_fixed {s n : State} (h : n.fixed = s.fixed) : s.Programs n := by
  obtain ⟨hv, hp, ho⟩ : n.variant = s.variant ∧ n.pending = s.pending ∧ n.otp = s.otp := by
    simpa [State.fixed] using h
  exact ⟨hv, hp, ho ▸ .refl _⟩

/-- An OTP entry and its response leave OTP as it was programmed. -/
theorem State.programs_otpDone {s : State} {m : Memory} (h : OtpKeeps s.otp m) (what generation : Nat) (st : Status) :
    s.Programs (({ s with otp := m } : State).otpDone what generation st) := by
  obtain ⟨hv, hp, ho⟩ := State.Programs.of_fixed (State.otpDone_fixed { s with otp := m } what generation st)
  exact ⟨hv, hp, h.trans ho⟩

/-- A field setting goes to a record that is blank (R400). -/
theorem State.writeSetting_programs (s : State) (f v : Nat) : s.Programs (s.writeSetting f v) := by
  unfold State.writeSetting
  split
  · next k hk =>
    split
    · refine State.programs_otpDone (otpKeeps_setNum _ _ _ _ ?_) _ _ _
      have hz : s.otpRecord f k = 0 := by simpa using List.find?_some hk
      exact hz
    · exact .of_fixed (s.otpDone_fixed ..)
  · exact .of_fixed (s.otpDone_fixed ..)

theorem State.handle_programs (s : State) (code : Nat) (f : List Byte → State) (h : ∀ b, s.Programs (f b)) :
    s.Programs (s.handle code f) := by
  unfold State.handle
  split
  · exact .of_fixed rfl
  · split
    · exact .of_fixed rfl
    · split
      · exact .of_fixed (s.respond_fixed ..)
      · split
        · exact .of_fixed (s.respond_fixed ..)
        · exact h _

theorem execOtpWrite_programs (s : State) : ∃ n, execOtpWrite s = .next n ∧ s.Programs n := by
  refine ⟨_, rfl, s.handle_programs _ _ fun b => ?_⟩
  dsimp only
  split
  · exact .of_fixed (s.respond_fixed ..)
  · split
    · split
      · exact s.writeSetting_programs _ _
      · exact .of_fixed (s.otpDone_fixed ..)
    · split
      · exact .of_fixed (s.otpDone_fixed ..)
      · split
        · exact State.programs_otpDone (otpKeeps_set_ff _ _) _ _ _
        · exact .of_fixed (s.otpDone_fixed ..)

/-- A command that has a next state leaves the part, the queue and every programmed bit of OTP. -/
theorem exec_programs {c : Instr} {s n : State} (h : exec c s = .next n) : s.Programs n := by
  by_cases ho : c = .otpWrite
  · subst ho
    obtain ⟨m, hm, hp⟩ := execOtpWrite_programs s
    cases hm.symm.trans h
    exact hp
  · by_cases hr : ∃ fn place wide value, c = .registerWrite fn place wide value
    · obtain ⟨fn, place, wide, value, rfl⟩ := hr
      obtain ⟨m, hm, hf⟩ | hf := execRegisterWrite_keeps s fn place wide value
      · cases hm.symm.trans h
        exact .of_fixed hf
      · cases hf.symm.trans h
    · obtain ⟨m, hm, hf⟩ := exec_keeps c s ho fun fn place wide value e => hr ⟨fn, place, wide, value, e⟩
      cases hm.symm.trans h
      exact .of_fixed hf

/-! ## The invariant -/

theorem State.Inv.of_programs {v : Variant} {o : Memory} {s n : State} (h : s.Inv v o) (hn : s.Programs n) : n.Inv v o := by
  obtain ⟨hv, ho, hw⟩ := h
  obtain ⟨hv', hp', ho'⟩ := hn
  exact ⟨hv'.trans hv, ho.trans ho', hp' ▸ hw⟩

/-- Taking the front command from the queue keeps the invariant. -/
theorem State.Inv.tail {v : Variant} {o : Memory} {s : State} {c : Instr} {rest : List Instr} (h : s.Inv v o)
    (hp : s.pending = c :: rest) : ({ s with pending := rest } : State).Inv v o := by
  obtain ⟨hv, ho, hw⟩ := h
  exact ⟨hv, ho, fun d hd => hw d (hp ▸ List.mem_cons_of_mem c hd)⟩

/-- Settles O60: the tick and every command leave the part, the queue and the programmed bits of OTP (`exec_programs`), and a step
takes the front command from the queue. -/
theorem stepsKeepTheInvariant : Obligations.StepsKeepTheInvariant := by
  intro v o s n h hstep
  unfold step at hstep
  split at hstep
  · cases hstep
    exact h.of_programs (.of_fixed s.clockTick_fixed)
  · next c rest hp => exact (h.tail hp).of_programs (exec_programs hstep)

end Sys2Proof.Machine
end

section
/-! REGISTER_WRITE of PSLICE. All 32 bits of the register are RW, and a write keeps every bit of the value held that the access
codes do not cover: the bits above the register's width, which the model's state may hold. -/

namespace Sys2Proof.Machine

theorem locate_partBase_pslice {p : Nat} (hp : p < 12) :
    locate (partBase p + Off.pslice) = some (.part, p, Off.pslice) := by
  interval_cases p <;> rfl

theorem State.writePart_pslice (s : State) (fn : Fn) (p v : Nat) :
    s.writePart fn p Off.pslice v = s.plainWrite (partBase p + Off.pslice) v := by
  simp [State.writePart, Off.pctl, Off.srvCtl, Off.cntAdd, Off.phdmaKick, Off.pallocCount, Off.plinkx, Off.sem,
    Off.msixVfAddrLo, Off.pslice]

/-- A write of PSLICE leaves what the access codes of its row make of the value held. -/
theorem State.preg_writeRegister_pslice (s : State) (fn : Fn) (v : Nat) {p : Nat} (hp : p < 12) :
    (s.writeRegister fn (partBase p + Off.pslice) v).preg p Off.pslice =
      applyAccess 0xFFFFFFFF 0 (s.preg p Off.pslice) v := by
  have hrow : findRow .part Off.pslice = some (⟨.part, 0x504, 4, 1, 32, 0xFFFFFFFF, 0, 0x83D60⟩, 0) := rfl
  simp [State.writeRegister, State.writePart_pslice, State.plainWrite, locate_partBase_pslice hp, hrow, State.preg]

/-- A READY part whose PSLICE of partition 0 holds bit 32, above the register's width. -/
def pslicePastWidth : State := { State.reset with
  mod := { State.reset.mod with modPg := true, perst := false }
  port := { State.reset.port with width := 16 }
  regs := [(Off.gstat, 2 ^ 31), (partBase 0 + Off.pslice, 2 ^ 32)] }

theorem takes_pslicePastWidth : pslicePastWidth.takes .pf (partBase 0 + Off.pslice) = true := by decide

/-- Refutes O55: the statement is about every state, and a write of 0 leaves bit 32 of a PSLICE that holds 2 ^ 32, where the clause
about PSLICE wants the 32 bits written. -/
theorem not_registerWrites : ¬ Obligations.RegisterWrites := by
  intro h
  have hloc : locate (partBase 0 + Off.pslice) = some (.part, 0, Off.pslice) := locate_partBase_pslice (by decide)
  obtain ⟨hbar, -, -⟩ :=
    h pslicePastWidth .pf (partBase 0 + Off.pslice) (partBase 0 + Off.pslice) 0 Off.pslice 0 .part false 0
  obtain ⟨-, htaken⟩ := hbar rfl (by decide)
  obtain ⟨hreg, -, -, hpslice⟩ := htaken takes_pslicePastWidth hloc
  obtain ⟨n, hn, hv, -⟩ := hpslice rfl (by decide) rfl
  cases (hreg (by decide)).symm.trans hn
  rw [State.preg_writeRegister_pslice _ _ _ (by decide)] at hv
  exact absurd hv (by decide)

end Sys2Proof.Machine
end

section
/-! The Cupolas' events and a group's ratio. A granule's assignment changes in two steps, its check reading neither the granule's
ASSIGN_ERR nor anything that the granule's own update moves; a scratch word's bytes are those of its paste; a dropped line is
filtered out. -/

namespace Sys2Proof.Machine

/-! ## Granules (R24) -/

theorem State.cupGranWrite_taken {s : State} {k : Nat} (h : s.takes .pf (Off.cupGran + 4 * k) = true) (value : Word) :
    exec (.cupGranWrite .pf k value) s = .next (s.writeGranule k value.toNat) := by
  simp [exec, execCupGranWrite, done, State.onWrite, h]

/-- The check of a change reads the granule's BUSY and its assignment, not its ASSIGN_ERR. -/
theorem State.granuleOk_setGranule {s : State} {k : Nat} {g : Granule} (hbusy : g.busy = (s.granule k).busy)
    (hscratch : g.scratch = (s.granule k).scratch) (hpart : g.part = (s.granule k).part) (scratch : Bool) (part : Nat) :
    (s.setGranule k g).granuleOk k scratch part = s.granuleOk k scratch part := by
  simp only [State.granuleOk, State.granule_setGranule, if_true, State.part_setGranule, hbusy, hscratch, hpart]
  rfl

/-- What a write to CUP_GRANk leaves of the granule when it changes the kind of granule: the change that runs where the check
allows it, and ASSIGN_ERR where not. -/
theorem State.granule_writeGranule {s : State} {k v : Nat} (h : (s.granule k).scratch ≠ nbit v 31) :
    (s.granuleOk k (nbit v 31) (field v 0 4) = true →
      ((s.writeGranule k v).granule k).busy = true ∧
        ((s.writeGranule k v).granule k).next = some (nbit v 31, field v 0 4)) ∧
    (s.granuleOk k (nbit v 31) (field v 0 4) = false →
      ((s.writeGranule k v).granule k).err = true ∧ ((s.writeGranule k v).granule k).scratch = (s.granule k).scratch ∧
        ((s.writeGranule k v).granule k).part = (s.granule k).part) := by
  obtain ⟨g, hg⟩ : ∃ g, g = if nbit v 29 then { s.granule k with err := false } else s.granule k := ⟨_, rfl⟩
  have hbusy : g.busy = (s.granule k).busy := by grind
  have hscratch : g.scratch = (s.granule k).scratch := by grind
  have hpart : g.part = (s.granule k).part := by grind
  have hchange : nbit v 31 ≠ g.scratch := hscratch ▸ h.symm
  simp only [State.writeGranule, ← hg, State.granuleOk_setGranule hbusy hscratch hpart, hchange]
  constructor <;> intro hok
  · simp [hok]
  · simp [hok, hscratch, hpart]

/-- The end of a granule's change (R24): its assignment is the new one and its words are zero. -/
theorem execGranuleChangeDone_running {s : State} {k : Nat} {next : Bool × Nat} (hruns : s.runs = true)
    (hnext : (s.granule k).next = some next) :
    execGranuleChangeDone k s = .next (({ s with
      scratch := s.scratch.fill (scratchWord k 0) (granuleBytes / 32) (.good 0) } : State).setGranule k
        { s.granule k with scratch := next.1, part := next.2, busy := false, next := none }) := by
  simp [execGranuleChangeDone, hruns, hnext, done]

/-- A granule's words filled read as zero. -/
theorem get_fill_granule (r : Ram) (k a : Nat) (m : WordMark) (hlo : k * granuleBytes ≤ a)
    (hhi : a < (k + 1) * granuleBytes) : (r.fill (scratchWord k 0) (granuleBytes / 32) m).bytes.get a = 0 := by
  simp only [Ram.fill, Memory.get_zero]
  rw [if_pos]
  simp only [scratchWord, granuleBytes] at *
  omega

/-! ## Scratch words (R465) -/

/-- A granule in service takes an access, whatever the upset, unless it is uncorrectable in the controller's own state. -/
theorem execCupolaScratchAccess_served {s : State} {k : Nat} (hruns : s.runs = true)
    (hscratch : (s.granule k).scratch = true) (hbusy : (s.granule k).busy = false) (word : Nat) (access : WordAccess)
    {upset : Upset} (hup : ∀ region, upset ≠ .unit region true) :
    execCupolaScratchAccess k word access upset s = .next (s.accessScratch k word access upset) := by
  -- `hup` rules out the upset that contains the partition
  simp only [execCupolaScratchAccess, hruns, hscratch, hbusy, Bool.not_true, Bool.or_self, Bool.false_eq_true, if_false]
  rfl

/-- A word written whole reads as its bytes. -/
theorem Ram.get_put_setBytes (r : Ram) (w : Nat) {l : List Byte} (hl : l.length = 32) (m : WordMark) {i : Nat} (hi : i < 32) :
    some ((r.put w (Memory.setBytes [] 0 l) m).bytes.get (32 * w + i)) = l[i]? := by
  have hlt : i < l.length := by omega
  simp [Ram.put, Memory.get_paste, Memory.get_setBytes, hi, hlt]

/-! ## Evictions (R161, R270) -/

theorem execCupolaEviction_running {s : State} (hruns : s.runs = true) (spire part line : Nat) :
    execCupolaEviction spire part line s =
      .next ((s.cleanLine spire part (lineAddr line)).dropLine spire part (lineAddr line)) := by
  simp [execCupolaEviction, done, hruns]

theorem State.ne_of_mem_dropLine {s : State} {k p la : Nat} {l : Line} (h : l ∈ (s.dropLine k p la).cupola k) :
    ¬(l.part = p ∧ l.addr = la) := by
  simp only [State.dropLine, State.cupola_setCupola, if_true, List.mem_filter] at h
  simpa [isLine, imp_iff_not_or] using h.2

/-! ## Ratios (R27, R328) -/

theorem execRatioChangeRequest_wanted {s : State} {group : Nat} {ratio : BitVec 2} (hruns : s.runs = true) (hcode : ratio ≠ 3)
    (hidle : (s.group group).ratioNext = none) (hnew : (s.group group).ratio ≠ ratio.toNat)
    (hwants : s.wantsRatio group ratio.toNat = true) :
    execRatioChangeRequest group ratio s = .next (s.setGroup group { s.group group with
      ratioNext := some ratio.toNat, dispatchHeld := true, heldRun := 0, clearRun := 0 }) := by
  simp only [execRatioChangeRequest, done, hruns, hcode, hidle, hnew, hwants, Option.isSome_none, Bool.not_true, Bool.or_self,
    Bool.false_eq_true, decide_false, if_false]

theorem execRatioChangeDone_between {s : State} {group r : Nat} (hruns : s.runs = true)
    (hnext : (s.group group).ratioNext = some r) (hbetween : s.betweenCommands group = true) :
    execRatioChangeDone group s =
      .next (s.setGroup group { s.group group with ratio := r, ratioNext := none, dispatchHeld := false }) := by
  simp [execRatioChangeDone, done, hruns, hnext, hbetween]

theorem execRatioChangeDone_waits {s : State} {group : Nat} (hbetween : s.betweenCommands group = false) :
    execRatioChangeDone group s = .next s := by
  simp [execRatioChangeDone, done, hbetween]

/-- Settles O32: each command's own lemma above gives its next state, and what a part of it reads as is the state's law. -/
theorem cupolaAndRatios : Obligations.CupolaAndRatios := by
  intro s k word spire part line group value bytes poison upset ratio next
  refine ⟨fun htakes hchange => ?_, fun hruns hnext => ?_, fun hruns hscratch hbusy hlen hup => ?_, fun hruns => ?_,
    fun hruns hcode hidle hnew hwants => ?_, fun hruns hnext => ⟨fun hbetween => ?_, fun hbetween => ?_⟩⟩
  · have hpart : field value.toNat 0 4 = value.toNat % 16 := by simp [field]
    exact ⟨_, State.cupGranWrite_taken htakes value, hpart ▸ State.granule_writeGranule hchange⟩
  · refine ⟨_, execGranuleChangeDone_running hruns hnext, ?_⟩
    simp only [State.granule_setGranule, if_true, State.scratch_setGranule, true_and]
    exact fun a => get_fill_granule _ k a _
  · exact ⟨_, execCupolaScratchAccess_served hruns hscratch hbusy word _ hup, fun i hi =>
      s.scratch.get_put_setBytes _ hlen _ hi⟩
  · exact ⟨_, execCupolaEviction_running hruns spire part line, fun l => State.ne_of_mem_dropLine⟩
  · exact ⟨_, execRatioChangeRequest_wanted hruns hcode hidle hnew hwants, by simp⟩
  · exact ⟨_, execRatioChangeDone_between hruns hnext hbetween, by simp⟩
  · exact execRatioChangeDone_waits hbetween

end Sys2Proof.Machine
end

section
/-! The operations of the S slot. What a long word with an S slot leaves in its core is that slot's effect on the core after the pops
(`State.afterScalar`), whatever its other slots do; each operation's own lemma says what that effect is. -/

namespace Sys2Proof.Machine

/-! ## Issue -/

/-- A command of a long word that issues has the long word's effects. -/
theorem exec_issues {i : Instr} {w : LongWord} {s u : State} {t : Task} (hi : i.word = some w) (h : s.IssuesFrom w t u) :
    exec i s = .next (u.issueEffects w t) := by
  rw [exec_word hi, State.issue_eq h]

theorem State.IssuesFrom.legal {s u : State} {w : LongWord} {t : Task} (h : s.IssuesFrom w t u) :
    ∃ trapMode, wordIllegal w trapMode = none := by
  obtain ⟨-, -, -, -, hlegal, -⟩ := h
  exact ⟨_, hlegal⟩

/-- A core after the pops and the S slot of its long word, before its Q, V and M slots. -/
abbrev State.afterScalar (u : State) (w : LongWord) : Core :=
  onSlot w.s (fun c x => sEffect (u.core w.core) (u.csr w.core) (u.nextPc w) c x)
    (popEnds w ((u.core w.core).advance w.wait (u.nextPc w)))

theorem State.afterScalar_eq {w : LongWord} {x : SSlot} (hs : w.s = some x) (u : State) :
    u.afterScalar w = sEffect (u.core w.core) (u.csr w.core) (u.nextPc w)
      (popEnds w ((u.core w.core).advance w.wait (u.nextPc w))) x := by
  simp [State.afterScalar, hs, onSlot]

/-- No other slot of a legal long word writes a register that its S slot writes (R86). -/
theorem State.IssuesFrom.rd_scalar {s u : State} {w : LongWord} {t : Task} {x : SSlot} (h : s.IssuesFrom w t u)
    (hs : w.s = some x) {r : Nat} (hr : r ∈ sDests x) :
    ((u.issueEffects w t).core w.core).rd r = (u.afterScalar w).rd r := by
  obtain ⟨trapMode, hlegal⟩ := h.legal
  rw [State.issueEffects_rd, State.rd_coreEffects]
  exact fun y hq hy => legal_sq hlegal hs hq hr hy

/-! ## Branches and jumps (R125) -/

theorem add_signExtend_eq_ofInt {n : Nat} (a : Word) (off : BitVec n) :
    a + off.signExtend 32 = BitVec.ofInt 32 (a.toInt + off.toInt) := by
  rw [BitVec.ofInt_add, BitVec.ofInt_toInt, BitVec.signExtend]

theorem pc_sEffect_branch (c0 : Core) (csr : Nat → Word) (next : Word) (c : Core) (op : BranchOp) (ra rb : BitVec 5)
    (off : BitVec 16) :
    (sEffect c0 csr next c (.branch op ra rb off)).pc =
      if branchTaken op (c0.rd ra.toNat) (c0.rd rb.toNat) then c0.pc + off.signExtend 32 else c.pc := by
  simp only [sEffect]
  split <;> rfl

theorem exec_branch {i : Instr} {s u : State} {t : Task} {lw : LongWord} {op : BranchOp} {ra rb : BitVec 5} {off : BitVec 16}
    {taken : Prop} [Decidable taken] (hi : i.word = some { lw with s := some (.branch op ra rb off) })
    (htaken : branchTaken op ((u.core lw.core).rd ra.toNat) ((u.core lw.core).rd rb.toNat) = true ↔ taken)
    (h : s.IssuesFrom { lw with s := some (.branch op ra rb off) } t u) :
    ∃ n, exec i s = .next n ∧ (n.core lw.core).pc =
      if taken then BitVec.ofInt 32 ((u.core lw.core).pc.toInt + off.toInt)
      else (u.core lw.core).pc + BitVec.ofNat 32 (longWordLen { lw with s := some (.branch op ra rb off) }) := by
  refine ⟨_, exec_issues hi h, ?_⟩
  rw [State.issueEffects_pc u { lw with s := some (.branch op ra rb off) } t]
  simp only [onSlot, pc_sEffect_branch, htaken, add_signExtend_eq_ofInt, pc_popEnds, Core.pc_advance]

@[simp] theorem Core.rd_wr_self (c : Core) (rd : BitVec 5) (v : Word) :
    (c.wr rd.toNat v).rd rd.toNat = if rd = 0 then 0 else v := by
  have h0 : rd.toNat = 0 ↔ rd = 0 := BitVec.toNat_inj (y := 0#5)
  rw [Core.rd_wr, if_pos rfl]
  simp only [h0]

/-- A jump puts the next long word's PC in RD and goes to its own target. -/
theorem exec_jump {i : Instr} {s u : State} {t : Task} {w : LongWord} {x : SSlot} {rd : BitVec 5} {target : Word}
    (hi : i.word = some w) (hs : w.s = some x) (hrd : rd.toNat ∈ sDests x)
    (hx : ∀ c, sEffect (u.core w.core) (u.csr w.core) (u.nextPc w) c x =
      { c.wr rd.toNat (u.nextPc w) with pc := target }) (h : s.IssuesFrom w t u) :
    ∃ n, exec i s = .next n ∧ (n.core w.core).pc = target ∧
      (n.core w.core).rd rd.toNat = if rd = 0 then 0 else u.nextPc w := by
  refine ⟨_, exec_issues hi h, ?_, ?_⟩
  · exact (State.issueEffects_pc u w t).trans (congrArg Core.pc ((u.afterScalar_eq hs).trans (hx _)))
  · rw [h.rd_scalar hs hrd, u.afterScalar_eq hs, hx]
    exact Core.rd_wr_self _ _ _

/-- Settles O4: a branch's condition is the comparison of `branchTaken`, and an offset is added as a signed number. -/
theorem branchesAndJumps : Obligations.BranchesAndJumps := by
  refine ⟨fun s u t lw ra rb off => ⟨?_, ?_, ?_, ?_, ?_, ?_⟩, fun s u t lw rd ra off imm => ⟨?_, ?_⟩⟩
  · exact exec_branch rfl (by simp [branchTaken])
  · exact exec_branch rfl (by simp [branchTaken])
  · exact exec_branch rfl (by simp [branchTaken, BitVec.slt_iff_toInt_lt])
  · exact exec_branch rfl (by simp [branchTaken, BitVec.slt_eq_decide])
  · exact exec_branch rfl (by simp [branchTaken, BitVec.ult_iff_lt, BitVec.lt_def])
  · exact exec_branch rfl (by simp [branchTaken, BitVec.ult_eq_decide])
  · exact exec_jump rfl rfl (by simp [sDests]) fun c => by simp only [sEffect, add_signExtend_eq_ofInt]
  · exact exec_jump rfl rfl (by simp [sDests]) fun c => by simp only [sEffect, add_signExtend_eq_ofInt]

/-! ## The empty long word, END, TRET and ICINV (R82, R75, R112, R127) -/

/-- An ICINV drops the lines that hold a byte of its range. -/
theorem mem_icinvLines (l : List (Nat × LineState)) (a n : Nat) (e : Nat × LineState) :
    e ∈ icinvLines l a n ↔ e ∈ l ∧ ∀ x, a ≤ x → x < a + n → x / 128 ≠ e.1 := by
  unfold icinvLines
  split
  · rename_i h0
    exact ⟨fun h => ⟨h, fun x _ _ => by omega⟩, And.left⟩
  · rename_i h0
    simp only [List.mem_filter, Bool.not_eq_true', Bool.and_eq_false_imp, decide_eq_true_eq, decide_eq_false_iff_not]
    refine and_congr_right fun _ => ⟨fun h x h1 h2 => by omega, fun h hlo hhi => ?_⟩
    exact h (max a (128 * e.1)) (by omega) (by omega) (by omega)

theorem State.coreEffects_empty (u : State) (core : Nat) (wait : BitVec 8) (hint : BitVec 2) :
    u.coreEffects { core := core, wait := wait, hint := hint } = (u.core core).advance wait ((u.core core).pc + 1) := by
  simp [State.coreEffects, onSlot, popEnds, slotList, longWordLen, b2n]

theorem exec_emptyLongWord {s u : State} {t : Task} {core : Nat} {wait : BitVec 8} {hint : BitVec 2}
    (h : s.IssuesFrom { core := core, wait := wait, hint := hint } t u) :
    ∃ n, exec (.emptyLongWord core wait hint) s = .next n ∧ (n.core core).pc = (u.core core).pc + 1 ∧
      (n.core core).flags = (u.core core).flags &&& ~~~wait ∧ ∀ r, (n.core core).rd r = (u.core core).rd r := by
  obtain ⟨i, l, hcore, -⟩ := u.issueEffects_core { core := core, wait := wait, hint := hint } t
    (fun _ _ _ _ _ _ => nofun) (fun _ => nofun)
  rw [State.coreEffects_empty] at hcore
  refine ⟨_, exec_issues rfl h, ?_⟩
  rw [hcore]
  exact ⟨rfl, rfl, fun r => Core.rd_congr rfl r⟩

theorem exec_endTask {s u : State} {t : Task} {lw : LongWord} (h : s.IssuesFrom { lw with s := some .endTask } t u) :
    ∃ n, exec (.endTask lw) s = .next n ∧ (n.core lw.core).ending = true ∧ n.canIssue lw.core = false := by
  have hending := State.issueEffects_ending u { lw with s := some .endTask } t
  simp only [onSlot, sEffect] at hending
  exact ⟨_, exec_issues rfl h, hending, by simp [State.canIssue, hending]⟩

theorem exec_tret {s u : State} {t : Task} {lw : LongWord} {skip : Bool}
    (h : s.IssuesFrom { lw with s := some (.tret skip) } t u) :
    ∃ n, exec (.tret lw skip) s = .next n ∧ (n.core lw.core).trapMode = false ∧
      (n.core lw.core).pc = if skip then (u.core lw.core).trapPc + BitVec.ofNat 32 (u.core lw.core).trapLen
        else (u.core lw.core).trapPc :=
  ⟨_, exec_issues rfl h, State.issueEffects_trapMode u { lw with s := some (.tret skip) } t,
    State.issueEffects_pc u { lw with s := some (.tret skip) } t⟩

theorem exec_icinv {s u : State} {t : Task} {lw : LongWord} {ra rb : BitVec 5} {a : Nat}
    (ha : (u.core lw.core).addr ra.toNat = some a) (h : s.IssuesFrom { lw with s := some (.icinv ra rb) } t u) :
    ∃ n, exec (.icinv lw ra rb) s = .next n ∧ ∀ e, e ∈ (n.core lw.core).icache ↔ e ∈ (u.core lw.core).icache ∧
      ∀ x, a ≤ x → x < a + ((u.core lw.core).rd rb.toNat).toNat → x / 128 ≠ e.1 := by
  refine ⟨_, exec_issues rfl h, fun e => ?_⟩
  have hicache := State.issueEffects_icache u { lw with s := some (.icinv ra rb) } t
  simp only [onSlot, sEffect, ha, Option.getD_some, icache_popEnds, Core.icache_advance] at hicache
  rw [hicache, mem_icinvLines]

/-- A long word that is illegal takes the illegal-encoding trap before anything else of it is judged (R86). -/
theorem State.issue_illegal {s f : State} {w : LongWord} {t : Task} {m : Nat} (hissue : s.canIssue w.core = true)
    (htask : (s.core w.core).task = some t) (hwait : (s.core w.core).waitReady w.wait = true)
    (hfetch : s.fetch w.core (longWordLen w) = (f, .ok)) (hillegal : wordIllegal w (f.core w.core).trapMode = some m) :
    s.issue w = f.takeTrap w.core .illegalEncoding 0 m (longWordLen w) none := by
  simp [State.issue, hissue, htask, hwait, hfetch, hillegal]

/-- A TRET outside trap mode is illegal (R112). -/
theorem wordIllegal_tret {w : LongWord} {skip : Bool} (hs : w.s = some (.tret skip)) : ∃ m, wordIllegal w false = some m := by
  refine Option.ne_none_iff_exists'.mp fun hlegal => ?_
  obtain ⟨hslot, -⟩ := legal_slots hlegal
  simp [hs, sLegal] at hslot

theorem causeWord_mod (tr : Trap) (source slots : Nat) : (causeWord tr source slots).toNat % 256 = trapCode tr := by
  have hcode : trapCode tr < 256 := by cases tr <;> decide
  rw [causeWord, BitVec.toNat_ofNat]
  omega

theorem exec_tret_outside {s f : State} {t : Task} {lw : LongWord} {skip : Bool} (hissue : s.canIssue lw.core = true)
    (htask : (s.core lw.core).task = some t) (hwait : (s.core lw.core).waitReady lw.wait = true)
    (hfetch : s.fetch lw.core (longWordLen { lw with s := some (.tret skip) }) = (f, .ok))
    (hmode : (f.core lw.core).trapMode = false) (hvec : (f.core lw.core).trapVec ≠ 0) :
    ∃ n, exec (.tret lw skip) s = .next n ∧ (n.core lw.core).trapMode = true ∧
      (n.core lw.core).trapCause.toNat % 256 = 1 ∧ (n.core lw.core).pc = (f.core lw.core).trapVec + 32 ∧
      (n.core lw.core).sregs = (f.core lw.core).sregs := by
  obtain ⟨m, hillegal⟩ := wordIllegal_tret (w := { lw with s := some (.tret skip) }) (skip := skip) rfl
  refine ⟨_, (exec_word rfl s).trans (congrArg Host.Outcome.next
    (State.issue_illegal (w := { lw with s := some (.tret skip) }) hissue htask hwait hfetch (hmode ▸ hillegal))), ?_⟩
  rw [State.takeTrap_handled 0 m _ none hmode hvec rfl, State.core_setCore, if_pos rfl]
  exact ⟨rfl, causeWord_mod _ _ _, rfl, rfl⟩

/-- Settles O1: each of the four has its effect on the core that the pops leave, and a TRET outside trap mode is illegal. -/
theorem emptyEndTretIcinv : Obligations.EmptyEndTretIcinv :=
  ⟨fun _ _ _ _ _ _ h => exec_emptyLongWord h,
   fun _ _ _ _ _ _ _ => ⟨exec_endTask, exec_tret, fun _ => exec_icinv⟩,
   fun _ _ _ _ _ hissue htask hwait hfetch hmode hvec => exec_tret_outside hissue htask hwait hfetch hmode hvec⟩

/-! ## CSRs (R126) -/

/-- What an operation with the operand `v` makes of a CSR field that is RW (R126). -/
def csrChange (op : CsrOp) (v x : Word) : Word :=
  match op with
  | .csrr => x
  | .csrw => v
  | .csrs => x ||| v
  | .csrc => x &&& ~~~v

/-- The bits that an operation with the operand `v` clears where they are RW1C (R126). -/
def csrOnes (op : CsrOp) (v : Word) : Word :=
  match op with
  | .csrw => v
  | _ => 0

/-- What an S slot leaves of its core `c` and its CSR: the value read goes to RD. -/
def csrEffect (old : Word) (c : Core) (op : CsrOp) (rd i : Nat) (v : Word) : Core :=
  let c := (c.wr rd old).csrLatch i
  match op with
  | .csrr => c
  | .csrw => c.csrWrite i v
  | .csrs => c.csrSet i v
  | .csrc => c.csrClear i v

theorem sEffect_csr (c0 : Core) (csr : Nat → Word) (next : Word) (c : Core) (op : CsrOp) (rd ra : BitVec 5) (i : BitVec 12) :
    sEffect c0 csr next c (.csr op rd ra i) = csrEffect (csr i.toNat) c op rd.toNat i.toNat (c0.rd ra.toNat) := rfl

section
variable (old : Word) (c : Core) (op : CsrOp) (rd : Nat) (v : Word)

theorem rd_csrEffect (i r : Nat) : (csrEffect old c op rd i v).rd r = (c.wr rd old).rd r := by
  cases op <;> simp only [csrEffect, Core.rd_csrWrite, Core.rd_csrSet, Core.rd_csrClear, Core.rd_csrLatch]

theorem ctimeout_csrEffect : (csrEffect old c op rd 3 v).ctimeout = csrChange op v c.ctimeout := by
  cases op <;> simp [csrEffect, csrChange, Core.csrWrite, Core.csrSet, Core.csrClear]

theorem trapVec_csrEffect : (csrEffect old c op rd 8 v).trapVec = csrChange op v c.trapVec := by
  cases op <;> simp [csrEffect, csrChange, Core.csrWrite, Core.csrSet, Core.csrClear]

theorem discSel_csrEffect : (csrEffect old c op rd 0x20 v).discSel = csrChange op v c.discSel := by
  cases op <;> simp [csrEffect, csrChange, Core.csrWrite, Core.csrSet, Core.csrClear]

theorem flags_csrEffect : (csrEffect old c op rd 1 v).flags = (csrChange op v (c.flags.setWidth 32)).setWidth 8 := by
  cases op <;> simp [csrEffect, csrChange, Core.csrWrite, Core.csrSet, Core.csrClear]

theorem lost_csrEffect : (csrEffect old c op rd 1 v).lost = c.lost &&& ~~~(csrOnes op v >>> 8).setWidth 8 := by
  cases op with
  | csrw => simp [csrEffect, csrOnes, Core.csrWrite]
  | csrr | csrs | csrc =>
    simp only [csrEffect, csrOnes, Core.csrSet, Core.csrClear, Core.lost_csrLatch, Core.lost_wr]
    exact BitVec.and_allOnes.symm

theorem fpstat_csrEffect : (csrEffect old c op rd 0 v).fpstat = {
    invalid := c.fpstat.invalid && !(csrOnes op v).getLsbD 0, overflow := c.fpstat.overflow && !(csrOnes op v).getLsbD 1,
    underflow := c.fpstat.underflow && !(csrOnes op v).getLsbD 2, clamped := c.fpstat.clamped && !(csrOnes op v).getLsbD 3 } := by
  cases op <;> simp [csrEffect, csrOnes, Core.csrWrite, Core.csrSet, Core.csrClear, flagsOfBits, BitVec.getLsbD]

theorem cycleHi_csrEffect (i : Nat) : (csrEffect old c op rd i v).cycleHi =
    if i = 0x10 then BitVec.ofNat 32 (c.cycles.toNat / 2 ^ 32) else c.cycleHi := by
  have hlatch : ((c.wr rd old).csrLatch i).cycleHi =
      if i = 0x10 then BitVec.ofNat 32 (c.cycles.toNat / 2 ^ 32) else c.cycleHi := by
    unfold Core.csrLatch
    split <;> simp
  cases op <;> simp [csrEffect, hlatch]

end

/-- What CSRR, CSRW, CSRS and CSRC leave of the core `c` of their long word: `f` is what becomes of an RW field, `ones` are the RW1C
bits to clear. -/
def CsrLeaves (w : LongWord) (rd : BitVec 5) (index : BitVec 12) (old : Word) (f : Word → Word) (ones : Word) (c k : Core) : Prop :=
  k.rd rd.toNat = (if rd = 0 then 0 else old) ∧
  (index = 3 → k.ctimeout = f c.ctimeout) ∧ (index = 8 → k.trapVec = f c.trapVec) ∧
  (index = 0x20 → k.discSel = f c.discSel) ∧
  (w.q = none → w.d = none → w.v = none → w.m = none → w.t = none →
    (index = 1 → k.flags = (f ((c.flags &&& ~~~w.wait).setWidth 32)).setWidth 8 ∧
      k.lost = c.lost &&& ~~~(ones >>> 8).setWidth 8) ∧
    (index = 0 → k.fpstat.invalid = (c.fpstat.invalid && !ones.getLsbD 0) ∧
      k.fpstat.overflow = (c.fpstat.overflow && !ones.getLsbD 1) ∧
      k.fpstat.underflow = (c.fpstat.underflow && !ones.getLsbD 2) ∧
      k.fpstat.clamped = (c.fpstat.clamped && !ones.getLsbD 3)) ∧
    k.seq = c.seq ∧ k.queues = c.queues ∧ k.trapCause = c.trapCause ∧ k.trapPc = c.trapPc ∧ k.trapAddr = c.trapAddr ∧
    k.cycles = c.cycles ∧
    k.cycleHi = if index = 0x10 then BitVec.ofNat 32 (c.cycles.toNat / 2 ^ 32) else c.cycleHi)

/-- A long word with the S slot alone leaves its core with that slot's effect, but for the loop that a hint names. -/
theorem State.issueEffects_scalar (u : State) (t : Task) {w : LongWord} {x : SSlot} (hs : w.s = some x) (hq : w.q = none)
    (hd : w.d = none) (hv : w.v = none) (hm : w.m = none) :
    ∃ l, (u.issueEffects w t).core w.core = { sEffect (u.core w.core) (u.csr w.core) (u.nextPc w)
      ((u.core w.core).advance w.wait (u.nextPc w)) x with loopHead := l } := by
  obtain ⟨i, l, hcore, hi⟩ := u.issueEffects_core w t (fun _ _ _ _ _ _ => by simp [hq]) (fun _ => by simp [hd])
  refine ⟨l, ?_⟩
  rw [hcore, hi hd, u.coreEffects_scalar w x hs hq hv hm]

theorem State.IssuesFrom.csrLeaves {s u : State} {t : Task} {w : LongWord} {op : CsrOp} {rd ra : BitVec 5} {index : BitVec 12}
    (h : s.IssuesFrom w t u) (hs : w.s = some (.csr op rd ra index)) :
    CsrLeaves w rd index (u.csr w.core index.toNat) (csrChange op ((u.core w.core).rd ra.toNat))
      (csrOnes op ((u.core w.core).rd ra.toNat)) (u.core w.core) ((u.issueEffects w t).core w.core) := by
  refine ⟨?_, ?_, ?_, ?_, fun hq hd hv hm _ => ?_⟩
  · rw [h.rd_scalar hs (by simp [sDests]), u.afterScalar_eq hs, sEffect_csr, rd_csrEffect, Core.rd_wr_self]
  · rintro rfl
    refine (State.issueEffects_ctimeout u w t).trans ((congrArg Core.ctimeout (u.afterScalar_eq hs)).trans ?_)
    exact (ctimeout_csrEffect ..).trans (by simp)
  · rintro rfl
    refine (State.issueEffects_trapVec u w t).trans ((congrArg Core.trapVec (u.afterScalar_eq hs)).trans ?_)
    exact (trapVec_csrEffect ..).trans (by simp)
  · rintro rfl
    refine (State.issueEffects_discSel u w t).trans ((congrArg Core.discSel (u.afterScalar_eq hs)).trans ?_)
    exact (discSel_csrEffect ..).trans (by simp)
  · obtain ⟨l, hcore⟩ := u.issueEffects_scalar t hs hq hd hv hm
    have hindex : index.toNat = 0x10 ↔ index = 0x10 := BitVec.toNat_inj (y := 0x10#12)
    rw [hcore]
    refine ⟨?_, ?_, by simp, by simp, by simp, by simp, by simp, by simp, ?_⟩
    · rintro rfl
      exact ⟨flags_csrEffect .., lost_csrEffect ..⟩
    · rintro rfl
      have hfp := fpstat_csrEffect (u.csr w.core 0) ((u.core w.core).advance w.wait (u.nextPc w)) op rd.toNat
        ((u.core w.core).rd ra.toNat)
      exact ⟨congrArg FpFlags.invalid hfp, congrArg FpFlags.overflow hfp, congrArg FpFlags.underflow hfp,
        congrArg FpFlags.clamped hfp⟩
    · exact (cycleHi_csrEffect ..).trans (by simp only [hindex, Core.cycles_advance, Core.cycleHi_advance])

theorem exec_csr {i : Instr} {s u : State} {t : Task} {w : LongWord} {op : CsrOp} {rd ra : BitVec 5} {index : BitVec 12}
    (hi : i.word = some w) (hs : w.s = some (.csr op rd ra index)) (h : s.IssuesFrom w t u) :
    ∃ n, exec i s = .next n ∧ CsrLeaves w rd index (u.csr w.core index.toNat) (csrChange op ((u.core w.core).rd ra.toNat))
      (csrOnes op ((u.core w.core).rd ra.toNat)) (u.core w.core) (n.core w.core) :=
  ⟨_, exec_issues hi h, h.csrLeaves hs⟩

/-- Settles O5: the four operations differ in what becomes of an RW field (`csrChange`) and in the RW1C bits that they clear
(`csrOnes`). -/
theorem csrOperations : Obligations.CsrOperations := by
  intro s u t lw rd ra index
  exact ⟨exec_csr (i := .csrr lw rd index) (op := .csrr) rfl rfl, exec_csr (i := .csrw lw rd ra index) (op := .csrw) rfl rfl,
    exec_csr (i := .csrs lw rd ra index) (op := .csrs) rfl rfl, exec_csr (i := .csrc lw rd ra index) (op := .csrc) rfl rfl⟩

end Sys2Proof.Machine
end

section
/-! The operations of the Q, M and T slots. In a long word whose other slots move no tile, a Q or an M slot has its effect on the core
after the pops (`Core.Popped`); each operation's own lemma says what that effect is. A T slot's command stands at the end of its
tower's queue, which no other slot but START touches. -/

namespace Sys2Proof.Machine

/-! ## The core that a Q or an M slot finds -/

/-- The core `c` is `c0` with the ends `l` popped: its other ends, its tile store, its live ranges and its banks are those of `c0`. -/
structure Core.Popped (c0 c : Core) (l : List Nat) : Prop where
  queue : ∀ e, c.queue e = if e ∈ l then (c0.pop e).queue e else c0.queue e
  tiles : c.tiles = c0.tiles
  live : c.live = c0.live
  acc : c.acc = c0.acc

theorem Core.Popped.tags {c0 c : Core} {l : List Nat} (h : c0.Popped c l) (e : Nat) :
    (c.queue e).tags = if e ∈ l then (c0.queue e).tags.tail else (c0.queue e).tags := by
  rw [h.queue]
  split <;> simp

theorem State.popped_afterScalar (u : State) (w : LongWord) : (u.core w.core).Popped (u.afterScalar w) (wordPopped w) := by
  have keeps {γ : Type} (g : Core → γ) (hg : ∀ c x, g (sEffect (u.core w.core) (u.csr w.core) (u.nextPc w) c x) = g c) :
      g (u.afterScalar w) = g (popEnds w ((u.core w.core).advance w.wait (u.nextPc w))) :=
    onSlot_keeps w.s _ _ g fun c x _ => hg c x
  refine ⟨fun e => ?_, ?_, ?_, ?_⟩
  · rw [keeps (fun c => c.queue e) fun c x => Core.queue_congr (queues_sEffect ..) e, queue_popEnds]
    simp
  · simp [keeps Core.tiles fun c x => tiles_sEffect ..]
  · simp [keeps Core.live fun c x => live_sEffect ..]
  · simp [keeps Core.acc fun c x => acc_sEffect ..]

/-- The cores `k` and `d` are one but for their operations in flight and the loop that a hint keeps. -/
def Core.Beside (k d : Core) : Prop := ∃ j l, k = { d with inflight := j, loopHead := l }

section
variable {k d : Core} (h : k.Beside d)
include h

theorem Core.Beside.queue (e : Nat) : k.queue e = d.queue e := by obtain ⟨j, l, rfl⟩ := h; rfl
theorem Core.Beside.tiles : k.tiles = d.tiles := by obtain ⟨j, l, rfl⟩ := h; rfl
theorem Core.Beside.live : k.live = d.live := by obtain ⟨j, l, rfl⟩ := h; rfl
theorem Core.Beside.rd (r : Nat) : k.rd r = d.rd r := by obtain ⟨j, l, rfl⟩ := h; rfl
theorem Core.Beside.bank (b : Nat) : k.bank b = d.bank b := by obtain ⟨j, l, rfl⟩ := h; rfl

end

/-- A long word with a Q slot and no V or M slot has that slot's effect on its core after the pops. -/
theorem exec_queueSlot {i : Instr} {lw : LongWord} {x : QSlot} {s u : State} {t : Task}
    (hi : i.word = some { lw with q := some x }) (hx : ∀ a b c d f g, x ≠ .bind a b c d f g) (hv : lw.v = none)
    (hm : lw.m = none) (hd : ∀ r, lw.d ≠ some (.start r)) (h : s.IssuesFrom { lw with q := some x } t u) :
    ∃ n c, exec i s = .next n ∧ (n.core lw.core).Beside (qEffect (u.core lw.core) c x) ∧
      (u.core lw.core).Popped c (qPops x) ∧ qLegal x = true := by
  obtain ⟨trapMode, hlegal⟩ := h.legal
  obtain ⟨-, hqlegal, -⟩ := legal_slots hlegal
  obtain ⟨j, l, hcore, -⟩ := u.issueEffects_core { lw with q := some x } t
    (fun a b c d f g hb => hx a b c d f g (Option.some.inj hb)) hd
  have hpops : wordPopped { lw with q := some x } = qPops x := by simp [wordPopped, hv, hm, slotList]
  have heffect : u.coreEffects { lw with q := some x } =
      qEffect (u.core lw.core) (u.afterScalar { lw with q := some x }) x := by
    simp [State.coreEffects, State.afterScalar, hv, hm, onSlot]
  rw [heffect] at hcore
  exact ⟨_, _, exec_issues hi h, ⟨j, l, hcore⟩, hpops ▸ u.popped_afterScalar { lw with q := some x }, by simpa using hqlegal⟩

/-! ## Q-slot moves (R131) -/

section
variable {c0 c : Core} {qa qb qc ra rb rd : BitVec 5} {rows cols : BitVec 6}

theorem Core.queue_push_ne {q e : Nat} (he : e ≠ q) (m : Memory) (tag : Word) : (c.push q m tag).queue e = c.queue e := by
  rw [Core.queue_push, if_neg he]

/-- A tile pushed stands behind those that the end held, in the slot at their tail. -/
theorem Core.push_holds {q : Nat} (hq : c.queue q = c0.queue q) (m : Memory) (tag : Word) :
    ((c.push q m tag).queue q).tags = (c0.queue q).tags ++ [tag] ∧
    ∀ x, x < tileBytes (c0.queue q).fmt → (c.push q m tag).tiles.get ((c0.queue q).slotAt (c0.queue q).count + x) = m.get x := by
  refine ⟨by simp [hq], fun x hx => ?_⟩
  rw [Core.tiles_push, hq, if_pos (by omega), Nat.add_sub_cancel_left]

theorem Core.Popped.queue_ne {q e : Nat} (h : c0.Popped c [q]) (he : e ≠ q) : c.queue e = c0.queue e := by
  rw [h.queue, if_neg (by simpa using he)]

theorem Core.Popped.tags_self {q : Nat} (h : c0.Popped c [q]) : (c.queue q).tags = (c0.queue q).tags.tail := by
  simp [h.queue]

theorem Core.Popped.qmov (h : c0.Popped c [qa.toNat]) (hlegal : qLegal (.qmov qa qb) = true) :
    ((qEffect c0 c (.qmov qa qb)).queue qa.toNat).tags = (c0.queue qa.toNat).tags.tail ∧
    ((qEffect c0 c (.qmov qa qb)).queue qb.toNat).tags = (c0.queue qb.toNat).tags ++ [(c0.queue qa.toNat).tags.headD 0] ∧
    ∀ x, x < tileBytes (c0.queue qb.toNat).fmt →
      (qEffect c0 c (.qmov qa qb)).tiles.get ((c0.queue qb.toNat).slotAt (c0.queue qb.toNat).count + x) =
        (c0.headTile qa.toNat).data.get x := by
  have hab : qa.toNat ≠ qb.toNat := by simpa [qLegal, ← BitVec.toNat_inj] using hlegal
  refine ⟨?_, Core.push_holds (h.queue_ne hab.symm) _ _⟩
  rw [qEffect, Core.queue_push_ne hab, h.tags_self]

theorem Core.Popped.qdup (h : c0.Popped c [qa.toNat]) (hlegal : qLegal (.qdup qa qb qc) = true) :
    ((qEffect c0 c (.qdup qa qb qc)).queue qa.toNat).tags = (c0.queue qa.toNat).tags.tail ∧
    ((qEffect c0 c (.qdup qa qb qc)).queue qb.toNat).tags =
      (c0.queue qb.toNat).tags ++ [(c0.queue qa.toNat).tags.headD 0] ∧
    ((qEffect c0 c (.qdup qa qb qc)).queue qc.toNat).tags =
      (c0.queue qc.toNat).tags ++ [(c0.queue qa.toNat).tags.headD 0] ∧
    ∀ x, x < tileBytes (c0.queue qc.toNat).fmt →
      (qEffect c0 c (.qdup qa qb qc)).tiles.get ((c0.queue qc.toNat).slotAt (c0.queue qc.toNat).count + x) =
        (c0.headTile qa.toNat).data.get x := by
  obtain ⟨⟨hab, hac⟩, hbc⟩ : (qa.toNat ≠ qb.toNat ∧ qa.toNat ≠ qc.toNat) ∧ qb.toNat ≠ qc.toNat := by
    simpa [qLegal, ← BitVec.toNat_inj] using hlegal
  refine ⟨?_, ?_, Core.push_holds ((Core.queue_push_ne hbc.symm _ _).trans (h.queue_ne hac.symm)) _ _⟩
  · rw [qEffect, Core.queue_push_ne hac, Core.queue_push_ne hab, h.tags_self]
  · rw [qEffect, Core.queue_push_ne hbc, (Core.push_holds (h.queue_ne hab.symm) _ _).1]
    rfl

theorem Core.Popped.qdrop (h : c0.Popped c [qa.toNat]) :
    ((qEffect c0 c (.qdrop qa)).queue qa.toNat).tags = (c0.queue qa.toNat).tags.tail ∧
    (qEffect c0 c (.qdrop qa)).tiles = c0.tiles :=
  ⟨h.tags_self, h.tiles⟩

theorem Core.Popped.tpush (h : c0.Popped c []) :
    ((qEffect c0 c (.tpush qb ra rows cols)).queue qb.toNat).tags =
      (c0.queue qb.toNat).tags ++ [mkTag false false (rows.toNat + 1) (cols.toNat + 1)] :=
  (Core.push_holds (h.queue _) _ _).1

theorem Core.Popped.tpop (h : c0.Popped c [qa.toNat]) :
    ((qEffect c0 c (.tpop qa ra rd)).queue qa.toNat).tags = (c0.queue qa.toNat).tags.tail ∧
    (qEffect c0 c (.tpop qa ra rd)).rd rd.toNat = (if rd = 0 then 0 else (c0.queue qa.toNat).tags.headD 0) ∧
    ∀ x, (qEffect c0 c (.tpop qa ra rd)).tiles.get x =
      if (c0.rd ra.toNat).toNat ≤ x ∧ x < (c0.rd ra.toNat).toNat + tileBytes (c0.queue qa.toNat).fmt
      then (c0.headTile qa.toNat).data.get (x - (c0.rd ra.toNat).toNat) else c0.tiles.get x := by
  refine ⟨?_, Core.rd_wr_self .., fun x => ?_⟩
  · rw [← h.tags_self]
    exact congrArg Queue.tags (Core.queue_wr ..)
  · rw [qEffect, Memory.get_paste, h.tiles]
    rfl

theorem Core.Popped.qlive (h : c0.Popped c []) :
    if (c0.rd rb.toNat).toNat = 0 then
      (qEffect c0 c (.qlive ra rb)).live = if (c0.rd ra.toNat).toNat = 0 then [] else c0.live
    else ((c0.rd ra.toNat).toNat, (c0.rd rb.toNat).toNat) ∈ (qEffect c0 c (.qlive ra rb)).live ∧
      ∀ x ∈ c0.live, x ∈ (qEffect c0 c (.qlive ra rb)).live := by
  simp only [qEffect, addLive, h.live]
  split
  · rfl
  · split
    · rename_i hin
      exact ⟨by simpa using hin, fun x hx => hx⟩
    · exact ⟨by simp, fun x hx => by simp [hx]⟩

end

/-- Settles O9: each move is its slot's effect on the core with QA popped, and the ends of a legal QMOV or QDUP differ. -/
theorem queueMoves : Obligations.QueueMoves := by
  intro s u t lw qa qb qc ra rb rd rows cols hv hm hd
  refine ⟨fun h => ?_, fun h => ?_, fun h => ?_, fun h => ?_, fun h => ?_, fun h => ?_⟩
  · obtain ⟨n, c, hn, hk, hc, hlegal⟩ := exec_queueSlot (i := .qmov lw qa qb) rfl (by simp) hv hm hd h
    exact ⟨n, hn, by simpa only [hk.queue, hk.tiles] using hc.qmov hlegal⟩
  · obtain ⟨n, c, hn, hk, hc, hlegal⟩ := exec_queueSlot (i := .qdup lw qa qb qc) rfl (by simp) hv hm hd h
    exact ⟨n, hn, by simpa only [hk.queue, hk.tiles] using hc.qdup hlegal⟩
  · obtain ⟨n, c, hn, hk, hc, -⟩ := exec_queueSlot (i := .qdrop lw qa) rfl (by simp) hv hm hd h
    exact ⟨n, hn, by simpa only [hk.queue, hk.tiles] using hc.qdrop⟩
  · obtain ⟨n, c, hn, hk, hc, -⟩ := exec_queueSlot (i := .tpush lw qb ra rows cols) rfl (by simp) hv hm hd h
    exact ⟨n, hn, by simpa only [hk.queue] using hc.tpush⟩
  · obtain ⟨n, c, hn, hk, hc, -⟩ := exec_queueSlot (i := .tpop lw qa ra rd) rfl (by simp) hv hm hd h
    exact ⟨n, hn, by simpa only [hk.queue, hk.rd, hk.tiles] using hc.tpop⟩
  · obtain ⟨n, c, hn, hk, hc, -⟩ := exec_queueSlot (i := .qlive lw ra rb) rfl (by simp) hv hm hd h
    exact ⟨n, hn, by simpa only [hk.live] using hc.qlive⟩

/-! ## Tile tags (Table 03-11) -/

theorem toNat_mkTag (poison last : Bool) (rows cols : Nat) : (mkTag poison last rows cols).toNat =
    b2n poison * 2 ^ 31 + b2n last * 2 ^ 30 + (rows - 1) % 64 * 64 + (cols - 1) % 64 := by
  have hb (b : Bool) : b2n b ≤ 1 := by cases b <;> decide
  have hp := hb poison
  have hl := hb last
  rw [mkTag, BitVec.toNat_ofNat, Nat.mod_eq_of_lt (by omega)]

theorem tagPoison_mkTag (poison last : Bool) (rows cols : Nat) : tagPoison (mkTag poison last rows cols) = poison := by
  rw [tagPoison, BitVec.getLsbD, toNat_mkTag, Nat.testBit_eq_decide_div_mod_eq]
  cases poison <;> cases last <;> simp [b2n] <;> omega

theorem tagRows_mkTag (poison last : Bool) {rows : Nat} (cols : Nat) (h1 : 1 ≤ rows) (h64 : rows ≤ 64) :
    tagRows (mkTag poison last rows cols) = rows := by
  rw [tagRows, toNat_mkTag, field, Nat.shiftRight_eq_div_pow]
  omega

theorem tagCols_mkTag (poison last : Bool) (rows : Nat) {cols : Nat} (h1 : 1 ≤ cols) (h64 : cols ≤ 64) :
    tagCols (mkTag poison last rows cols) = cols := by
  rw [tagCols, toNat_mkTag, field, Nat.shiftRight_eq_div_pow]
  omega

theorem tagRows_bounds (t : Word) : 1 ≤ tagRows t ∧ tagRows t ≤ 64 := by
  have := Nat.mod_lt (t.toNat >>> 6) (Nat.two_pow_pos 6)
  exact ⟨Nat.le_add_left _ _, this⟩

theorem tagCols_bounds (t : Word) : 1 ≤ tagCols t ∧ tagCols t ≤ 64 := by
  have := Nat.mod_lt (t.toNat >>> 0) (Nat.two_pow_pos 6)
  exact ⟨Nat.le_add_left _ _, this⟩

/-! ## Banks (R147, R148) -/

/-- The ends that an M slot pops. -/
def mPops (m : MSlot) : List Nat := ((mReads m).filter fun x => !x.2).map (·.1)

/-- A long word with an M slot and no Q or V slot has that slot's effect on its core after the pops. -/
theorem exec_matrixSlot {i : Instr} {lw : LongWord} {x : MSlot} {s u : State} {t : Task}
    (hi : i.word = some { lw with m := some x }) (hq : lw.q = none) (hv : lw.v = none)
    (hd : ∀ r, lw.d ≠ some (.start r)) (h : s.IssuesFrom { lw with m := some x } t u) :
    ∃ n c free rnd, exec i s = .next n ∧ (n.core lw.core).Beside (mEffect (u.core lw.core) c free rnd x) ∧
      (u.core lw.core).Popped c (mPops x) := by
  obtain ⟨j, l, hcore, -⟩ := u.issueEffects_core { lw with m := some x } t (fun _ _ _ _ _ _ => by simp [hq]) hd
  have hpops : wordPopped { lw with m := some x } = mPops x := by simp [wordPopped, hq, hv, slotList, mPops]
  have heffect : u.coreEffects { lw with m := some x } = mEffect (u.core lw.core)
      (u.afterScalar { lw with m := some x }) (u.draw 7) (fun i => u.rounds (4096 + i)) x := by
    simp [State.coreEffects, State.afterScalar, hq, hv, onSlot]
  rw [heffect] at hcore
  exact ⟨_, _, _, _, exec_issues hi h, ⟨j, l, hcore⟩, hpops ▸ u.popped_afterScalar { lw with m := some x }⟩

theorem macBank_poison (acc : AccBank) (a b : Tile) (zero : Bool) (order : Nat → Nat) :
    (macBank acc a b zero order).1.poison = (tagPoison a.tag || tagPoison b.tag || (!zero && acc.poison)) := by
  have hpoison : (macBank acc a b zero order).1.poison =
      ((if zero then zeroBank else acc).poison || (tagPoison a.tag || tagPoison b.tag)) := rfl
  cases zero <;> simp [hpoison, zeroBank, Bool.or_comm]

theorem transposeTile_tag (t : Tile) :
    (transposeTile t).1.tag = mkTag (tagPoison t.tag) (tagLast t.tag) (tagCols t.tag) (tagRows t.tag) := by
  unfold transposeTile
  dsimp only
  split <;> rfl

section
variable {c0 c : Core} {qa qb qc : BitVec 5} {acc round : BitVec 2} {keepA keepB zero ovf : Bool} {free rnd : Nat → Nat}

theorem bank_mzero :
    (mEffect c0 c free rnd ⟨.mzero, 0, 0, 0, acc, false, false, false, 0, false⟩).bank acc.toNat = {} := by
  rw [mEffect, Core.bank_setBank, if_pos rfl, zeroBank]

theorem Core.Popped.mdrain (h : c0.Popped c []) :
    ((mEffect c0 c free rnd ⟨.mdrain, 0, 0, qc, acc, false, false, zero, round, ovf⟩).queue qc.toNat).tags =
      (c0.queue qc.toNat).tags ++
        [mkTag (c0.bank acc.toNat).poison false (c0.bank acc.toNat).rows (c0.bank acc.toNat).cols] ∧
    (mEffect c0 c free rnd ⟨.mdrain, 0, 0, qc, acc, false, false, zero, round, ovf⟩).bank acc.toNat =
      if zero then {} else c0.bank acc.toNat := by
  have hqueue : c.queue qc.toNat = c0.queue qc.toNat := h.queue _
  cases zero
  · simp only [mEffect, drainTile, Bool.false_eq_true, if_false, Core.queue_orFp, Core.bank_orFp, Core.bank_push,
      (Core.push_holds hqueue _ _).1, Core.bank_congr h.acc, and_self]
  · simp only [mEffect, drainTile, if_true, Core.queue_setBank, Core.bank_setBank, Core.queue_orFp,
      (Core.push_holds hqueue _ _).1, zeroBank, and_self]

theorem bank_mlda :
    ((mEffect c0 c free rnd ⟨.mlda, qa, 0, 0, acc, keepA, false, false, 0, false⟩).bank acc.toNat) =
      (loadBank (c0.headTile qa.toNat)).1 := by
  simp [mEffect]

theorem tags_mtr :
    ((mEffect c0 c free rnd ⟨.mtr, qa, 0, qc, 0, keepA, false, false, 0, false⟩).queue qc.toNat).tags.getLast? =
      some (transposeTile (c0.headTile qa.toNat)).1.tag := by
  simp [mEffect]

theorem bank_mmac :
    (mEffect c0 c free rnd ⟨.mmac, qa, qb, 0, acc, keepA, keepB, zero, 0, false⟩).bank acc.toNat =
      (macBank (c0.bank acc.toNat) (c0.headTile qa.toNat) (c0.headTile qb.toNat) zero free).1 := by
  simp [mEffect]

end

/-- Settles O12: each operation is its slot's effect on the core with its operands popped. -/
theorem matrixBanks : Obligations.MatrixBanks := by
  intro s u t lw qa qb qc acc round keepA keepB zero ovf hq hv hd
  refine ⟨fun h => ?_, fun h => ?_, fun h => ?_, fun h => ?_, fun h => ?_⟩
  · obtain ⟨n, c, free, rnd, hn, hk, -⟩ := exec_matrixSlot (i := .mzero lw acc) rfl hq hv hd h
    exact ⟨n, hn, by simpa only [hk.bank] using bank_mzero⟩
  · obtain ⟨n, c, free, rnd, hn, hk, hc⟩ := exec_matrixSlot (i := .mdrain lw qc acc zero round ovf) rfl hq hv hd h
    exact ⟨n, hn, by simpa only [hk.queue, hk.bank] using hc.mdrain⟩
  · obtain ⟨n, c, free, rnd, hn, hk, -⟩ := exec_matrixSlot (i := .mlda lw qa acc keepA) rfl hq hv hd h
    refine ⟨n, hn, ?_⟩
    simp only [hk.bank, bank_mlda]
    exact ⟨rfl, rfl, rfl⟩
  · obtain ⟨n, c, free, rnd, hn, hk, -⟩ := exec_matrixSlot (i := .mtr lw qa qc keepA) rfl hq hv hd h
    obtain ⟨hr1, hr64⟩ := tagRows_bounds ((u.core lw.core).headTile qa.toNat).tag
    obtain ⟨hc1, hc64⟩ := tagCols_bounds ((u.core lw.core).headTile qa.toNat).tag
    refine ⟨n, hn, _, (congrArg (fun q : Queue => q.tags.getLast?) (hk.queue _)).trans tags_mtr, ?_⟩
    rw [transposeTile_tag]
    exact ⟨tagPoison_mkTag .., tagRows_mkTag _ _ _ hc1 hc64, tagCols_mkTag _ _ _ hr1 hr64⟩
  · obtain ⟨n, c, free, rnd, hn, hk, -⟩ := exec_matrixSlot (i := .mmac lw qa qb acc keepA keepB zero) rfl hq hv hd h
    refine ⟨n, hn, ?_⟩
    simp only [hk.bank, bank_mmac, macBank_poison]

/-! ## Tower commands (R151, R153, R191) -/

/-- The command that a T slot puts in a tower's queue, the number `order` of its tower's commands. -/
def queuedCommand (x : TSlot) (core : Nat) (t : Task) (c0 : Core) (order : Nat) : TowerCmd :=
  { cmd := x.cmd, params := c0.dmem.bytes (c0.rd x.rp.toNat).toNat 64, core := core, part := t.part, job := t.job,
    qret := x.qret.toNat, retEn := x.retEn, flag := flagOf x.flag, order := order }

theorem State.queue_tEffect (s : State) (core : Nat) (t : Task) (c0 : Core) (x : TSlot) :
    ((s.tEffect core t c0 x).tower (Config.groupOfCore core)).queue = (s.tower (Config.groupOfCore core)).queue ++
      [queuedCommand x core t c0 (s.tower (Config.groupOfCore core)).nextOrder] := by
  simp [State.tEffect, queuedCommand]

/-- No slot but the T slot and START touches a tower. -/
theorem State.towers_onSlot_dEffect (s : State) (core : Nat) (t : Task) (c0 : Core) (d : Option DSlot)
    (hd : ∀ r, d ≠ some (.start r)) : (onSlot d (fun s x => s.dEffect core t c0 x) s).towers = s.towers := by
  refine onSlot_keeps d _ _ State.towers fun b x hx => ?_
  obtain ⟨i, k, g, l, tg, e, p, hframe⟩ := b.dEffect_frame core t c0 x fun r hr => hd r (hx.trans (congrArg some hr))
  rw [hframe, State.towers_setCore]

theorem State.issueEffects_queue (u : State) {w : LongWord} {x : TSlot} (t : Task) (ht : w.t = some x)
    (hd : ∀ r, w.d ≠ some (.start r)) :
    ((u.issueEffects w t).tower (Config.groupOfCore w.core)).queue = (u.tower (Config.groupOfCore w.core)).queue ++
      [queuedCommand x w.core t (u.core w.core) (u.tower (Config.groupOfCore w.core)).nextOrder] := by
  have htower (v : State) (hv : v.towers = u.towers) (g : Nat) : v.tower g = u.tower g := by simp only [State.tower, hv]
  unfold State.issueEffects
  dsimp only
  generalize hs : (u.setCore w.core _).tick = v
  have hbefore := (v.towers_onSlot_dEffect w.core t (u.core w.core) w.d hd).trans (hs ▸ rfl : v.towers = u.towers)
  have heffect := State.queue_tEffect (onSlot w.d (fun s x => s.dEffect w.core t (u.core w.core) x) v) w.core t (u.core w.core) x
  rw [htower _ hbefore] at heffect
  rw [ht]
  split <;> exact heffect

/-- Settles O13: the T slot's command stands behind the tower's queue, with the bytes at RP. -/
theorem towerCommandQueued : Obligations.TowerCommandQueued := by
  intro i w x s u t hi ht hd h
  refine ⟨_, exec_issues hi h, _, u.issueEffects_queue t ht hd, rfl, rfl, rfl, rfl, rfl, rfl, rfl, rfl, fun k hk => ?_⟩
  exact Memory.bytes_getElem? _ _ _ _ hk

end Sys2Proof.Machine
end

section
/-! The head of a tower's queue: its check, its first instalment and its start. The layer sequencers, which refill the queue after a
start, touch no running command. -/

namespace Sys2Proof.Machine

/-! ## The check (R192 to R194, R322) -/

/-- Paying changes nothing of a command but that it is paid. -/
theorem State.payFirst_snd (s : State) (t : Nat) (c : TowerCmd) (k : CmdCheck) :
    (s.payFirst t c k).2 = { c with paid := c.paid || s.covers t (firstInstalment c k) } := by
  unfold State.payFirst
  generalize s.covers t (firstInstalment c k) = covered
  obtain ⟨cmd, params, core, part, job, qret, retEn, flag, bySeq, order, checked, paid⟩ := c
  cases paid <;> cases covered <;> rfl

/-- A command that passes its check stays at the head, checked, and pays its first instalment where the purse covers it. -/
theorem execTcmdHeadCheck_passes {s : State} {tower : Nat} {c : TowerCmd} {rest : List TowerCmd} {k : CmdCheck}
    (hqueue : (s.tower tower).queue = c :: rest) (hruns : s.keepRuns tower = true) (hchecked : c.checked = none)
    (hfree : ∀ r ∈ (s.tower tower).running, r.working = true → namesSeq r.cmd.cmd = false ∨ r.cmd.seqAddr ≠ c.seqAddr)
    (hcheck : (s.checkCmd tower c).2 = .ok k) :
    ∃ n, execTcmdHeadCheck tower s = .next n ∧ (n.tower tower).queue =
      { c with checked := some k, paid := c.paid || (s.checkCmd tower c).1.covers tower (firstInstalment c k) } :: rest := by
  have hbusy : ((s.tower tower).blockers.any fun r => namesSeq r.cmd.cmd && decide (r.cmd.seqAddr = c.seqAddr)) = false := by
    simp only [Tower.blockers, List.any_filter, List.any_eq_false, Bool.and_eq_true, decide_eq_true_eq]
    rintro r hr ⟨hworking, hnames, haddr⟩
    rcases hfree r hr hworking with h | h
    · simp [h] at hnames
    · exact h haddr
  rcases hresult : s.checkCmd tower c with ⟨u, x⟩
  obtain rfl : x = .ok k := by simpa [hresult] using hcheck
  simp only [execTcmdHeadCheck, hqueue, hruns, hchecked, hbusy, hresult, Bool.and_false, Bool.not_true, Option.isSome_none,
    Bool.or_self, Bool.false_eq_true, if_false, done]
  refine ⟨_, rfl, ?_⟩
  simp only [State.modTower_eq, State.tower_setTower, if_true, State.payFirst_snd]
  rfl

/-! ## The start (R195, R199) -/

theorem State.running_seqIssue (n core : Nat) (s : State) (g : Nat) :
    ((s.seqIssue core n).tower g).running = (s.tower g).running := by
  induction n generalizing s with
  | zero => rfl
  | succ n ih =>
    unfold State.seqIssue
    dsimp only
    split
    · split
      · rfl
      · split
        · rfl
        · rw [ih, State.tower_setCore, State.tower_setTower]
          split
          · next h => rw [h]
          · rfl
    · rfl

theorem State.running_seqRefill (s : State) (t g : Nat) : ((s.seqRefill t).tower g).running = (s.tower g).running := by
  unfold State.seqRefill
  induction homeCores t generalizing s with
  | nil => rfl
  | cons c l ih => rw [List.foldl_cons, ih, State.running_seqIssue]

theorem State.mayStart_iff (s : State) (t : Nat) (c : TowerCmd) (k : CmdCheck) :
    s.mayStart t c k = true ↔ s.keepRuns t = true ∧ ((s.tower t).running.filter fun r => r.working).length < 4 ∧
      (c.retEn = true → ((s.tower t).running.filter Running.buffered).length < 6) ∧
      (∀ r ∈ (s.tower t).running, r.working = true → conflicts c k r = false) ∧ c.paid = true ∧
      s.regBit (towerBase t + Off.tseqCtl) 0 = false := by
  simp only [State.mayStart, Tower.blockers, Bool.and_eq_true, decide_eq_true_eq, List.all_filter, List.all_eq_true,
    Bool.not_eq_true', Bool.or_eq_true, and_assoc]
  grind

theorem execTcmdStart_starts {s : State} {tower : Nat} {c : TowerCmd} {rest : List TowerCmd} {k : CmdCheck}
    (hqueue : (s.tower tower).queue = c :: rest) (hchecked : c.checked = some k) (hstart : s.mayStart tower c k = true) :
    ∃ n, execTcmdStart tower s = .next n ∧ (n.tower tower).running = (s.tower tower).running ++ [{
      cmd := c, degraded := (s.tower tower).evac.isSome,
      unitsPaid := instalment k.work (reservation c.cmd c.cls k.banks.length) }] := by
  simp only [execTcmdStart, hqueue, hchecked, hstart, Bool.not_true, Bool.false_eq_true, if_false, done]
  refine ⟨_, rfl, ?_⟩
  simp only [State.running_seqRefill, State.modTower_eq, State.tower_setTower, if_true]

/-- Settles O24: the check of the head and its start are each one case of their commands. -/
theorem towerCommandsStart : Obligations.TowerCommandsStart := by
  intro s tower c rest k hqueue hruns
  refine ⟨fun hchecked hfree hcheck => ?_, fun hchecked hpaid hfew hapart hbuffer hhalt => ?_⟩
  · obtain ⟨n, hn, hhead⟩ := execTcmdHeadCheck_passes hqueue hruns hchecked hfree hcheck
    refine ⟨n, hn, _, hhead, rfl, rfl, rfl, rfl, fun hcovered => ?_⟩
    simp [State.covers, hcovered]
  · have hstart := (s.mayStart_iff tower c k).mpr ⟨hruns, hfew, hbuffer, hapart, hpaid, hhalt⟩
    obtain ⟨n, hn, hrunning⟩ := execTcmdStart_starts hqueue hchecked hstart
    exact ⟨n, hn, _, hrunning, rfl, rfl, rfl, rfl, rfl, rfl, rfl⟩

end Sys2Proof.Machine
end

section
/-! Far accesses. Where no earlier access of its core to the location waits, an access is the only one that its completion performs
(`State.settle_alone`): the state is then that of `performOp`, with the access's new phase in the core's list. -/

namespace Sys2Proof.Machine

/-! ## Locations (R265) -/

theorem hashedDecode_word (a : Nat) (l : List Nat) :
    hashedDecode (32 * (a / 32)) l = { hashedDecode a l with byte := 0 } := by
  have hg : 32 * (a / 32) / 256 = a / 256 := by omega
  simp only [hashedDecode, Nat.shiftRight_eq_div_pow, field, Nat.reducePow, hg, Place.mk.injEq, true_and]
  generalize a / 256 / (32 * l.length) = q
  omega

theorem bankedDecode_word (t o : Nat) : bankedDecode t (32 * (o / 32)) = { bankedDecode t o with byte := 0 } := by
  simp only [bankedDecode, field, Nat.shiftRight_eq_div_pow, Nat.reducePow, Place.mk.injEq, true_and]
  omega

theorem word_lt_iff {a c : Nat} (hc : 32 ∣ c) : 32 * (a / 32) < c ↔ a < c := by
  obtain ⟨k, rfl⟩ := hc
  omega

theorem word_sub {a c : Nat} (hc : 32 ∣ c) : 32 * (a / 32) - c = 32 * ((a - c) / 32) := by
  obtain ⟨k, rfl⟩ := hc
  omega

theorem word_div {b m : Nat} (hm : 32 ∣ m) : 32 * (b / 32) / m = b / m := by
  obtain ⟨k, rfl⟩ := hm
  rw [Nat.mul_div_mul_left _ _ (by decide), Nat.div_div_eq_div_mul]

theorem word_mod {b m : Nat} (hm : 32 ∣ m) : 32 * (b / 32) % m = 32 * (b % m / 32) := by
  obtain ⟨k, rfl⟩ := hm
  rw [Nat.mul_mod_mul_left, Nat.mod_mul_right_div_self]

/-- The region of a byte's word is the byte's, at the word's offset. -/
def Region.word : Region → Region
  | .hashed => .hashed
  | .banked t off => .banked t (32 * (off / 32))
  | .scratch k off => .scratch k (32 * (off / 32))
  | .hostWindow off => .hostWindow (32 * (off / 32))
  | .remote off => .remote (32 * (off / 32))
  | .none => .none

theorem State.region_word (s : State) (p a : Nat) : s.region p (32 * (a / 32)) = (s.region p a).word := by
  have hhashed : 32 ∣ towerBytes * (s.towersOf p).length := Dvd.dvd.mul_right (by decide) _
  have h1 : 32 ∣ 0x100000000000 := by decide
  have h2 : 32 ∣ 0x200000000000 := by decide
  have h3 : 32 ∣ 0x300000000000 := by decide
  have h4 : 32 ∣ 0x400000000000 := by decide
  have h5 : 32 ∣ 0x500000000000 := by decide
  have h7 : 32 ∣ 0x700000000000 := by decide
  have ht : 32 ∣ 0x2000000000 := by decide
  have hk : 32 ∣ 0x2000000 := by decide
  unfold State.region
  simp only [word_lt_iff hhashed, word_lt_iff h1, word_lt_iff h2, word_lt_iff h3, word_lt_iff h4, word_lt_iff h5,
    word_lt_iff h7, word_sub h1, word_sub h2, word_sub h4, word_sub h5, word_div ht, word_div hk, word_mod ht, word_mod hk,
    apply_ite Region.word]
  rfl

/-- Every byte of a word lies at the word's place. -/
theorem State.placeOf_word (s : State) (p a : Nat) :
    s.placeOf p (32 * (a / 32)) = (s.placeOf p a).map fun pl => { pl with byte := 0 } := by
  unfold State.placeOf
  rw [State.region_word]
  cases s.region p a with
  | hashed => simp [Region.word, hashedDecode_word]
  | banked t off => simp [Region.word, bankedDecode_word]
  | scratch | hostWindow | remote | none => rfl

theorem State.location_word (s : State) (p a : Nat) : s.location p (32 * (a / 32)) = s.location p a := by
  rw [State.location, State.location, State.placeOf_word]
  cases s.placeOf p a with
  | none => simp
  | some pl => rfl

/-- An access shares its own location. -/
theorem State.meets_self {s : State} {x : InFlight} {a n : Nat} (p : Nat) (hdue : x.due = some (a, n)) (hn : 0 < n) :
    s.meets p a n x = true := by
  simp only [State.meets, hdue, hn, decide_true, Bool.true_and, List.any_eq_true, List.mem_range, decide_eq_true_eq]
  exact ⟨0, by omega, s.location_word p a⟩

/-! ## The order of a core's accesses (R267, R268) -/

/-- Of operations of which only the last is selected, only the last is performed. -/
theorem State.performOps_last {s : State} {p c : Nat} {sel : InFlight → Bool} {l : List InFlight} {x : InFlight}
    (hl : ∀ y ∈ l, sel y = false) (hx : (x.due.isSome && sel x) = true) :
    s.performOps p c sel (l ++ [x]) = ((s.performOp p c x).1, l ++ [(s.performOp p c x).2]) := by
  induction l with
  | nil => simp [State.performOps, hx]
  | cons y l ih =>
    rw [List.cons_append, State.performOps, hl y (List.mem_cons_self ..)]
    simp [ih fun z hz => hl z (List.mem_cons_of_mem _ hz)]

/-- The state with one access of a core performed. -/
def State.performed (s : State) (p c index : Nat) (x : InFlight) : State :=
  (s.performOp p c x).1.modCore c fun k => { k with inflight := (s.core c).inflight.set index (s.performOp p c x).2 }

/-- Where no earlier access of its core to the location waits, and no tile goes there first, an access is performed alone. -/
theorem State.settle_alone {s : State} {p c index a n : Nat} {x : InFlight} (hx : (s.core c).inflight[index]? = some x)
    (hdue : x.due = some (a, n)) (hn : 0 < n) (hbefore : ∀ y ∈ (s.core c).inflight.take index, s.meets p a n y = false)
    (htile : (s.core c).tileBefore x.stamp a n = false) :
    s.settle p c (index + 1) a n = some (s.performed p c index x) := by
  have hsel : (x.due.isSome && s.meets p a n x) = true := by simp [hdue, s.meets_self p hdue hn]
  have hselBefore : ((s.core c).inflight.take index).filter (fun y => y.due.isSome && s.meets p a n y) = [] := by
    simpa using fun y hy _ => hbefore y hy
  have htake : (s.core c).inflight.take (index + 1) = (s.core c).inflight.take index ++ [x] := by
    rw [List.take_add_one, hx, Option.toList_some]
  have hwaits : (s.core c).waitsTile x = false := by simpa [Core.waitsTile, hdue] using htile
  obtain ⟨hlt, -⟩ := List.getElem?_eq_some_iff.mp hx
  simp only [State.settle, State.settleBy, htake, List.filter_append, hselBefore, List.filter_cons, hsel, if_true, List.filter_nil,
    List.nil_append, List.cons_ne_self, if_false, List.any_cons, hwaits, List.any_nil, Bool.or_self, Bool.false_eq_true,
    State.performSel, State.performOps_last hbefore hsel, State.performed, List.set_eq_take_append_cons_drop, hlt,
    List.append_assoc, List.singleton_append]

/-- Where no access of the core meets the location, nothing is performed. -/
theorem State.settle_apart {s : State} {p c n a len : Nat} (h : ∀ y ∈ (s.core c).inflight, s.meets p a len y = false) :
    s.settle p c n a len = some s := by
  have hnone : ((s.core c).inflight.take n).filter (fun y => y.due.isSome && s.meets p a len y) = [] := by
    simpa using fun y hy _ => h y (List.mem_of_mem_take hy)
  simp only [State.settle, State.settleBy, hnone, if_true]

/-! ## Completions (R118, R137) -/

/-- The value of an operation that ends reaches its register. -/
theorem State.delivered (s : State) (core index size rd v : Nat) :
    let k := (s.modCore core fun c => (c.deliver size rd v).complete index).core core
    ((rd ≠ 0 → k.rd rd = BitVec.ofNat 32 v) ∧ (size = 8 → k.rd (rd + 1) = BitVec.ofNat 32 (v / 2 ^ 32))) ∧
      k.inflight = (s.core core).inflight.eraseIdx index := by
  simp only [State.modCore_eq, State.core_setCore, if_true, Core.rd_complete, Core.inflight_complete, Core.inflight_deliver]
  exact ⟨⟨Core.rd_deliver _ _ _ _, fun h8 => h8 ▸ Core.rd_succ_deliver ..⟩, trivial⟩

theorem State.inflight_complete (s : State) (core index : Nat) :
    ((s.modCore core fun c => c.complete index).core core).inflight = (s.core core).inflight.eraseIdx index := by
  simp [State.modCore_eq]

theorem State.inflight_performed (s : State) (p c index : Nat) (x : InFlight) :
    ((s.performed p c index x).core c).inflight = (s.core c).inflight.set index (s.performOp p c x).2 := by
  simp [State.performed, State.modCore_eq]

theorem State.performed_getElem {s : State} {c index : Nat} {x : InFlight} (p : Nat)
    (hx : (s.core c).inflight[index]? = some x) :
    ((s.performed p c index x).core c).inflight[index]? = some (s.performOp p c x).2 := by
  obtain ⟨hlt, -⟩ := List.getElem?_eq_some_iff.mp hx
  rw [State.inflight_performed, List.getElem?_set_self hlt]

theorem State.inflight_performed_eraseIdx (s : State) (p c index : Nat) (x : InFlight) :
    ((s.performed p c index x).core c).inflight.eraseIdx index = (s.core c).inflight.eraseIdx index := by
  rw [State.inflight_performed, List.eraseIdx_set_eq]

/-- FLD_DONE of a read that is good and that nothing comes before (R137, R267). -/
theorem execFldDone_local {s : State} {core index : Nat} {t : Task} {size rd addr stamp : Nat} {fl : Option Nat}
    (hfly : s.flying core index = some (t, ⟨.fld size rd addr none, fl, .started, stamp⟩)) (hsize : 0 < size)
    (hbefore : ∀ y ∈ (s.core core).inflight.take index, s.meets t.part addr size y = false)
    (htile : (s.core core).tileBefore stamp addr size = false)
    (hrefused : (s.readRun (.core core) t.part addr size).2.refused = false)
    (hfound : (s.readRun (.core core) t.part addr size).2.found = false)
    (hpoison : (s.readRun (.core core) t.part addr size).2.poison = []) :
    execFldDone core index s = done ((s.performed t.part core index ⟨.fld size rd addr none, fl, .started, stamp⟩).modCore core
      fun c => (c.deliver size rd ((s.readRun (.core core) t.part addr size).2.data.num 0 size)).complete index) := by
  obtain ⟨-, hx, -⟩ := State.flying_some hfly
  have hget := State.performed_getElem t.part hx
  have hsettle := State.settle_alone (p := t.part) hx rfl hsize hbefore htile
  have hvalue : (s.performOp t.part core ⟨.fld size rd addr none, fl, .started, stamp⟩).2 =
      ⟨.fld size rd addr none, fl, .value ((s.readRun (.core core) t.part addr size).2.data.num 0 size), stamp⟩ := by
    simp [State.performOp, hrefused, hfound, hpoison]
  rw [hvalue] at hget
  simp only [execFldDone, hfly, hsettle, hget]

theorem execFldDone_remote {s : State} {core index : Nat} {t : Task} {size rd addr stamp tag v : Nat} {fl : Option Nat}
    (hfly : s.flying core index = some (t, ⟨.fld size rd addr (some tag), fl, .value v, stamp⟩))
    (hapart : ∀ y ∈ (s.core core).inflight, s.meets t.part addr size y = false) :
    execFldDone core index s = done (s.modCore core fun c => (c.deliver size rd v).complete index) := by
  obtain ⟨-, hx, -⟩ := State.flying_some hfly
  simp only [execFldDone, hfly, State.settle_apart hapart, hx]

/-- FST_DONE of a write that nothing comes before (R134, R268). -/
theorem execFstDone_local {s : State} {core index : Nat} {t : Task} {size addr value stamp : Nat} {cnt fl : Option Nat}
    (hfly : s.flying core index = some (t, ⟨.fst size addr value cnt none, fl, .started, stamp⟩)) (hsize : 0 < size)
    (hbefore : ∀ y ∈ (s.core core).inflight.take index, s.meets t.part addr size y = false)
    (htile : (s.core core).tileBefore stamp addr size = false) :
    execFstDone core index s = done ((s.performed t.part core index
      ⟨.fst size addr value cnt none, fl, .started, stamp⟩).modCore core fun c => c.complete index) := by
  obtain ⟨-, hx, -⟩ := State.flying_some hfly
  simp only [execFstDone, hfly, Option.isNone_none, if_true, State.settle_alone (p := t.part) hx rfl hsize hbefore htile]

/-- ATOMIC_PERFORM of an atomic that nothing comes before (R139). -/
theorem execAtomicPerform_local {s : State} {core index : Nat} {t : Task} {x : AtomArgs} {scope rd addr stamp : Nat}
    {fl : Option Nat} (hfly : s.flying core index = some (t, ⟨.atom x scope rd addr none, fl, .started, stamp⟩))
    (hsize : 0 < x.size) (hbefore : ∀ y ∈ (s.core core).inflight.take index, s.meets t.part addr x.size y = false)
    (htile : (s.core core).tileBefore stamp addr x.size = false) :
    execAtomicPerform core index s = done (s.performed t.part core index
      ⟨.atom x scope rd addr none, fl, .started, stamp⟩) := by
  obtain ⟨-, hx, -⟩ := State.flying_some hfly
  simp only [execAtomicPerform, hfly, State.settle_alone (p := t.part) hx rfl hsize hbefore htile]

theorem execAtomDone_value {s : State} {core index : Nat} {t : Task} {x : AtomArgs} {scope rd addr stamp v : Nat}
    {fl g : Option Nat} (hfly : s.flying core index = some (t, ⟨.atom x scope rd addr g, fl, .value v, stamp⟩)) :
    execAtomDone core index s = done (s.modCore core fun c => (c.deliver x.size rd v).complete index) := by
  simp only [execAtomDone, hfly]

theorem execFstDone_remote {s : State} {core index : Nat} {t : Task} {size addr value stamp tag : Nat} {cnt fl : Option Nat}
    (hfly : s.flying core index = some (t, ⟨.fst size addr value cnt (some tag), fl, .finished, stamp⟩)) :
    execFstDone core index s = done (s.modCore core fun c => c.complete index) := by
  simp only [execFstDone, hfly, Option.isNone_some, Bool.false_eq_true, if_false, if_true]

theorem State.counter_addCounter (s : State) (p k n : Nat) :
    (s.addCounter p k n).counter p k = s.counter p k + BitVec.ofNat 64 n := by
  simp [State.addCounter, State.counter]

/-- The memory that the write of an FST leaves, and its counter. -/
theorem State.performed_fst (s : State) (p c index size addr value stamp : Nat) (cnt fl : Option Nat) (ph : DPhase) :
    let w := s.writeRun (.core c) p addr (leBytes size value) [] false
    let n := s.performed p c index ⟨.fst size addr value cnt none, fl, ph, stamp⟩
    n.towers = w.1.towers ∧ n.scratch = w.1.scratch ∧ n.cupolas = w.1.cupolas ∧
      ∀ k, cnt = some k → w.2 = true → n.counter p k = w.1.counter p k + BitVec.ofNat 64 size := by
  intro w n
  cases cnt with
  | none => exact ⟨rfl, rfl, rfl, nofun⟩
  | some k =>
    let m := if w.2 then w.1.addCounter p k size else w.1
    have hm : m.towers = w.1.towers ∧ m.scratch = w.1.scratch ∧ m.cupolas = w.1.cupolas := by
      cases hok : w.2 <;> simp only [m, hok] <;> exact ⟨rfl, rfl, rfl⟩
    obtain ⟨htowers, hscratch, hcupolas⟩ := hm
    refine ⟨htowers, hscratch, hcupolas, fun j hj hok => ?_⟩
    cases hj
    calc n.counter p k = m.counter p k := rfl
      _ = (w.1.addCounter p k size).counter p k := by simp only [m, hok, if_true]
      _ = w.1.counter p k + BitVec.ofNat 64 size := w.1.counter_addCounter p k size

/-- The memory that an atomic leaves, and its phase. -/
theorem State.performed_atom {s : State} {p c index : Nat} {x : AtomArgs} {scope rd addr stamp v : Nat} {fl : Option Nat}
    (ph : DPhase) (hx : (s.core c).inflight[index]? = some ⟨.atom x scope rd addr none, fl, ph, stamp⟩)
    (hv : (s.atomicAt (.core c) p addr x).2 = .ok v) :
    let a := s.atomicAt (.core c) p addr x
    let n := s.performed p c index ⟨.atom x scope rd addr none, fl, ph, stamp⟩
    (n.core c).inflight = (s.core c).inflight.modify index (fun y => { y with phase := .value v }) ∧
      n.towers = a.1.towers ∧ n.scratch = a.1.scratch ∧ n.cupolas = a.1.cupolas := by
  intro a n
  have hphase : (s.performOp p c ⟨.atom x scope rd addr none, fl, ph, stamp⟩).2 =
      ⟨.atom x scope rd addr none, fl, .value v, stamp⟩ := by simp [State.performOp, hv]
  refine ⟨?_, rfl, rfl, rfl⟩
  rw [State.inflight_performed, hphase, List.modify_eq_set_getElem?, hx]
  rfl

/-- Settles O18: each access is performed alone, or has come back already, and then leaves its core's list. -/
theorem farAccessesComplete : Obligations.FarAccessesComplete := by
  intro s core index rd addr t x scope v stamp fl g size value tag cnt l arrives alone
  refine ⟨?localRead, ?remoteRead, ?localWrite, ?remoteWrite, ?perform, ?answer⟩
  case localRead =>
    rintro hfly ⟨hsize, hbefore, htile⟩ r hrefused hfound hpoison
    refine ⟨_, execFldDone_local hfly hsize hbefore htile hrefused hfound hpoison, ?_⟩
    obtain ⟨harrives, hlist⟩ := State.delivered (s.performed t.part core index ⟨.fld size rd addr none, fl, .started, stamp⟩)
      core index size rd (r.2.data.num 0 size)
    exact ⟨harrives, hlist.trans (State.inflight_performed_eraseIdx ..), rfl⟩
  case remoteRead =>
    intro hfly hapart
    obtain ⟨harrives, hlist⟩ := s.delivered core index size rd v
    exact ⟨_, execFldDone_remote hfly hapart, harrives, hlist, rfl⟩
  case localWrite =>
    rintro hfly ⟨hsize, hbefore, htile⟩ w
    exact ⟨_, execFstDone_local hfly hsize hbefore htile,
      (State.inflight_complete ..).trans (State.inflight_performed_eraseIdx ..), State.performed_fst s t.part core index ..⟩
  case remoteWrite =>
    intro hfly
    exact ⟨_, execFstDone_remote hfly, State.inflight_complete .., rfl⟩
  case perform =>
    rintro hfly ⟨hsize, hbefore, htile⟩ a hv
    obtain ⟨-, hx, -⟩ := State.flying_some hfly
    exact ⟨_, execAtomicPerform_local hfly hsize hbefore htile, State.performed_atom _ hx hv⟩
  case answer =>
    intro hfly
    obtain ⟨harrives, hlist⟩ := s.delivered core index x.size rd v
    exact ⟨_, execAtomDone_value hfly, harrives, hlist, rfl⟩

end Sys2Proof.Machine
end

section
/-! Two operations that many commands share: a write that the port takes, and an error of a code that no queued record has. -/

namespace Sys2Proof.Machine

/-! ## Writes that are taken -/

theorem State.done_onWrite {s : State} {fn : Fn} {a : Nat} (h : s.takes fn a = true) (f : State → State) :
    done (s.onWrite fn a f) = .next (f s) := congrArg _ (if_pos h)

/-! ## Error records (R424) -/

theorem foldRecord_none {e : ErrRec} {l : List ErrRec} (h : ∀ r ∈ l, r.code ≠ e.code) : foldRecord e l = none := by
  induction l with
  | nil => rfl
  | cons r l ih =>
    obtain ⟨hr, hl⟩ := List.forall_mem_cons.mp h
    simp [foldRecord, foldsInto, hr, ih hl]

/-- An error of a code that no record of the queue has joins the queue's end where there is room. -/
theorem State.records_logError {s : State} {e : ErrRec} (hnew : ∀ r ∈ s.landing.records, r.code ≠ e.code)
    (hroom : s.landing.records.length + s.landing.waiting.length < 256) :
    (s.logError e).landing.records = s.landing.records ++ [e] := by
  simp [State.logError, foldRecord_none hnew, hroom, State.modLanding]

/-- The first error of an empty queue. -/
theorem State.records_logError_empty {s : State} (hrecords : s.landing.records = []) (hwaiting : s.landing.waiting = [])
    (e : ErrRec) : (s.logError e).landing.records = [e] := by
  rw [State.records_logError (by simp [hrecords]) (by simp [hrecords, hwaiting]), hrecords, List.nil_append]

@[simp] theorem State.towers_logError (s : State) (e : ErrRec) : (s.logError e).towers = s.towers := by
  obtain ⟨l, h⟩ := s.logError_frame e; rw [h]
@[simp] theorem State.cores_logError (s : State) (e : ErrRec) : (s.logError e).cores = s.cores := by
  obtain ⟨l, h⟩ := s.logError_frame e; rw [h]
@[simp] theorem State.tower_logError (s : State) (e : ErrRec) (t : Nat) : (s.logError e).tower t = s.tower t := by
  obtain ⟨l, h⟩ := s.logError_frame e; rw [h]; rfl

end Sys2Proof.Machine
end

section
/-! Tower memory. A write of a word is one paste and one check state at the word that the frame names; an access that the Keep refuses
leaves the towers as they are and one record; an upset of a word's cells leaves the Keep's own storage as it is. -/

namespace Sys2Proof.Machine

/-! ## Words and their check state (R159, R166, R167) -/

theorem Ram.mark_put (r : Ram) (w : Nat) (d : Memory) (m : WordMark) : (r.put w d m).mark w = m := by
  by_cases h : fillMark w r.fills = m <;> simp [Ram.put, Ram.mark, Ram.setMark, h]

theorem Ram.get_put (r : Ram) (w : Nat) (d : Memory) (m : WordMark) {i : Nat} (hi : i < 32) :
    (r.put w d m).bytes.get (32 * w + i) = d.get i := by
  simp [Ram.put, Memory.get_paste, hi]

theorem Ram.get_put_outside (r : Ram) (w : Nat) (d : Memory) (m : WordMark) {x : Nat} (hx : x < 32 * w ∨ 32 * w + 32 ≤ x) :
    (r.put w d m).bytes.get x = r.bytes.get x := by
  rw [Ram.put, Memory.get_paste, if_neg (by omega)]

/-- A whole-word write puts the word into the tower's memory, in its frame's protection type. -/
theorem State.tower_writeTower (s : State) (pl : Place) (d : Memory) (poison : Bool) :
    (s.writeTower pl d poison).tower pl.tower = { s.tower pl.tower with
      ram := (s.tower pl.tower).ram.put ((s.tower pl.tower).wordOf pl) d (if poison
        then .poison (protOf ((s.tower pl.tower).frameOf pl)) else .good (protOf ((s.tower pl.tower).frameOf pl))) } := by
  simp [State.writeTower]

theorem State.tower_writeTower_ne {s : State} {pl : Place} {d : Memory} {poison : Bool} {k : Nat} (hk : k ≠ pl.tower) :
    (s.writeTower pl d poison).tower k = s.tower k := by
  simp [State.writeTower, hk]

/-! ## Accesses (R159, R467) -/

theorem execTowerAccess_runs {s : State} (hruns : s.runs = true) (tower wordAddr : Nat) (id : BitVec 16) (access : WordAccess)
    (upset : Upset) : execTowerAccess tower wordAddr id access upset s =
      .next ((s.accessTower tower wordAddr id access upset).keepUpset tower upset) := by
  simp [execTowerAccess, done, hruns]

theorem execNarrowWrite_runs {s : State} (hruns : s.runs = true) (tower wordAddr offset : Nat) (id : BitVec 16) (bytes : List Byte)
    (upset : Upset) : execNarrowWrite tower wordAddr id offset bytes upset s =
      .next ((s.accessTower tower wordAddr id (.narrow offset bytes) upset).keepUpset tower upset) := by
  simp [execNarrowWrite, done, hruns]

/-- An upset of a word's cells leaves the Keep's own storage as it is. -/
theorem State.keepUpset_cells {u : Upset} (hunit : ∀ region ue, u ≠ .unit region ue) (hstaged : ∀ a b c, u ≠ .staged a b c)
    (s : State) (tower : Nat) : s.keepUpset tower u = s := by
  cases u with
  | unit region ue => exact absurd rfl (hunit region ue)
  | staged a b c => exact absurd rfl (hstaged a b c)
  | none | soft | hard => rfl

section
variable {s p : State} {tower wordAddr : Nat} {id : BitVec 16}
  (hadmit : s.admitAccess (agentOf id.toNat) (s.owner tower) (bankedAddr tower (32 * wordAddr))
    (bankedDecode tower (32 * wordAddr)) true false = (p, true))
include hadmit

theorem State.accessTower_write (bytes : List Byte) (poison : Bool) (upset : Upset) :
    s.accessTower tower wordAddr id (.write bytes poison) upset =
      p.writeTower (bankedDecode tower (32 * wordAddr)) (Memory.setBytes [] 0 bytes) poison := by
  simp [State.accessTower, hadmit]

theorem State.accessTower_narrow (offset : Nat) (bytes : List Byte) (upset : Upset) :
    s.accessTower tower wordAddr id (.narrow offset bytes) upset =
      p.narrowTower (bankedDecode tower (32 * wordAddr)) offset bytes upset := by
  simp [State.accessTower, hadmit]

end

theorem State.narrowTower_clean {s : State} {pl : Place} {upset : Upset} (hclean : (s.readTower pl upset).2.kind = .clean)
    (offset : Nat) (bytes : List Byte) : s.narrowTower pl offset bytes upset =
      (s.readTower pl upset).1.writeTower pl ((s.readTower pl upset).2.data.setBytes offset bytes) false := by
  simp only [State.narrowTower, hclean]

theorem State.narrowTower_stored {s : State} {pl : Place} {upset : Upset} (hstored : (s.readTower pl upset).2.kind = .stored)
    (offset : Nat) (bytes : List Byte) : s.narrowTower pl offset bytes upset = (s.readTower pl upset).1 := by
  simp only [State.narrowTower, hstored]

/-- Settles O27: an admitted write pastes one word, and a read-modify-write pastes what it read with the bytes set. -/
theorem towerWordsWritten : Obligations.TowerWordsWritten := by
  intro s tower wordAddr offset id bytes poison upset pl p hruns hunit hstaged hok
  have hadmit : s.admitAccess (agentOf id.toNat) (s.owner tower) (bankedAddr tower (32 * wordAddr)) pl true false = (p, true) :=
    Prod.ext rfl hok
  refine ⟨?whole, ?narrow⟩
  case whole =>
    intro hlen w pr
    have hexec : execTowerAccess tower wordAddr id (.write bytes poison) upset s =
        .next (p.writeTower pl (Memory.setBytes [] 0 bytes) poison) := by
      rw [execTowerAccess_runs hruns, State.keepUpset_cells hunit hstaged, State.accessTower_write hadmit]
    have htower := p.tower_writeTower pl (Memory.setBytes [] 0 bytes) poison
    refine ⟨_, hexec, fun i hi => ?_, ?_, fun x hx => ?_, fun k hk => State.tower_writeTower_ne hk⟩
    · exact htower ▸ Ram.get_put_setBytes _ _ hlen _ hi
    · exact htower ▸ Ram.mark_put ..
    · exact htower ▸ Ram.get_put_outside _ _ _ _ hx
  case narrow =>
    intro _ q r w
    have hexec : execNarrowWrite tower wordAddr id offset bytes upset s = .next (p.narrowTower pl offset bytes upset) := by
      rw [execNarrowWrite_runs hruns, State.keepUpset_cells hunit hstaged, State.accessTower_narrow hadmit]
    refine ⟨fun hclean => ⟨_, hexec, fun i hi => ?_⟩, fun hstored => ?_⟩
    · rw [State.narrowTower_clean hclean]
      have htower := q.tower_writeTower pl (r.data.setBytes offset bytes) false
      have hbyte := ((q.tower tower).ram).get_put w (r.data.setBytes offset bytes) (.good (protOf ((q.tower tower).frameOf pl))) hi
      rw [Memory.get_setBytes] at hbyte
      exact htower ▸ hbyte
    · exact hexec.trans (by rw [State.narrowTower_stored hstored])

/-! ## Refused accesses (R161) -/

/-- The Keep of a group at G0 and in service refuses an access through an entry that is not VALID, and logs it. -/
theorem State.admitAccess_invalid {s : State} {pl : Place} (hg0 : (s.group pl.tower).pstate = .g0)
    (hserves : (s.group pl.tower).outOfService = false) (hinvalid : ((s.tower pl.tower).frameOf pl).valid = false)
    (ag : Agent) (p a : Nat) (write completion : Bool) :
    s.admitAccess ag p a pl write completion = (s.logUnmapped ag p pl.tower a false completion, false) := by
  have hdark : s.dark pl.tower = false := by simp [State.dark, hg0, hserves]
  have hwake : s.wakeTower pl.tower = s := by simp [State.wakeTower, hg0]
  simp [State.admitAccess, hdark, hwake, hinvalid]

/-- Settles O28: the entry refuses the write before it reaches a word, and the record is the first of its queue. -/
theorem invalidFrameRefuses : Obligations.InvalidFrameRefuses := by
  intro s tower wordAddr id bytes upset hruns hg0 hserves hinvalid hrecords hwaiting hunit hstaged
  have hrefused := State.admitAccess_invalid (pl := bankedDecode tower (32 * wordAddr)) hg0 hserves hinvalid (agentOf id.toNat)
    (s.owner tower) (bankedAddr tower (32 * wordAddr)) true false
  have haccess : s.accessTower tower wordAddr id (.write bytes false) upset =
      s.logUnmapped (agentOf id.toNat) (s.owner tower) tower (bankedAddr tower (32 * wordAddr)) false false := by
    simp only [State.accessTower, ne_eq, reduceCtorEq, not_false_eq_true, decide_true, hrefused, Bool.not_false, if_true]
    rfl
  refine ⟨_, execTowerAccess_runs hruns .., ?_⟩
  rw [State.keepUpset_cells hunit hstaged, haccess]
  exact ⟨State.towers_logError .., State.cores_logError .., _, State.records_logError_empty hrecords hwaiting _, rfl, rfl, rfl⟩

end Sys2Proof.Machine
end

section
/-! The events of a Keep. A copy of a column ends in the tower's lists, whatever the journal and the log hold; the hottest reading
is one of the readings; the words that a scrub reads do not decide where it goes on. -/

namespace Sys2Proof.Machine

/-! ## Events of the Keep -/

theorem State.tower_writeJournal (s : State) (kind unit floor bank place t : Nat) :
    (s.writeJournal kind unit floor bank place).1.tower t = s.tower t := by
  unfold State.writeJournal
  split <;> rfl

/-- The end of a column's copy (R437): its repair stands and it is no longer copied, whatever the journal and the log hold. -/
theorem execColRepairDone_busy {s : State} {tower floor bank word : Nat} (hruns : s.runs = true)
    (hbusy : (s.tower tower).colBusy.contains ⟨floor, bank, 0, word⟩ = true) :
    ∃ n, execColRepairDone tower floor bank word s = .next n ∧ n.tower tower = { s.tower tower with
      colBusy := (s.tower tower).colBusy.erase ⟨floor, bank, 0, word⟩,
      colRepairs := (s.tower tower).colRepairs ++ [⟨floor, bank, 0, word⟩] } := by
  simp only [execColRepairDone, hruns, hbusy, Bool.not_true, Bool.false_eq_true, if_false, if_true, done]
  refine ⟨_, rfl, ?_⟩
  rw [State.tower_logError, State.tower_writeJournal, State.tower_setTower, if_pos rfl]

/-- One step of the search for the hottest floor. -/
def hotter (m x : Nat × Nat) : Nat × Nat := if x.1 > m.1 then x else m

theorem hottest_eq (l : List Nat) : hottest l = l.zipIdx.foldl hotter (l.headD 0, 0) := rfl

/-- A search from `m` ends at `m` or at a reading, and no reading is higher. -/
theorem foldl_hotter (l : List (Nat × Nat)) (m : Nat × Nat) :
    (l.foldl hotter m ∈ m :: l) ∧ ∀ x ∈ m :: l, x.1 ≤ (l.foldl hotter m).1 := by
  induction l generalizing m with
  | nil => simp
  | cons y l ih =>
    obtain ⟨hmem, hle⟩ := ih (hotter m y)
    have hstep : hotter m y = m ∨ hotter m y = y := by unfold hotter; split <;> simp
    have hm : m.1 ≤ (hotter m y).1 ∧ y.1 ≤ (hotter m y).1 := by unfold hotter; split <;> omega
    simp only [List.foldl_cons, List.mem_cons, forall_eq_or_imp] at *
    refine ⟨?_, by omega, by omega, hle.2⟩
    rcases hmem with h | h
    · rw [h]
      exact hstep.imp_right .inl
    · exact .inr (.inr h)

theorem hottest_spec {l : List Nat} (hl : l ≠ []) : (hottest l).1 ∈ l ∧ ∀ x ∈ l, x ≤ (hottest l).1 := by
  obtain ⟨hmem, hle⟩ := foldl_hotter l.zipIdx (l.headD 0, 0)
  rw [← hottest_eq] at hmem hle
  refine ⟨?_, fun x hx => ?_⟩
  · rcases List.mem_cons.mp hmem with h | h
    · rw [h]; cases l with
      | nil => exact absurd rfl hl
      | cons a l => simp
    · exact List.fst_mem_of_mem_zipIdx h
  · obtain ⟨i, hi, rfl⟩ := List.mem_iff_getElem.mp hx
    exact hle (l[i], i) (List.mem_cons_of_mem _ (List.mk_mem_zipIdx_iff_getElem?.mpr (List.getElem?_eq_getElem hi)))

theorem hotAfter_of_high {l : List Nat} (h : ∃ x ∈ l, x > 85) (hot : Bool) : hotAfter hot l = true := by
  have hhigh : (l.any fun t => decide (t > 85)) = true := by simpa using h
  rw [hotAfter, if_pos hhigh]

theorem hotAfter_of_low {l : List Nat} (h : ∀ x ∈ l, x ≤ 83) (hot : Bool) : hotAfter hot l = false := by
  have hhigh : ¬(l.any fun t => decide (t > 85)) = true := by
    simp only [List.any_eq_true, decide_eq_true_eq, not_exists, not_and]
    exact fun x hx hgt => absurd (h x hx) (by omega)
  have hlow : (l.all fun t => decide (t ≤ 83)) = true := by simpa using h
  rw [hotAfter, if_neg hhigh, if_pos hlow]

theorem execTempReading_up {s : State} {tower : Nat} {l : List Nat} (hruns : s.runs = true) (hl : l ≠ [])
    (hup : s.dark tower = false) : execTempReading tower l s = .next (s.setTower tower { s.tower tower with
      hot := hotAfter (s.tower tower).hot l, tempC := (hottest l).1, hotFloor := (hottest l).2 }) := by
  simp [execTempReading, done, hruns, hl, hup]

/-- The scrub of a row before the last one leaves the position at the next row, whatever the words of the row bring. -/
theorem execPatrolScrubRow_next {s : State} {tower row : Nat} (hruns : s.runs = true) (hg0 : (s.group tower).pstate = .g0)
    (hserves : (s.group tower).outOfService = false) (hclean : (s.tower tower).sanitiseBusy = false)
    (hrate : s.regField (towerBase tower + Off.twrScrubRate) 0 16 ≠ 0) (hnext : nextScrub (s.tower tower) = some (row, false))
    (hrow : row + 1 < towerRows) :
    ∃ n, execPatrolScrubRow tower s = .next n ∧ (n.tower tower).scrubPos = row + 1 := by
  have hlast : row + 1 ≠ towerRows := hrow.ne
  simp only [execPatrolScrubRow, hruns, hg0, hserves, hclean, hrate, hnext, Bool.not_true, Bool.or_self, decide_false,
    Bool.false_eq_true, if_false, hlast, done]
  exact ⟨_, rfl, by rw [State.modTower_eq, State.tower_setTower, if_pos rfl]⟩

/-- Settles O31: each event's own lemma above gives its next state or the part of it that the statement speaks of. -/
theorem keepEvents : Obligations.KeepEvents := by
  intro s tower hruns
  refine ⟨?column, ?window, fun _ _ => rfl, ?reading, ?scrub, ?storage⟩
  case column =>
    intro floor bank word hbusy
    obtain ⟨n, hn, htower⟩ := execColRepairDone_busy hruns hbusy
    have hlen := List.length_erase_add_one (List.contains_iff_mem.mp hbusy)
    exact ⟨n, hn, by rw [htower], by rw [htower]; exact hlen⟩
  case window =>
    intro frame
    have hexec : execCeWindowExpire tower frame s = .next (s.setTower tower { s.tower tower with
        track := mset ⟨0, false⟩ (s.tower tower).track frame ⟨0, false⟩ }) := by simp [execCeWindowExpire, done, hruns]
    exact ⟨_, hexec, by simp, fun f hf => by simp [hf]⟩
  case reading =>
    intro l hl hup
    obtain ⟨hmem, hle⟩ := hottest_spec hl
    refine ⟨_, execTempReading_up hruns hl hup, ?_⟩
    rw [State.tower_setTower, if_pos rfl]
    exact ⟨hmem, hle, fun h => hotAfter_of_high h _, fun h => hotAfter_of_low h _⟩
  case scrub =>
    intro row hg0 hserves hclean hrate hnext hrow
    exact execPatrolScrubRow_next hruns hg0 hserves hclean hrate hnext hrow
  case storage =>
    intro wordAddr region id p hnew hroom
    have hrecords := State.records_logError (e := p.keepRec .keepSramCe tower 0 region) hnew hroom
    refine ⟨_, execTowerAccess_runs hruns .., p.keepRec .keepSramCe tower 0 region, ?_, rfl, rfl, rfl, rfl, rfl⟩
    exact hrecords ▸ List.mem_append_right _ (List.mem_singleton_self _)

end Sys2Proof.Machine
end

section
/-! The tower block and what it starts. A frame table word holds two entries, of which a write sets those that are not migrating; a
sanitise fills the tower with zero words and then sets INIT; a migration marks its entry and at its end gives it the new band. -/

namespace Sys2Proof.Machine

/-! ## The frame table (R160, R171) -/

@[simp] theorem Tower.mget_setFrame (tw : Tower) (i j : Nat) (f : Frame) :
    mget {} (tw.setFrame i f).frames j = if j = i then f else mget {} tw.frames j := mget_mset ..

theorem State.frame_writeFrames (s : State) (tower index v : Nat) :
    mget {} ((s.writeFrames tower index v).tower tower).frames (2 * index) =
      frameWrite (mget {} (s.tower tower).frames (2 * index)) (field v 0 16) := by
  simp [State.writeFrames]

/-- The bits of the low half of a frame table word. -/
theorem nbit_lowHalf (v : Word) {i : Nat} (hi : i < 16) : nbit (field v.toNat 0 16) i = v.getLsbD i := by
  rw [nbit, testBit_field, Nat.zero_add, decide_eq_true hi, Bool.true_and]
  rfl

theorem frameWrite_lowHalf {f : Frame} (hidle : f.migrating = false) (v : Word) :
    frameWrite f (field v.toNat 0 16) = {
      valid := v.getLsbD 15, checked := v.getLsbD 14, init := v.getLsbD 13 && decide (v.getLsbD 14 = f.checked),
      engineRo := v.getLsbD 12, migrating := false, band := v.toNat % 64 } := by
  have hband : field (field v.toNat 0 16) 0 6 = v.toNat % 64 := by simp only [field, Nat.shiftRight_zero]; omega
  simp [frameWrite, hidle, nbit_lowHalf, hband]

/-! ## SANITISE (R173) -/

theorem State.regBit_setRegBit (s : State) (a i : Nat) (b : Bool) : (s.setRegBit a i b).regBit a i = b := by
  rw [State.setRegBit_eq, State.regBit_setReg, if_pos rfl, nbit_putField, if_pos (by omega), Nat.sub_self, testBit_b2n_zero]

theorem State.startSanitise_refused {s : State} {tower : Nat} (hcannot : s.canSanitise tower = false) :
    s.startSanitise tower = s.setRegBit (towerBase tower + Off.twrStat) 4 true := by
  simp only [State.startSanitise, hcannot, Bool.false_eq_true, if_false]

/-! ## TWR_PIN (R174) -/

theorem State.writePin_few (s : State) (tower : Nat) {m : BitVec 16} (hfew : popCount16 m.toNat ≤ 2) :
    s.writePin tower m.toNat = s.setReg (towerBase tower + Off.twrPin) m.toNat := by
  rw [State.writePin, if_pos hfew, Nat.mod_eq_of_lt m.isLt]

theorem State.writePin_many (s : State) (tower : Nat) {m : BitVec 16} (hmany : popCount16 m.toNat > 2) :
    s.writePin tower m.toNat = s := if_neg (by omega)

/-- Settles O29: each write is taken, and what its own function leaves is the law of what it updates. -/
theorem towerRegistersWritten : Obligations.TowerRegistersWritten := by
  intro s tower
  refine ⟨?frame, fun htakes => ⟨?counts, ?starts, ?refused⟩, fun m htakes => ⟨fun hfew => ?few, fun hmany => ?many⟩⟩
  case frame =>
    intro index v htakes hidle
    have hframe := (s.frame_writeFrames tower index v.toNat).trans (frameWrite_lowHalf hidle v)
    refine ⟨_, State.done_onWrite htakes _, ?_⟩
    dsimp only
    rw [hframe]
    exact ⟨rfl, rfl, rfl, rfl, rfl⟩
  case counts =>
    refine ⟨_, State.done_onWrite htakes _, ?_⟩
    simp only [State.clearCounts, State.modTower_eq, State.tower_setTower, if_true, and_self]
  case starts =>
    intro hcan
    refine ⟨_, State.done_onWrite htakes _, ?_⟩
    simp only [State.startSanitise, hcan, if_true, State.modTower_eq, State.tower_setTower, State.regs_setTower, and_self]
  case refused =>
    intro hcannot
    have hexec : exec (.sanitise tower) s = .next (s.setRegBit (towerBase tower + Off.twrStat) 4 true) := by
      rw [← State.startSanitise_refused hcannot]
      exact State.done_onWrite htakes _
    exact ⟨_, hexec, by rw [State.setRegBit_eq, State.towers_setReg], State.regBit_setRegBit ..⟩
  case few =>
    have hexec : exec (.twrPinWrite tower m) s = .next (s.setReg (towerBase tower + Off.twrPin) m.toNat) := by
      rw [← State.writePin_few s tower hfew]
      exact State.done_onWrite htakes _
    exact ⟨_, hexec, by rw [State.reg_setReg, if_pos rfl]⟩
  case many =>
    have hexec : exec (.twrPinWrite tower m) s = .next (s.writePin tower m.toNat) := State.done_onWrite htakes _
    rw [hexec, State.writePin_many s tower hmany]

/-! ## The end of a sanitise (R173) -/

/-- A fill keeps every byte zero that is zero. -/
theorem Ram.get_fill_of_zero {r : Ram} {a : Nat} (h : r.bytes.get a = 0) (w n : Nat) (m : WordMark) :
    (r.fill w n m).bytes.get a = 0 := by
  simp [Ram.fill, Memory.get_zero, h]

theorem get_zeroTower (tw : Tower) {a : Nat} (ha : a < 32 * towerWords) : (zeroTower tw).bytes.get a = 0 := by
  have hall : (tw.ram.fill 0 towerWords (.good 0)).bytes.get a = 0 := by rw [Ram.fill, Memory.get_zero, if_pos (by omega)]
  refine List.foldlRecOn tw.frames _ (motive := fun r : Ram => r.bytes.get a = 0) hall fun r hr e _ => ?_
  split
  · exact Ram.get_fill_of_zero hr ..
  · exact hr

/-- What a changed map lists is a changed value. -/
theorem mem_mmapv {α : Type} [DecidableEq α] {d : α} {f : Nat → α → α} {m : List (Nat × α)} {e : Nat × α}
    (h : e ∈ mmapv d f m) : ∃ v, e.2 = f e.1 v := by
  induction m with
  | nil => simp [mmapv] at h
  | cons c m ih =>
    obtain ⟨k, v⟩ := c
    rw [mmapv] at h
    split at h
    · exact ih (List.mem_of_mem_filter h)
    · rcases List.mem_cons.mp h with rfl | h
      · exact ⟨v, rfl⟩
      · exact ih (List.mem_of_mem_filter h)

/-! ## Migration (R181) -/

theorem statusCode_le (st : Status) : statusCode st ≤ 12 := by cases st <;> decide

/-- BUSY and DONE of a move's status stand above its STATUS and its count. -/
theorem nbit_moveStat (busy fin : Bool) (st : Status) (poison : Nat) :
    nbit (moveStat busy fin st poison) 31 = busy ∧ nbit (moveStat busy fin st poison) 30 = fin := by
  have hst := statusCode_le st
  have hlow : statusCode st * 2 ^ 16 + min poison 65535 < 2 ^ 30 := by omega
  have hsplit : moveStat busy fin st poison =
      2 ^ 30 * (2 * b2n busy + b2n fin) + (statusCode st * 2 ^ 16 + min poison 65535) := by rw [moveStat]; omega
  rw [hsplit, nbit, nbit, Nat.testBit_two_pow_mul_add _ hlow, Nat.testBit_two_pow_mul_add _ hlow, if_neg (by omega),
    if_neg (by omega)]
  cases busy <;> cases fin <;> decide

theorem State.startMigration_starts {s : State} {tower frame band : Nat} (hidle : (s.tower tower).migration = none)
    (hevac : (s.tower tower).evac = none) (hvalid : (mget {} (s.tower tower).frames frame).valid = true)
    (hfree : bandTaken (s.tower tower) frame band = false) :
    s.startMigration tower frame band =
      (s.setTower tower { (s.tower tower).setFrame frame { mget {} (s.tower tower).frames frame with migrating := true } with
        migration := some ⟨frame, band⟩ }).setReg (towerBase tower + Off.twrMigrateStat)
          (moveStat true (s.regBit (towerBase tower + Off.twrMigrateStat) 30) .ok 0) := by
  simp only [State.startMigration, hidle, hevac, hvalid, hfree, Option.isSome_none, Bool.not_true, Bool.or_self,
    Bool.false_eq_true, if_false]

/-- The tower after a migration (R181): the frame has the new band and no migration runs. -/
def Tower.migrated (tw : Tower) (m : Migration) : Tower :=
  { tw.setFrame m.frame { mget {} tw.frames m.frame with band := m.dest, migrating := false } with migration := none }

/-- The end of a migration, from the state `u` that the copies of the frame's words leave, `k` of them poisoned. -/
theorem execMigrationDone_running {s : State} {tower : Nat} {m : Migration} (hruns : s.runs = true)
    (hm : (s.tower tower).migration = some m) :
    ∃ (u : State) (k : Nat), execMigrationDone tower s =
      .next ((u.setTower tower ((u.tower tower).migrated m)).setReg (towerBase tower + Off.twrMigrateStat)
        (moveStat false true (if k = 0 then .ok else .poison) k)) := by
  -- the number of a frame's words is a variable here: the kernel would otherwise run the copies
  generalize hf : @execMigrationDone = f
  delta execMigrationDone at hf
  generalize frameWords = words at hf
  as_aux_lemma =>
    subst hf
    simp only [hruns, hm, Bool.not_true, Bool.false_eq_true, if_false, done]
    exact ⟨_, _, rfl⟩

/-- The end of a sanitise (R173). -/
theorem execSanitiseDone_busy {s : State} {tower : Nat} (hruns : s.runs = true) (hbusy : (s.tower tower).sanitiseBusy = true) :
    execSanitiseDone tower s = .next (s.setTower tower { s.tower tower with
      sanitiseBusy := false, ram := zeroTower (s.tower tower),
      frames := mmapv {} (fun _ f => if f.valid then { f with init := true } else f) (s.tower tower).frames }) := by
  simp only [execSanitiseDone, hruns, hbusy, Bool.not_true, Bool.false_eq_true, if_false, if_true, done]

/-- Settles O30: a sanitise fills and then maps every entry; a migration marks its entry and at its end gives it the band. -/
theorem towersCleanedAndMoved : Obligations.TowersCleanedAndMoved := by
  refine ⟨fun s tower hruns hbusy => ?sanitise, fun s tower frame band m => ⟨?starts, ?ends⟩⟩
  case sanitise =>
    refine ⟨_, execSanitiseDone_busy hruns hbusy, ?_⟩
    rw [State.tower_setTower, if_pos rfl]
    refine ⟨rfl, fun a ha => get_zeroTower _ ha, fun e he hvalid => ?_⟩
    obtain ⟨f, hf⟩ := mem_mmapv he
    rw [hf] at hvalid ⊢
    split at hvalid
    · next hv => rw [if_pos hv]
    · next hv => exact absurd hvalid hv
  case starts =>
    intro htakes hidle hevac hvalid hfree
    have hstart := State.startMigration_starts (s := s.setReg (towerBase tower + Off.twrMigrate) (frame.toNat * 64 + band.toNat))
      hidle hevac hvalid hfree
    refine ⟨_, State.done_onWrite htakes _, ?_⟩
    rw [hstart, State.tower_setReg, State.tower_setTower, if_pos rfl]
    refine ⟨rfl, ?_, ?_⟩
    · simp
    · rw [State.regBit_setReg, if_pos rfl, (nbit_moveStat ..).1]
  case ends =>
    intro hruns hm
    obtain ⟨u, k, hexec⟩ := execMigrationDone_running hruns hm
    refine ⟨_, hexec, ?_⟩
    rw [State.tower_setReg, State.tower_setTower, if_pos rfl, State.regBit_setReg, if_pos rfl, State.regBit_setReg, if_pos rfl,
      (nbit_moveStat ..).1, (nbit_moveStat ..).2]
    simp [Tower.migrated]

end Sys2Proof.Machine
end

section
/-! Host writes of counters and semaphores, and accesses through BAR2. A read that lies within one word is that word's; one that
reaches neither view leaves one record. -/

namespace Sys2Proof.Machine

/-! ## Counters and semaphores (R277, R285) -/

theorem State.counter_addCounter_ne {s : State} {p q i k : Nat} (h : q ≠ p ∨ k ≠ i) (n : Nat) :
    (s.addCounter p i n).counter q k = s.counter q k := by
  by_cases hq : q = p
  · subst hq
    simp [State.addCounter, State.counter, h.resolve_left (not_not_intro rfl)]
  · simp [State.addCounter, State.counter, hq]

theorem State.sem_setSem (s : State) (p i k : Nat) (w : Word) :
    (s.setSem p i w).sem p k = if k = i then w else s.sem p k := by
  simp [State.setSem, State.sem]

/-- The word that a host write of a LOCK semaphore leaves (Table 08-6): `c` is SAT and ABANDONED, which a 1 clears. -/
theorem toNat_semHostWrite_lock (w : Word) {v : Nat} (hmode : v / 2 ^ 30 = 1) :
    ∃ c, c < 4 ∧ (semHostWrite w v).toNat = 2 ^ 30 + c * 2 ^ 28 + 255 * 2 ^ 16 + min 1 (v % 2 ^ 16) := by
  have hm : field v 30 2 = 1 := by rw [field, Nat.shiftRight_eq_div_pow, hmode]; rfl
  have hlow : field v 0 16 = v % 2 ^ 16 := rfl
  have hvalue : (if v % 2 ^ 16 > 1 then 1 else v % 2 ^ 16) = min 1 (v % 2 ^ 16) := by split <;> omega
  have hbit (i : Nat) : (if nbit v i then 0 else field w.toNat i 1) < 2 := by
    split
    · decide
    · exact Nat.mod_lt _ (by decide)
  simp only [semHostWrite, hm, hlow, Bool.and_eq_true, decide_eq_true_eq, true_and, hvalue, if_true, Nat.reduceLeDiff, ge_iff_le,
    if_false, BitVec.toNat_ofNat]
  have hsat := hbit 29
  have hab := hbit 28
  generalize (if nbit v 29 then 0 else field w.toNat 29 1) = sat at *
  generalize (if nbit v 28 then 0 else field w.toNat 28 1) = ab at *
  exact ⟨2 * sat + ab, by omega, by omega⟩

/-- A host write of a LOCK semaphore leaves VALUE at most 1, and no job holds it. -/
theorem semHostWrite_lock (w : Word) {v : Nat} (hmode : v / 2 ^ 30 = 1) :
    semLock (semHostWrite w v) = true ∧ semValue (semHostWrite w v) = min 1 (v % 2 ^ 16) ∧
      semHolder (semHostWrite w v) = 255 := by
  obtain ⟨c, hc, hword⟩ := toNat_semHostWrite_lock w hmode
  simp only [semLock, semValue, semHolder, hword, field, Nat.shiftRight_eq_div_pow, decide_eq_true_eq]
  omega

/-! ## BAR2 -/

/-- What an access through BAR2 that reaches neither view leaves: the memories as they are, and one record (R161, R370). -/
def State.ApertureLogged (s n : State) (a : Nat) : Prop :=
  n.towers = s.towers ∧ n.scratch = s.scratch ∧ n.cupolas = s.cupolas ∧
    ∃ e, n.landing.records = [e] ∧ e.code = .memUnmapped ∧ e.addr = a ∧ e.status = .bounds

theorem State.apertureLogged_logAperture {s : State} (hrecords : s.landing.records = []) (hwaiting : s.landing.waiting = [])
    (p a : Nat) : s.ApertureLogged (s.logAperture p a) a := by
  obtain ⟨l, hl⟩ := s.logError_frame { errOf .memUnmapped p 4 p with
    addr := a, status := .bounds, detail := engineId .host, cycles := s.landing.fclk.toNat }
  refine ⟨?_, ?_, ?_, _, State.records_logError_empty hrecords hwaiting _, rfl, rfl, rfl⟩ <;> rw [State.logAperture, hl]

theorem State.portUp_of_bar2 {s : State} {fn : Fn} (h : s.bar2 fn = true) : s.portUp = true := by
  simp only [State.bar2, State.fullPort, Bool.and_eq_true] at h
  tauto

theorem max_wordStart (a : Nat) : max a (a - a % 32) = a := by omega

theorem length_in_word {a n : Nat} (hword : a % 32 + n ≤ 32) : min (a + n) (a - a % 32 + 32) - a = n := by omega

theorem State.hostWords_one (s : State) (p a n wa : Nat) : s.hostWords p a n 1 wa = s.hostWord p a n wa := by
  simp only [State.hostWords, List.append_nil]

section
variable {s : State} {fn : Fn} {offset p a : Nat} {on : Bool} (haperture : s.aperture fn offset = (p, a, on))
include haperture

theorem execHostBar2Write_served {bytes : List Byte} (hbar : s.bar2 fn = true) (hbytes : bytes ≠ [])
    (hsize : offset + bytes.length ≤ s.bar2Size fn) :
    execHostBar2Write fn offset bytes false s =
      .next (if s.reachesTower p a on then (s.writeRun .host p a bytes [] false).1 else s.logAperture p a) := by
  simp only [execHostBar2Write, hbar, hbytes, hsize.not_gt, haperture, Bool.not_true, decide_false, Bool.or_self,
    Bool.false_eq_true, if_false, done]
  split <;> rfl

/-- A read that lies within one word and whose aperture is on. -/
theorem execHostBar2Read_word {length : Nat} (hbar : s.bar2 fn = true) (hlength : length ≠ 0)
    (hsize : offset + length ≤ s.bar2Size fn) (hword : a % 32 + length ≤ 32) (hon : on = true) :
    execHostBar2Read fn offset length s =
      .next { (s.hostWord p a length (a - a % 32)).1.tick with hostRead := (s.hostWord p a length (a - a % 32)).2 } := by
  have hcount : (a + length - 1) / 32 - a / 32 + 1 = 1 := by omega
  simp only [execHostBar2Read, State.portUp_of_bar2 hbar, hbar, hlength, hsize.not_gt, haperture, hon, hcount,
    State.hostWords_one, Bool.not_true, decide_false, Bool.or_self, Bool.false_eq_true, if_false, done]

theorem execHostBar2Read_off {length : Nat} (hbar : s.bar2 fn = true) (hlength : length ≠ 0)
    (hsize : offset + length ≤ s.bar2Size fn) (hoff : on = false) :
    execHostBar2Read fn offset length s = .next { s.logAperture p a with hostRead := List.replicate length 0xFF } := by
  simp only [execHostBar2Read, State.portUp_of_bar2 hbar, hbar, hlength, hsize.not_gt, haperture, hoff, Bool.not_true,
    Bool.not_false, decide_false, Bool.or_self, Bool.false_eq_true, if_false, if_true, done]

end

/-- A port that is up but does not serve BAR2 answers a read with bytes of 0xFF (R368, R372, R375). -/
theorem execHostBar2Read_unserved {s : State} {fn : Fn} {offset length : Nat} (hlength : length ≠ 0)
    (hsize : offset + length ≤ s.bar2Size fn) (hport : s.portUp = true) (hbar : s.bar2 fn = false) :
    execHostBar2Read fn offset length s = .next { s with hostRead := List.replicate length 0xFF } := by
  simp only [execHostBar2Read, hport, hbar, hlength, hsize.not_gt, Bool.not_true, Bool.not_false, decide_false, Bool.or_self,
    Bool.false_eq_true, if_false, if_true, done]

/-! ### The word of a read -/

section
variable {s : State} {p a n : Nat} (hword : a % 32 + n ≤ 32)
include hword

theorem State.hostWord_unmapped (hreach : s.reachesTower p a true = false) :
    s.hostWord p a n (a - a % 32) = (s.logAperture p a, List.replicate n 0xFF) := by
  simp only [State.hostWord, max_wordStart, length_in_word hword, hreach, Bool.not_false, if_true]

theorem State.hostWord_refused (hreach : s.reachesTower p a true = true) (hread : (s.readWord .host p (a - a % 32)).2 = none) :
    (s.hostWord p a n (a - a % 32)).2 = List.replicate n 0xFF := by
  have hpair : s.readWord .host p (a - a % 32) = ((s.readWord .host p (a - a % 32)).1, none) := Prod.ext rfl hread
  simp only [State.hostWord, max_wordStart, length_in_word hword, hreach, Bool.not_true, Bool.false_eq_true, if_false]
  rw [hpair]

theorem State.hostWord_clean {w : WordRead} (hreach : s.reachesTower p a true = true)
    (hread : (s.readWord .host p (a - a % 32)).2 = some w) (hclean : w.kind = .clean) :
    s.hostWord p a n (a - a % 32) = ((s.readWord .host p (a - a % 32)).1, w.data.bytes (a % 32) n) := by
  have hoff : a - (a - a % 32) = a % 32 := by omega
  have hpair : s.readWord .host p (a - a % 32) = ((s.readWord .host p (a - a % 32)).1, some w) := Prod.ext rfl hread
  simp only [State.hostWord, max_wordStart, length_in_word hword, hoff, hreach, Bool.not_true, Bool.false_eq_true, if_false]
  rw [hpair]
  simp only [hclean, if_true]

end

theorem State.on_of_reachesTower {s : State} {p a : Nat} {on : Bool} (h : s.reachesTower p a on = true) : on = true := by
  cases on
  · exact absurd h Bool.false_ne_true
  · rfl

/-- Settles O33: each register's write is one update, and an access through BAR2 is that of the address its aperture reaches. -/
theorem hostAccesses : Obligations.HostAccesses := by
  refine ⟨fun s part sem index amount value key i16 => ⟨?counter, ?semaphore, ?selector⟩,
    fun s fn offset length p a on bytes haperture =>
      ⟨?write, fun hlength hsize => ⟨?unserved, fun hbar hword => ⟨?read, ?logged⟩⟩⟩⟩
  case counter =>
    intro htakes
    refine ⟨_, State.done_onWrite htakes _, ?_, fun q k h => State.counter_addCounter_ne h _, rfl, rfl, rfl⟩
    simp only [State.counter_addCounter, BitVec.ofNat_add, BitVec.ofNat_toNat, BitVec.setWidth_eq]
  case semaphore =>
    intro htakes hmode
    obtain ⟨hlock, hvalue, hholder⟩ := semHostWrite_lock (s.sem part sem) hmode
    refine ⟨_, State.done_onWrite htakes _, ?_⟩
    simp only [State.sem_setSem, if_true]
    exact ⟨hlock, hvalue, hholder, fun k hk => if_neg hk⟩
  case selector =>
    intro htakes
    refine ⟨_, State.done_onWrite htakes _, ?_⟩
    simp only [State.reg_setReg, if_true, true_and]
    exact fun k hk => if_neg hk
  case write =>
    intro hbar hbytes hsize
    have hexec := execHostBar2Write_served haperture hbar hbytes hsize
    refine ⟨fun hreach => ?_, fun hreach hrecords hwaiting => ⟨s.logAperture p a, ?_, ?_⟩⟩
    · exact hexec.trans (by rw [if_pos hreach])
    · exact hexec.trans (by rw [hreach]; rfl)
    · exact State.apertureLogged_logAperture hrecords hwaiting p a
  case unserved => exact execHostBar2Read_unserved hlength hsize
  case read =>
    intro hreach
    obtain rfl := State.on_of_reachesTower hreach
    have hexec := execHostBar2Read_word haperture hbar hlength hsize hword rfl
    refine ⟨fun hrefused => ⟨_, hexec, State.hostWord_refused hword hreach hrefused⟩,
      fun w hread hclean => ⟨_, hexec, ?_⟩⟩
    rw [State.hostWord_clean hword hreach hread hclean]
    exact ⟨rfl, rfl, rfl⟩
  case logged =>
    intro hreach hrecords hwaiting
    have hlog := State.apertureLogged_logAperture hrecords hwaiting p a
    cases on with
    | false => exact ⟨_, execHostBar2Read_off haperture hbar hlength hsize rfl, rfl, hlog⟩
    | true =>
      have hexec := execHostBar2Read_word haperture hbar hlength hsize hword rfl
      rw [State.hostWord_unmapped hword hreach] at hexec
      exact ⟨_, hexec, rfl, hlog⟩

end Sys2Proof.Machine
end

section
/-! The watchdog of tower commands against a group in G3. The work that a command does before the watchdog ends it reaches its tower;
an access wakes a group from G3 (Table 09-8), and a core of that group comes back without its task (R298). The watchdog then finds no
task to trap. -/

namespace Sys2Proof.Machine

/-- Where a command's cut work leaves its core without the task, the watchdog ends the command and traps nothing. -/
theorem execTcmdWatchdog_untrapped {s : State} {tower index : Nat} {r : Running}
    (hrunning : (s.tower tower).running[index]? = some r) (hruns : s.keepRuns tower = true) (hoverdue : r.overdue = true)
    (hgone : (s.cutWork tower r).holdsTask r.cmd.part r.cmd.job r.cmd.core = false) :
    ∃ x, execTcmdWatchdog tower index s = .next ((s.cutWork tower r).setTower tower x) := by
  simp only [execTcmdWatchdog, hrunning, hruns, hoverdue, Bool.not_true, Bool.or_self, Bool.false_eq_true, if_false,
    State.modTower_eq]
  exact ⟨_, if_neg (ne_true_of_eq_false hgone)⟩

/-- A TCOPY of one word of tower 0 onto itself for core 0, one cycle past its BOUND of 1000. -/
def overrunCopy : Running := {
  counted := 1001
  cmd := {
    cmd := .tcopy, core := 0, part := 0, job := 0, checked := some { descs := [], banks := [], work := 1 }
    params := leBytes 4 1000 ++ List.replicate 20 0 ++ leBytes 8 0x100000000000 ++ leBytes 8 0x100000000000 ++
      leBytes 8 32 ++ List.replicate 16 0 } }

/-- A READY part with group 0 in G3: core 0 holds a task of job 0, whose copy works in tower 0. -/
def overrunInG3 : State := { State.reset with
  regs := [(Off.gstat, 2 ^ 31), (partBase 0 + Off.pctl, 2 ^ 31 + 1)]
  groups := [(0, { pstate := .g3 })]
  cores := [(0, { task := some { part := 0, job := 0, index := 0, cls := 0, codeBase := 0 } })]
  towers := [(0, { owner := 0, running := [overrunCopy] })]
  parts := [(0, { state := .enabled, jobs := [(0, { state := .resident })] })] }

theorem keepRuns_overrunInG3 : overrunInG3.keepRuns 0 = true := by decide

theorem bound_lt_counted_overrunCopy : overrunCopy.cmd.bound < overrunCopy.counted := by decide

theorem holdsTask_overrunInG3 : overrunInG3.holdsTask 0 0 0 = true := by decide

/-- The copy's first read wakes the group, and core 0 comes back bare. -/
theorem holdsTask_cutWork_overrunInG3 : (overrunInG3.cutWork 0 overrunCopy).holdsTask 0 0 0 = false := by decide +kernel

theorem job_cutWork_overrunInG3 : ((overrunInG3.cutWork 0 overrunCopy).job 0 0).state = .resident := by decide +kernel

/-- Refutes O26: the statement is about every state, and in one whose group is in G3 the command's own work wakes the group, so that
the core that held the task before has lost it when the watchdog would trap it, and the job stays RESIDENT. (G3_ENTRY itself wants a
group without running commands, `State.groupIdle`; the statement has no such hypothesis.) -/
theorem not_towerWatchdogAndRegisters : ¬ Obligations.TowerWatchdogAndRegisters := by
  intro h
  obtain ⟨hwatchdog, -, -⟩ := h overrunInG3 0 0 overrunCopy overrunCopy.cmd
  obtain ⟨-, hfaults⟩ := hwatchdog rfl keepRuns_overrunInG3 rfl bound_lt_counted_overrunCopy (by decide)
  obtain ⟨n, hn, hfaulted, -⟩ := hfaults holdsTask_overrunInG3 (by decide)
  obtain ⟨x, hx⟩ := execTcmdWatchdog_untrapped (s := overrunInG3) (tower := 0) (index := 0) (r := overrunCopy) rfl
    keepRuns_overrunInG3 (by decide) holdsTask_cutWork_overrunInG3
  cases hx.symm.trans hn
  exact absurd (hfaulted.symm.trans job_cutWork_overrunInG3) (by decide)

end Sys2Proof.Machine
end

section
/-! The serving sequencer's accesses. What it reads and writes of entries, tables, page pools, the tree of prompt blocks and stream rings are
accesses to memory: each leaves everything outside the memories. Where a callee is generalized before a case split, it is for the
kernel's depth, as among the `fixed` lemmas. -/

namespace Sys2Proof.Machine

/-! ## What is outside the memories -/

theorem outside_of_eq {α : Type} {p : State × α} {n s : State} {x : α} (h : p = (n, x)) (hp : p.1.outside = s.outside) :
    n.outside = s.outside := by
  rw [h] at hp
  exact hp

theorem State.part_of_outside {s n : State} (h : n.outside = s.outside) (p : Nat) : n.part p = s.part p :=
  congrArg (State.part · p) (a₁ := n.outside) (a₂ := s.outside) h

theorem State.reg_of_outside {s n : State} (h : n.outside = s.outside) (a : Nat) : n.reg a = s.reg a :=
  congrArg (State.reg · a) (a₁ := n.outside) (a₂ := s.outside) h

/-! ## Reads and writes of the sequencer -/

theorem State.storeRun_outside (s : State) (p a : Nat) (bs : List Byte) : (s.storeRun p a bs).1.outside = s.outside := by
  unfold State.storeRun; split <;> exact State.writeRun_outside ..

theorem State.srvWrite_outside (s : State) (p a n v : Nat) : (s.srvWrite p a n v).outside = s.outside :=
  State.writeRun_outside ..

theorem State.readReq_outside (s : State) (p i : Nat) : (s.readReq p i).1.outside = s.outside := State.srvRead_outside ..

theorem State.putReq_outside (s : State) (p i off n v : Nat) : (s.putReq p i off n v).outside = s.outside :=
  State.srvWrite_outside ..

theorem State.setReqState_outside (s : State) (p i st : Nat) : (s.setReqState p i st).outside = s.outside :=
  State.putReq_outside ..

theorem State.setDone_outside (s : State) (p i : Nat) (st : Status) : (s.setDone p i st).outside = s.outside :=
  (State.setReqState_outside ..).trans (State.putReq_outside ..)

theorem State.setTable_outside (s : State) (p : Nat) (k : KvTable) (committed flushed : Nat) :
    (s.setTable p k committed flushed).outside = s.outside :=
  (State.srvWrite_outside ..).trans (State.srvWrite_outside ..)

/-! ## The page pool (R238, R239) -/

theorem State.srvPool_outside (s : State) (p t : Nat) : (s.srvPool p t).1.outside = s.outside := by
  generalize hf : @State.srvPool = f
  delta State.srvPool at hf
  have hread := @State.srvRead_outside
  generalize @State.srvRead = read at hread hf
  as_aux_lemma =>
    subst hf
    grind

theorem State.raiseRef_outside (s : State) (p t e : Nat) : (s.raiseRef p t e).outside = s.outside := by
  generalize hf : @State.raiseRef = f
  delta State.raiseRef at hf
  have hpool := @State.srvPool_outside
  have hread := @State.srvRead_outside
  generalize @State.srvPool = pool, @State.srvRead = read at hpool hread hf
  as_aux_lemma =>
    subst hf
    grind [State.srvWrite_outside]

theorem State.dropRef_outside (s : State) (p t e : Nat) : (s.dropRef p t e).outside = s.outside := by
  generalize hf : @State.dropRef = f
  delta State.dropRef at hf
  have hpool := @State.srvPool_outside
  have hread := @State.srvRead_outside
  generalize @State.srvPool = pool, @State.srvRead = read at hpool hread hf
  as_aux_lemma =>
    subst hf
    grind [State.srvWrite_outside]

theorem State.freePages_outside (s : State) (p t : Nat) : (s.freePages p t).1.outside = s.outside := by
  generalize hf : @State.freePages = f
  delta State.freePages at hf
  have hpool := @State.srvPool_outside
  generalize @State.srvPool = pool at hpool hf
  as_aux_lemma =>
    subst hf
    grind

/-! ## The tree of prompt blocks (R246 to R248) -/

theorem State.findNode_outside (s : State) (p key : Nat) (parent : Option Nat) (mv : Nat) (n n1 : Nat) :
    (s.findNode p key parent mv n n1).1.outside = s.outside := by
  fun_induction State.findNode <;> grind [State.srvRead_outside]

theorem State.lookup_outside (s : State) (p key : Nat) (parent : Option Nat) (mv : Nat) :
    (s.lookup p key parent mv).1.outside = s.outside := by
  unfold State.lookup
  split
  next h => exact (State.findNode_outside ..).trans (outside_of_eq h (s.srvRead_outside ..))
  next h => exact outside_of_eq h (s.srvRead_outside ..)

theorem State.setNodeRefs_outside (s : State) (p a v : Nat) : (s.setNodeRefs p a v).outside = s.outside :=
  State.srvWrite_outside ..

theorem State.leaveNode_outside (s : State) (p a : Nat) : (s.leaveNode p a).outside = s.outside := by
  unfold State.leaveNode; grind [State.srvRead_outside, State.setNodeRefs_outside]

theorem State.unlink_outside (s : State) (p a next : Nat) (n n1 : Nat) :
    (s.unlink p a next n n1).outside = s.outside := by
  fun_induction State.unlink <;> grind [State.srvRead_outside, State.srvWrite_outside]

theorem State.treeNodes_outside (s : State) (p : Nat) (l : List (Nat × List Nat)) :
    (s.treeNodes p l).1.outside = s.outside := by
  fun_induction State.treeNodes <;> grind [State.srvRead_outside]

theorem State.idleNode_outside (s : State) (p : Nat) : (s.idleNode p).1.outside = s.outside := by
  unfold State.idleNode; grind [State.treeNodes_outside]

theorem State.enterPages_outside (s : State) (p : Nat) (t : KvTable) (n n1 n2 : Nat) :
    (s.enterPages p t n n1 n2).outside = s.outside := by
  fun_induction State.enterPages <;> grind [State.srvRead_outside, State.srvWrite_outside, State.raiseRef_outside]

theorem State.enterBlock_outside (s : State) (p n : Nat) (l : List (Option KvTable)) (n1 : Nat) :
    (s.enterBlock p n l n1).outside = s.outside := by
  fun_induction State.enterBlock <;> grind [State.enterPages_outside]

theorem State.matchBlocks_outside (s : State) (p e : Nat) (tables : List (Option KvTable)) (n n1 n2 : Nat) :
    (s.matchBlocks p e tables n n1 n2).1.outside = s.outside := by
  fun_induction State.matchBlocks <;> grind [State.srvRead_outside, State.lookup_outside, State.setNodeRefs_outside,
    State.srvWrite_outside, State.enterBlock_outside]

theorem State.blockPages_outside (s : State) (p n : Nat) (l : List (Option KvTable)) :
    (s.blockPages p n l).1.outside = s.outside := by
  fun_induction State.blockPages <;> grind [foldl_outside1, State.srvRead_outside]

/-! ## Tables, rings and entries (R249 to R258) -/

theorem State.letPages_outside (s : State) (p : Nat) (t : KvTable) (n n1 : Nat) :
    (s.letPages p t n n1).outside = s.outside := by
  fun_induction State.letPages <;> grind [State.srvRead_outside, State.dropRef_outside, State.srvWrite_outside]

theorem State.cutTable_outside (s : State) (p b : Nat) (t : KvTable) : (s.cutTable p b t).outside = s.outside := by
  unfold State.cutTable
  grind [State.setTable_outside, State.letPages_outside, State.modTower_outside]

theorem State.pushStream_outside (s : State) (p i e : Nat) (entries : List (List Byte)) :
    (s.pushStream p i e entries).outside = s.outside := by
  simp only [State.pushStream]
  split
  · rfl
  · rw [State.putReq_outside, State.storeRun_outside, foldl_outside _ _ _ fun _ _ => State.storeRun_outside ..]

theorem State.liveEntries_outside (s : State) (p : Nat) (l : List SrvReq) :
    (s.liveEntries p l).1.outside = s.outside := by
  fun_induction State.liveEntries <;> grind [State.readReq_outside]

theorem State.live_outside (s : State) (p : Nat) : (s.live p).1.outside = s.outside := State.liveEntries_outside ..

theorem State.stepReady_outside (s : State) (p m : Nat) : (s.stepReady p m).1.outside = s.outside :=
  State.live_outside ..

theorem State.chunkReady_outside (s : State) (p m : Nat) : (s.chunkReady p m).1.outside = s.outside :=
  State.live_outside ..

theorem State.shortOfPages_outside (s : State) (p : Nat) (reqs : List (Nat × Nat)) :
    (s.shortOfPages p reqs).1.outside = s.outside := by
  generalize hf : @State.shortOfPages = f
  delta State.shortOfPages at hf
  have hfree := @State.freePages_outside
  generalize @State.freePages = free at hfree hf
  as_aux_lemma =>
    subst hf
    simp [hfree, foldl_outside1, State.pagesDue_outside]

theorem State.pageBelow_outside (s : State) (p e : Nat) : (s.pageBelow p e).1.outside = s.outside := by
  unfold State.pageBelow; grind [State.kvTables_outside]

theorem State.countEviction_outside (s : State) (p i e : Nat) : (s.countEviction p i e).outside = s.outside :=
  State.putReq_outside ..

theorem State.writeStep_outside (s : State) (p i e kind pos ntok : Nat) :
    (s.writeStep p i e kind pos ntok).outside = s.outside := State.writeRun_outside ..

theorem State.forkTable_outside (s : State) (p at_ : Nat) (src dst : Option KvTable) :
    (s.forkTable p at_ src dst).1.outside = s.outside := by
  unfold State.forkTable; grind [foldl_outside, State.srvRead_outside, State.srvWrite_outside,
    State.raiseRef_outside, State.setTable_outside]

theorem State.forkTables_outside (s : State) (p at_ : Nat) (l : List (Option KvTable × Option KvTable)) (n : Nat) :
    (s.forkTables p at_ l n).1.outside = s.outside := by
  fun_induction State.forkTables <;> grind [State.forkTable_outside]

theorem State.forkSource_outside (s : State) (p i e : Nat) : (s.forkSource p i e).1.outside = s.outside := by
  unfold State.forkSource; grind [State.readReq_outside]

theorem State.copyTokens_outside (s : State) (p src dst : Nat) (n n1 : Nat) :
    (s.copyTokens p src dst n n1).outside = s.outside := by
  fun_induction State.copyTokens <;> grind [State.srvRead_outside, State.srvWrite_outside]

theorem State.holdsKv_outside (s : State) (p e : Nat) : (s.holdsKv p e).1.outside = s.outside :=
  State.reqTables_outside ..

theorem State.bare_outside (s : State) (p i : Nat) : (s.bare p i).1.outside = s.outside := by
  unfold State.bare; grind [State.readReq_outside, State.holdsKv_outside]

theorem State.safeBoundary_outside (s : State) (p e : Nat) : (s.safeBoundary p e).1.outside = s.outside :=
  State.reqTables_outside ..

theorem State.appendLog_outside (s : State) (p i e : Nat) (l : List (Nat × Nat)) :
    (s.appendLog p i e l).outside = s.outside := by
  refine foldl_outside _ _ _ fun s x => ?_
  split
  · exact State.srvWrite_outside ..
  · rfl

end Sys2Proof.Machine
end

section
/-! What the serving sequencer has in progress. Of its operations only SERVING_STEP begins a step or a prompt chunk, and only
STEP_RESULT ends a step: evictions, cancels and results change memory, requests, nodes and held entries, and at most drop chunks or
mark them cut. -/

namespace Sys2Proof.Machine

/-! ## The step and the chunks in progress -/

@[simp] theorem State.srv_modSrv (s : State) (p : Nat) (f : Serving → Serving) :
    ((s.modSrv p f).part p).srv = f (s.part p).srv := by simp [State.modSrv]

/-- The serving sequencer of partition `p` has the step `st`, and prompt chunks in progress only of requests that `ok` names. -/
def State.InProgress (s : State) (p : Nat) (st : Option SrvStep) (ok : Nat → Prop) : Prop :=
  (s.part p).srv.step = st ∧ ∀ c ∈ (s.part p).srv.chunks, ok c.req

section
variable {s n : State} {p : Nat} {st : Option SrvStep} {ok : Nat → Prop}

theorem State.InProgress.of_outside (hs : s.InProgress p st ok) (h : n.outside = s.outside) : n.InProgress p st ok := by
  unfold State.InProgress
  rw [State.part_of_outside h]
  exact hs

theorem State.InProgress.modSrv (hs : s.InProgress p st ok) {f : Serving → Serving} (hstep : ∀ v, (f v).step = v.step)
    (hchunks : ∀ v, ∀ c ∈ (f v).chunks, ∃ d ∈ v.chunks, c.req = d.req) : (s.modSrv p f).InProgress p st ok := by
  obtain ⟨hst, hok⟩ := hs
  unfold State.InProgress
  rw [State.srv_modSrv]
  refine ⟨(hstep _).trans hst, fun c hc => ?_⟩
  obtain ⟨d, hd, hreq⟩ := hchunks _ c hc
  exact hreq ▸ hok d hd

/-- A change of the sequencer's state beside the step and the chunks. -/
theorem State.InProgress.modSrv_apart (hs : s.InProgress p st ok) {f : Serving → Serving}
    (hstep : ∀ v, (f v).step = v.step := by exact fun _ => rfl)
    (hchunks : ∀ v, (f v).chunks = v.chunks := by exact fun _ => rfl) : (s.modSrv p f).InProgress p st ok :=
  hs.modSrv hstep fun v c hc => ⟨c, hchunks v ▸ hc, rfl⟩

theorem State.InProgress.modReq (hs : s.InProgress p st ok) (i : Nat) (f : SrvReq → SrvReq) :
    (s.modReq p i f).InProgress p st ok := hs.modSrv_apart

/-- A fold whose steps keep what is in progress keeps it. -/
theorem State.InProgress.foldl {α : Type} {f : State → α → State}
    (hf : ∀ s x, s.InProgress p st ok → (f s x).InProgress p st ok) (hs : s.InProgress p st ok) (l : List α) :
    (l.foldl f s).InProgress p st ok := by
  induction l generalizing s with
  | nil => exact hs
  | cons x l ih => exact ih (hf _ _ hs)

theorem State.InProgress.dropNode (hs : s.InProgress p st ok) (a : Nat) : (s.dropNode p a).InProgress p st ok := by
  refine (hs.modSrv_apart (f := fun v => { v with nodes := v.nodes.filter fun x => decide (x.1 ≠ a) })).of_outside ?_
  unfold State.dropNode
  grind [foldl_outside, State.srvRead_outside, State.unlink_outside, State.dropRef_outside, State.lookup_outside,
    State.srvWrite_outside]

theorem State.InProgress.insertNode (hs : s.InProgress p st ok) (i e key parent : Nat) (up : Option Nat)
    (pages : List (Nat × Nat × Nat)) : (s.insertNode p i e key parent up pages).1.InProgress p st ok := by
  generalize hf : @State.insertNode = f
  delta State.insertNode at hf
  have hread := @State.srvRead_outside
  have hrun := @State.writeRun_outside
  have hwrite := @State.srvWrite_outside
  have hraise := @State.raiseRef_outside
  generalize @State.srvRead = read, @State.writeRun = run, @State.srvWrite = write, @State.raiseRef = raise
    at hread hrun hwrite hraise hf
  as_aux_lemma =>
    subst hf
    beta_reduce
    generalize 64 * (1 + s.draw 15 0 % (2 ^ 42 - 1)) = a, 8 * (1 + s.draw 16 0 % (2 ^ 45 - 1)) = list
    dsimp only
    rcases h : read s.tick p (s.tick.bucketAddr p key) 8 with ⟨t, _ | first⟩
    · exact hs.of_outside (outside_of_eq h (hread ..))
    · have ht : t.outside = s.outside := outside_of_eq h (hread ..)
      dsimp only
      split
      · exact hs.of_outside ((hrun ..).trans ((hrun ..).trans ht))
      · refine (State.InProgress.modSrv_apart (hs.of_outside ?_)).modReq i _
        have hpages (l : List (Nat × Nat × Nat)) (s : State) : (l.foldl (fun s x => raise (write s p x.1 8
            (putField x.2.2 30 1 1)) p x.2.1 x.2.2) s).outside = s.outside :=
          foldl_outside _ _ _ fun _ _ => (hraise ..).trans (hwrite ..)
        split
        · split
          next h => rw [hwrite, outside_of_eq h (hread ..), hpages, hwrite, hrun, hrun, ht]
          next h => rw [outside_of_eq h (hread ..), hpages, hwrite, hrun, hrun, ht]
        · rw [hpages, hwrite, hrun, hrun, ht]

theorem State.InProgress.cutTables (hs : s.InProgress p st ok) (i e b : Nat) : (s.cutTables p i e b).InProgress p st ok := by
  refine State.InProgress.modReq (hs.of_outside ?_) ..
  refine (foldl_outside _ _ _ fun _ _ => State.leaveNode_outside ..).trans
    ((foldl_outside _ _ _ fun s t => ?_).trans (State.reqTables_outside ..))
  split
  · exact State.cutTable_outside ..
  · rfl

theorem State.InProgress.releaseReq (hs : s.InProgress p st ok) (i e : Nat) : (s.releaseReq p i e).InProgress p st ok :=
  (hs.cutTables ..).modSrv (fun _ => rfl) fun _ c hc => ⟨c, List.mem_of_mem_filter hc, rfl⟩

theorem State.InProgress.endReq (hs : s.InProgress p st ok) (i e : Nat) (status : Status) (flags : Nat) :
    (s.endReq p i e status flags).InProgress p st ok := by
  have hreleased := hs.releaseReq i e
  unfold State.endReq
  dsimp only
  split
  · exact hreleased.of_outside ((State.setDone_outside ..).trans (State.pushStream_outside ..))
  · exact hreleased.modSrv_apart

theorem State.InProgress.cutBack (hs : s.InProgress p st ok) (i e b : Nat) : (s.cutBack p i e b).InProgress p st ok := by
  suffices hlast : ∀ t : State, t.InProgress p st ok →
      (if reqState e = 4 then t else t.setReqState p i 2).InProgress p st ok from
    hlast _ ((((hs.cutTables ..).of_outside (State.putReq_outside ..)).modReq ..).modSrv (fun _ => rfl) fun v c hc => by
      obtain ⟨d, hd, rfl⟩ := List.mem_map.mp hc
      exact ⟨d, hd, by split <;> rfl⟩)
  intro t ht
  split
  · exact ht
  · exact ht.of_outside (State.setReqState_outside ..)

theorem State.InProgress.insertBlocks (hs : s.InProgress p st ok) (i e : Nat) (tables : List (Option KvTable))
    (k n parent : Nat) (up : Option Nat) : (s.insertBlocks p i e tables k n parent up).InProgress p st ok := by
  induction k generalizing s n parent up with
  | zero => exact hs
  | succ k ih =>
    unfold State.insertBlocks
    split
    next h => exact hs.of_outside (outside_of_eq h (State.srvRead_outside ..))
    next t toks h =>
      have ht : t.outside = s.outside := outside_of_eq h (State.srvRead_outside ..)
      dsimp only
      split
      next h => exact ih (hs.of_outside ((outside_of_eq h (State.lookup_outside ..)).trans ht)) ..
      next u h =>
        have hu : u.outside = s.outside := (outside_of_eq h (State.lookup_outside ..)).trans ht
        split
        next h => exact hs.of_outside ((outside_of_eq h (State.blockPages_outside ..)).trans hu)
        next v pages h =>
          have hv := hs.of_outside ((outside_of_eq h (State.blockPages_outside ..)).trans hu)
          have hnode := hv.insertNode i e (t.blockKey p parent toks) parent up pages
          split
          next h =>
            rw [h] at hnode
            exact ih hnode ..
          next h =>
            rw [h] at hnode
            exact hnode

/-! ## Evictions and cancels (R250, R259) -/

theorem State.InProgress.evict (hs : s.InProgress p st ok) (m : Nat) (needy cut : List Nat) (n : Nat) :
    (s.evict p m needy cut n).InProgress p st ok := by
  generalize hf : @State.evict = f
  delta State.evict State.evict._f at hf
  have hshort := @State.shortOfPages_outside
  have hready := @State.stepReady_outside
  have hidle := @State.idleNode_outside
  have hdrop := @State.InProgress.dropNode
  have hlive := @State.live_outside
  have hbelow := @State.pageBelow_outside
  generalize @State.shortOfPages = short, @State.stepReady = ready, @State.idleNode = idle, @State.dropNode = drop,
    @State.live = live, @State.pageBelow = below at hshort hready hidle hdrop hlive hbelow hf
  as_aux_lemma =>
    subst hf
    refine brecOn_induction (C := State → List Nat → List Nat → State)
      (P := fun g => ∀ s needy cut, s.InProgress p st ok → (g s needy cut).InProgress p st ok)
      (fun _ _ _ hs => hs) (fun n g ih s needy cut hs => ?_) n s needy cut hs
    obtain ⟨g, _⟩ := g
    dsimp only at ih ⊢
    have hs := hs.of_outside ((hshort _ p (ready s p m).2).trans (hready s p m))
    split
    · exact hs
    · split
      next he => exact ih _ _ _ (hdrop (hs.of_outside (outside_of_eq he (hidle ..))) _)
      next he =>
        have hs := (hs.of_outside (outside_of_eq he (hidle ..))).of_outside (hlive _ p)
        split
        · exact ih _ _ _ (hs.endReq ..)
        · split
          next x _ =>
            have hs := hs.of_outside (hbelow _ p x.2)
            refine ih _ _ _ ?_
            split
            · exact hs.cutBack ..
            · exact (hs.cutBack ..).of_outside (State.countEviction_outside ..)
          · exact hs

theorem State.InProgress.evictAt (hs : s.InProgress p st ok) (m : Nat) : (s.evictAt p m).InProgress p st ok :=
  hs.modSrv_apart.evict ..

theorem State.InProgress.cancelNow (hs : s.InProgress p st ok) (i : Nat) : (s.cancelNow p i).InProgress p st ok := by
  unfold State.cancelNow
  split
  next h => exact hs.of_outside (outside_of_eq h (State.readReq_outside ..))
  next t e h =>
    have ht := hs.of_outside (outside_of_eq h (State.readReq_outside ..))
    split
    · exact ht
    · split
      next u _ h =>
        have hu := ht.of_outside (outside_of_eq h (State.holdsKv_outside ..))
        split
        · exact hu.of_outside (State.setReqState_outside ..)
        · exact hu.endReq ..

theorem State.InProgress.applyCancels (hs : s.InProgress p st ok) : (s.applyCancels p).InProgress p st ok :=
  hs.modSrv_apart.foldl (fun _ _ hs => hs.cancelNow _) _

/-! ## Results (R253, R254) -/

theorem State.InProgress.emit (hs : s.InProgress p st ok) (i e committed : Nat) (toks : List (Nat × Nat)) :
    (s.emit p i e committed toks).InProgress p st ok := by
  unfold State.emit
  extract_lets _ toks _ _ logged counted e2
  have hcounted : counted.InProgress p st ok := hs.of_outside
    ((State.putReq_outside ..).trans ((State.putReq_outside ..).trans (State.appendLog_outside ..)))
  split
  extract_lets rows pushed
  have hpushed : pushed.InProgress p st ok := by
    unfold pushed
    split
    · exact hcounted
    · exact (hcounted.of_outside (State.pushStream_outside ..)).modReq ..
  split
  · split
    · exact hcounted.endReq ..
    · exact hcounted
  · split
    · exact hpushed.of_outside (State.setReqState_outside ..)
    · split
      · exact hpushed.endReq ..
      · exact (hpushed.releaseReq ..).of_outside (State.setDone_outside ..)

theorem State.InProgress.lastChunk (hs : s.InProgress p st ok) (i e committed : Nat) (toks : List (Nat × Nat)) :
    (s.lastChunk p i e committed toks).InProgress p st ok := by
  unfold State.lastChunk
  split
  · have hput := hs.of_outside (State.putReq_outside s p i 0x44 4 committed)
    dsimp only
    split
    · exact hput
    · exact hput.of_outside (State.setReqState_outside ..)
  · dsimp only
    refine State.InProgress.emit ?_ ..
    split
    · exact (hs.of_outside (State.reqTables_outside ..)).insertBlocks ..
    · exact hs

theorem State.InProgress.applyResult (hs : s.InProgress p st ok) (i e : Nat) (r : Option (Nat × List (Nat × Nat)))
    (take : State → List (Nat × Nat) → State) (htake : ∀ toks, (take s toks).InProgress p st ok) :
    (s.applyResult p i e r take).InProgress p st ok := by
  unfold State.applyResult
  split
  · exact htake _
  · exact (hs.of_outside (State.safeBoundary_outside ..)).cutBack ..
  · exact hs.modSrv_apart
  · exact hs.endReq ..

theorem State.InProgress.chunkResult (hs : s.InProgress p st ok) (c : SrvChunk) (e : Nat)
    (r : Option (Nat × List (Nat × Nat))) : (s.chunkResult p c e r).InProgress p st ok := by
  refine hs.applyResult _ _ _ _ fun toks => ?_
  split
  · exact hs.emit ..
  · split
    · exact hs.of_outside (State.putReq_outside ..)
    · exact hs.lastChunk ..

/-- A chunk that is over is in progress no longer. -/
theorem State.inProgress_endChunk (s : State) (p : Nat) (c : SrvChunk) (e : Nat) (r : Option (Nat × List (Nat × Nat))) :
    (s.endChunk p c e r).InProgress p (s.part p).srv.step (· ≠ c.req) := by
  have hgone : (s.modSrv p fun v => { v with chunks := v.chunks.filter fun x => decide (x.req ≠ c.req) }).InProgress p
      (s.part p).srv.step (· ≠ c.req) := by
    simp [State.InProgress]
  unfold State.endChunk
  refine State.InProgress.modSrv_apart ?_
  split
  · exact hgone.cutTables ..
  · exact hgone.chunkResult ..

end

/-! ## Steps begun -/

/-- The step in progress of partition `p` and the steps begun. -/
def State.stepping (s : State) (p : Nat) : Option SrvStep × Nat := ((s.part p).srv.step, (s.part p).srv.steps)

theorem State.stepping_of_outside {s n : State} (h : n.outside = s.outside) (p : Nat) : n.stepping p = s.stepping p := by
  rw [State.stepping, State.part_of_outside h, State.stepping]

theorem State.stepping_foldl {α : Type} {p : Nat} (f : State → α → State) (l : List α) (s : State)
    (h : ∀ s x, (f s x).stepping p = s.stepping p) : (l.foldl f s).stepping p = s.stepping p := by
  induction l generalizing s with
  | nil => rfl
  | cons x l ih => exact (ih _).trans (h s x)

theorem State.stepping_modSrv (s : State) (p : Nat) {f : Serving → Serving}
    (hstep : ∀ v, (f v).step = v.step := by exact fun _ => rfl)
    (hsteps : ∀ v, (f v).steps = v.steps := by exact fun _ => rfl) : (s.modSrv p f).stepping p = s.stepping p := by
  simp only [State.stepping, State.srv_modSrv, hstep, hsteps]

theorem State.stepping_modReq (s : State) (p i : Nat) (f : SrvReq → SrvReq) : (s.modReq p i f).stepping p = s.stepping p :=
  State.stepping_modSrv ..

theorem State.stepping_setReg (s : State) (a v p : Nat) : (s.setReg a v).stepping p = s.stepping p := rfl

theorem State.stepping_modJob (s : State) (p j : Nat) (f : Job → Job) : (s.modJob p j f).stepping p = s.stepping p := by
  simp [State.stepping, State.part_setJob]

theorem State.stepping_becomeReady (s : State) (p j : Nat) : (s.becomeReady p j).stepping p = s.stepping p := by
  unfold State.becomeReady
  split
  · exact State.stepping_modJob ..
  · dsimp only
    split <;> exact State.stepping_modJob ..

theorem State.stepping_writeTail (s : State) (p j : Nat) (tail : Word) : (s.writeTail p j tail).stepping p = s.stepping p := by
  unfold State.writeTail
  extract_lets a pend
  split
  · rfl
  · split
    · exact State.stepping_setReg ..
    · split
      · exact (State.stepping_becomeReady ..).trans (State.stepping_setReg ..)
      · exact State.stepping_setReg ..

theorem State.stepping_submitEntry (s : State) (p j m : Nat) : (s.submitEntry p j m).stepping p = s.stepping p :=
  (State.stepping_writeTail ..).trans (State.stepping_of_outside (State.storeRun_outside ..) p)

theorem State.stepping_beginChunk (s : State) (p i e : Nat) : (s.beginChunk p i e).stepping p = s.stepping p := by
  unfold State.beginChunk
  extract_lets target pos gen ntok written submitted tail begun
  have hbegun : begun.stepping p = s.stepping p :=
    calc begun.stepping p = submitted.stepping p := State.stepping_modSrv ..
      _ = written.stepping p := State.stepping_submitEntry ..
      _ = (s.writeStep p i e (if gen then 0 else 1) pos ntok).stepping p := State.stepping_modReq ..
      _ = s.stepping p := State.stepping_of_outside (State.writeStep_outside ..) p
  split
  · exact (State.stepping_of_outside (State.setReqState_outside ..) p).trans hbegun
  · exact hbegun

theorem State.stepping_beginChunks (s : State) (p n : Nat) (l : List (Nat × Nat)) :
    (s.beginChunks p n l).stepping p = s.stepping p := by
  induction n generalizing s l with
  | zero => rfl
  | succ n ih =>
    unfold State.beginChunks
    split
    · rfl
    · split
      · exact (ih ..).trans (State.stepping_beginChunk ..)
      · rfl

theorem State.stepping_promptPart (s : State) (p m : Nat) : (s.promptPart p m).stepping p = s.stepping p := by
  unfold State.promptPart
  split
  · rfl
  · exact (State.stepping_beginChunks ..).trans (State.stepping_of_outside (s.chunkReady_outside p m) p)

/-- A step begun is counted and is in progress for the requests given. -/
theorem State.stepping_beginStep (s : State) (p m : Nat) (reqs : List (Nat × Nat)) :
    ∃ tail, (s.beginStep p m reqs).stepping p = (some ⟨m, reqs.map (·.1), tail⟩, (s.part p).srv.steps + 1) := by
  unfold State.beginStep
  extract_lets written submitted tail
  have hwritten : written.stepping p = s.stepping p := State.stepping_foldl _ _ _ fun s x =>
    (State.stepping_modReq ..).trans (State.stepping_of_outside (State.writeStep_outside ..) p)
  have hsteps : (submitted.part p).srv.steps = (s.part p).srv.steps :=
    congrArg Prod.snd ((State.stepping_submitEntry ..).trans hwritten)
  exact ⟨tail, by rw [State.stepping, State.srv_modSrv, hsteps]⟩

end Sys2Proof.Machine
end

section
/-! The serving registers. A request admitted stays live while it is given what it starts with; a cancel that must wait joins the
list; a write of SRV_CTL leaves its fields, and ENABLE as the bases and the jobs allow. -/

namespace Sys2Proof.Machine

/-! ## Submission -/

/-- The live requests of a partition, by number. -/
def State.liveIds (s : State) (p : Nat) : List Nat := (s.part p).srv.reqs.map (·.req)

theorem State.liveIds_of_outside {s n : State} (h : n.outside = s.outside) (p : Nat) : n.liveIds p = s.liveIds p := by
  rw [State.liveIds, State.part_of_outside h, State.liveIds]

theorem State.liveIds_modReq (s : State) (p i : Nat) {f : SrvReq → SrvReq}
    (hf : ∀ r, (f r).req = r.req := by exact fun _ => rfl) : (s.modReq p i f).liveIds p = s.liveIds p := by
  simp only [State.liveIds, State.modReq, State.srv_modSrv, List.map_map]
  refine List.map_congr_left fun r _ => ?_
  simp only [Function.comp_apply]
  split
  · exact hf r
  · rfl

/-- What a request starts with is memory and what the sequencer keeps beside the entries: the same requests live. -/
theorem State.liveIds_startTokens (s : State) (p i e : Nat) : (s.startTokens p i e).1.liveIds p = s.liveIds p := by
  unfold State.startTokens
  split
  · split
    · rfl
    · dsimp only
      refine (State.liveIds_modReq ..).trans (State.liveIds_of_outside ?_ p)
      have hmatched : ((s.reqTables p e).1.matchBlocks p e (s.reqTables p e).2 (reqPromptLen e / 64) 0 (rootKey e)).1.outside
          = s.outside := (State.matchBlocks_outside ..).trans (State.reqTables_outside ..)
      split
      · exact hmatched
      · refine (foldl_outside _ _ _ fun s t => ?_).trans hmatched
        split
        · exact State.setTable_outside ..
        · rfl
  · split
    next h => exact State.liveIds_of_outside (outside_of_eq h (State.forkSource_outside ..)) p
    next t x h =>
      have ht : t.outside = s.outside := outside_of_eq h (State.forkSource_outside ..)
      dsimp only
      exact (State.liveIds_modReq ..).trans (State.liveIds_of_outside ((State.copyTokens_outside ..).trans
        ((State.forkTables_outside ..).trans ((State.reqTables_outside ..).trans ((State.reqTables_outside ..).trans ht)))) p)

/-- A request that is admitted is live. -/
theorem State.exists_req_admitReq (s : State) (p i e : Nat) : ∃ x ∈ ((s.admitReq p i e).part p).srv.reqs, x.req = i := by
  have hlive : i ∈ (s.admitReq p i e).liveIds p := by
    unfold State.admitReq
    dsimp only
    rw [State.liveIds_of_outside ((State.setReqState_outside ..).trans ((State.putReq_outside ..).trans
      ((State.putReq_outside ..).trans ((State.putReq_outside ..).trans (State.putReq_outside ..))))),
      State.liveIds_startTokens]
    simp [State.liveIds]
  exact List.mem_map.mp hlive

/-- A submission of a FREE entry is admitted or REFUSED. -/
theorem State.submit_eq {s : State} {p i e : Nat} (hserves : s.serves p = true) (hworking : s.working p = true)
    (hindex : i < s.reqCount p) (hread : ((s.servePools p).readReq p i).2 = some e) (hfree : reqState e = 0)
    (hlive : (((s.servePools p).readReq p i).1.srvReq p i).isNone = true) :
    s.submit p i = if (((s.servePools p).readReq p i).1.submitOk p e).2
      then (((s.servePools p).readReq p i).1.submitOk p e).1.admitReq p i e
      else (((s.servePools p).readReq p i).1.submitOk p e).1.setDone p i .refused := by
  simp only [State.submit, hserves, hworking, hindex, Bool.and_self, decide_true, if_true]
  generalize (s.servePools p).readReq p i = q at hread hlive ⊢
  obtain ⟨t, x⟩ := q
  subst hread
  have hnone : (t.srvReq p i).isSome = false := by simpa using hlive
  simp only [hfree, hnone, ne_eq, not_true_eq_false, decide_false, Bool.or_self, Bool.false_eq_true, if_false]
  rcases t.submitOk p e with ⟨u, _ | _⟩ <;> rfl

/-! ## Cancellation (R259) -/

/-- A cancel of a request that holds nothing takes effect at once. -/
theorem State.cancel_of_bare {s : State} {p i : Nat} (hworking : s.working p = true) (hlive : (s.srvReq p i).isSome = true)
    (hbare : (s.bare p i).2 = true) : s.cancel p i = (s.bare p i).1.cancelNow p i := by
  simp only [State.cancel, hworking, hlive, Bool.and_self, if_true]
  generalize s.bare p i = q at hbare ⊢
  obtain ⟨t, x⟩ := q
  subst hbare
  rfl

/-- A cancel of a request that holds something waits for the end of the step in progress. -/
theorem State.cancels_cancel {s : State} {p i : Nat} (hworking : s.working p = true) (hlive : (s.srvReq p i).isSome = true)
    (hbare : (s.bare p i).2 = false) (hstep : (s.part p).srv.step.isSome = true) :
    ((s.cancel p i).part p).srv.cancels = (s.part p).srv.cancels ++ [i] := by
  have hpart : (s.bare p i).1.part p = s.part p := State.part_of_outside (State.bare_outside ..) p
  simp only [State.cancel, hworking, hlive, Bool.and_self, if_true]
  generalize s.bare p i = q at hbare hpart ⊢
  obtain ⟨t, x⟩ := q
  subst hbare
  dsimp only at hpart ⊢
  rw [if_neg (by simpa [hpart] using Option.isSome_iff_ne_none.mp hstep), State.srv_modSrv, hpart]

/-- A DONE entry released is FREE. -/
theorem State.releaseEntry_done {s : State} {p i e : Nat} (hindex : i < s.reqCount p) (hclock : s.stopped = false)
    (hread : (s.readReq p i).2 = some e) (hdone : reqState e = 5) :
    s.releaseEntry p i = (s.readReq p i).1.putReq p i 0 1 0 := by
  simp only [State.releaseEntry, hindex, hclock, decide_true, Bool.not_false, Bool.and_self, if_true]
  generalize s.readReq p i = q at hread ⊢
  obtain ⟨t, x⟩ := q
  subst hread
  exact if_pos hdone

/-! ## SRV_CTL (R261) -/

/-- What a write of SRV_CTL leaves of its fields but ENABLE: PCHUNK as written, and while nothing is served the rest too. -/
def State.ctlFields (s : State) (p v : Nat) : State :=
  let a := partBase p + Off.srvCtl
  let s' := s.setRegField a 16 16 (field v 16 16)
  if s.serves p then s' else s'.setRegField a 4 12 (field v 4 12)

theorem State.regField_ctlFields (s : State) (p v : Nat) :
    (s.ctlFields p v).regField (partBase p + Off.srvCtl) 16 16 = field v 16 16 := by
  have hfield : field v 16 16 % 2 ^ 16 = field v 16 16 := Nat.mod_mod ..
  unfold State.ctlFields
  dsimp only
  split
  · rw [State.setRegField_eq, State.regField_setReg, if_pos rfl, field_putField, hfield]
  · rw [State.setRegField_eq, State.regField_setReg, if_pos rfl, field_putField_apart _ _ _ _ _ _ (by decide),
      State.setRegField_eq, State.reg_setReg, if_pos rfl, field_putField, hfield]

theorem State.regField_setRegBit_apart (s : State) {a b lo n i : Nat} (x : Bool) (h : b ≠ a ∨ lo + n ≤ i ∨ i + 1 ≤ lo) :
    (s.setRegBit a i x).regField b lo n = s.regField b lo n := by
  rw [State.setRegBit_eq, State.regField_setReg]
  split
  next hab =>
    subst hab
    exact field_putField_apart _ _ _ _ _ _ (h.resolve_left (· rfl))
  next => rfl

theorem State.serves_setRegBit (s : State) (p : Nat) (b : Bool) :
    (s.setRegBit (partBase p + Off.srvCtl) 0 b).serves p = b := by
  cases b <;> simp [State.serves, State.regBit_setReg, b2n]

/-- A write of SRV_CTL with ENABLE 0 and no flush stops serving. -/
theorem State.writeSrvCtl_off (s : State) (p : Nat) {v : Nat} (hflush : nbit v 3 = false) (hoff : nbit v 0 = false) :
    s.writeSrvCtl p v = (s.ctlFields p v).setRegBit (partBase p + Off.srvCtl) 0 false := by
  simp only [State.writeSrvCtl, hflush, hoff, Bool.false_and, Bool.not_false, if_true, Bool.false_eq_true, if_false]
  rfl

theorem State.writeSrvCtl_running (s : State) (p : Nat) {v : Nat} (hflush : nbit v 3 = false) (hon : nbit v 0 = true)
    (hserves : s.serves p = true) : s.writeSrvCtl p v = s.ctlFields p v := by
  simp only [State.writeSrvCtl, hflush, hon, hserves, State.ctlFields, Bool.false_and, Bool.not_true, if_true,
    Bool.false_eq_true, if_false]

/-- Registers after a fold whose steps leave them. -/
theorem foldl_reg {α : Type} (f : State → α → State) (l : List α) (s : State) (a : Nat)
    (h : ∀ s x, (f s x).reg a = s.reg a) : (l.foldl f s).reg a = s.reg a := by
  induction l generalizing s with
  | nil => rfl
  | cons x l ih => exact (ih _).trans (h s x)

/-- Where the bases and the jobs allow it, serving starts with the registers as the fields were written. -/
theorem State.writeSrvCtl_start (s : State) (p : Nat) {v : Nat} (hflush : nbit v 3 = false) (hon : nbit v 0 = true)
    (hserves : s.serves p = false)
    (hok : ((s.ctlFields p v).srvBasesOk p && !(s.ctlFields p v).rivalBlocked p (field v 4 6)) = true) :
    ∃ t : State, (∀ a, t.reg a = (s.ctlFields p v).reg a) ∧
      s.writeSrvCtl p v = t.setRegBit (partBase p + Off.srvCtl) 0 true := by
  simp only [State.ctlFields, hserves, Bool.false_eq_true, if_false] at hok ⊢
  simp only [State.writeSrvCtl, hflush, hon, hserves, hok, Bool.false_and, Bool.not_true, if_true, Bool.false_eq_true, if_false]
  refine ⟨_, fun a => foldl_reg _ _ _ _ fun s t => ?_, rfl⟩
  split
  next h => exact State.reg_of_outside (outside_of_eq h (State.srvPool_outside ..)) a
  next h => exact State.reg_of_outside (outside_of_eq h (State.srvPool_outside ..)) a

/-- Where they do not, CFG_ERR is set. -/
theorem State.writeSrvCtl_refused (s : State) (p : Nat) {v : Nat} (hflush : nbit v 3 = false) (hon : nbit v 0 = true)
    (hserves : s.serves p = false)
    (hok : ((s.ctlFields p v).srvBasesOk p && !(s.ctlFields p v).rivalBlocked p (field v 4 6)) = false) :
    s.writeSrvCtl p v = (s.ctlFields p v).setRegBit (partBase p + Off.srvStat) 0 true := by
  simp only [State.ctlFields, hserves, Bool.false_eq_true, if_false] at hok ⊢
  simp only [State.writeSrvCtl, hflush, hon, hserves, hok, Bool.false_and, Bool.not_true, Bool.false_eq_true, if_false]

/-- Every write of SRV_CTL without a flush keeps PCHUNK as written. -/
theorem State.regField_writeSrvCtl (s : State) (p : Nat) {v : Nat} (hflush : nbit v 3 = false) :
    (s.writeSrvCtl p v).regField (partBase p + Off.srvCtl) 16 16 = field v 16 16 := by
  cases hon : nbit v 0 with
  | false =>
    rw [s.writeSrvCtl_off p hflush hon, State.regField_setRegBit_apart _ _ (.inr (by decide)), State.regField_ctlFields]
  | true =>
    cases hserves : s.serves p with
    | true => rw [s.writeSrvCtl_running p hflush hon hserves, State.regField_ctlFields]
    | false =>
      cases hok : (s.ctlFields p v).srvBasesOk p && !(s.ctlFields p v).rivalBlocked p (field v 4 6) with
      | true =>
        obtain ⟨t, ht, hw⟩ := s.writeSrvCtl_start p hflush hon hserves hok
        rw [hw, State.regField_setRegBit_apart _ _ (.inr (by decide)), State.regField, ht, ← State.regField,
          State.regField_ctlFields]
      | false =>
        rw [s.writeSrvCtl_refused p hflush hon hserves hok, State.regField_setRegBit_apart _ _ (.inl ?_),
          State.regField_ctlFields]
        simp [Off.srvCtl, Off.srvStat]

/-! ## The serving registers -/

theorem putField_mod (x lo n v : Nat) : putField x lo n (v % 2 ^ n) = putField x lo n v := by
  rw [putField, putField, Nat.mod_mod]

/-- Settles O39: each register's write is its operation, and SRV_CTL's by the four cases of ENABLE. -/
theorem servingRegisters : Obligations.ServingRegisters := by
  unfold Obligations.ServingRegisters
  intro s p e i value
  have hpchunk : field value.toNat 16 16 = value.toNat / 65536 := by
    have := value.isLt
    rw [field, Nat.shiftRight_eq_div_pow]
    omega
  refine ⟨?submit, fun htakes hworking hlive => ⟨fun hbare hstep => ?wait, fun hbare => ?now⟩, ?release, ?ctl, ?flush⟩
  case submit =>
    intro htakes hserves hworking hindex q hread hfree hlive r
    have hsubmit := State.submit_eq hserves hworking hindex hread hfree hlive
    refine ⟨s.submit p i.toNat, State.done_onWrite htakes _, fun hr => ?_, fun hr => ?_⟩
    · rw [hsubmit.trans (if_pos hr)]
      exact State.exists_req_admitReq ..
    · exact hsubmit.trans (if_neg (ne_true_of_eq_false hr))
  case wait => exact ⟨_, State.done_onWrite htakes _, State.cancels_cancel hworking hlive hbare hstep⟩
  case now => exact (State.done_onWrite htakes _).trans (congrArg _ (State.cancel_of_bare hworking hlive hbare))
  case release =>
    intro htakes hindex hclock hread hdone
    exact (State.done_onWrite htakes _).trans (congrArg _ (State.releaseEntry_done hindex hclock hread hdone))
  case ctl =>
    intro htakes hflush
    refine ⟨_, State.done_onWrite htakes _, (s.regField_writeSrvCtl p hflush).trans hpchunk, fun hoff => ?_, ?_⟩
    · rw [s.writeSrvCtl_off p hflush hoff, State.serves_setRegBit]
    · intro hon hserves a q hok
      have hq : q = s.ctlFields p value.toNat := by
        have hlow : field value.toNat 4 12 = value.toNat / 16 % 2 ^ 12 := by rw [field, Nat.shiftRight_eq_div_pow]
        simp only [State.ctlFields, hserves, Bool.false_eq_true, if_false, hpchunk, hlow, State.setRegField_eq, putField_mod]
        rfl
      have hgen : value.toNat / 16 % 64 = field value.toNat 4 6 := by
        rw [field, Nat.shiftRight_eq_div_pow]
        rfl
      rw [hq, hgen] at hok
      obtain ⟨t, -, ht⟩ := s.writeSrvCtl_start p hflush hon hserves hok
      rw [ht, State.serves_setRegBit]
  case flush =>
    intro htakes hclock
    exact (State.done_onWrite htakes _).trans (congrArg _ (if_neg (ne_true_of_eq_false hclock)))

end Sys2Proof.Machine
end

section
/-! The serving steps. What a step, a result, a chunk or a held entry begins or ends is settled by one change of the sequencer's state;
what runs after it leaves that in place. -/

namespace Sys2Proof.Machine

/-- The generation part begins a step for the requests that are ready, where the generation ring takes its job. -/
theorem State.genPart_begins {s t : State} {p m : Nat} {reqs : List (Nat × Nat)} (hidle : (s.part p).srv.step = none)
    (hready : (s.evictAt p m).stepReady p m = (t, reqs)) (hsome : reqs ≠ []) (htakes : t.ringTakes p (t.genRing p) = true) :
    s.genPart p m = t.beginStep p m reqs := by
  unfold State.genPart
  rw [if_neg (by simp [hidle])]
  dsimp only
  rw [hready]
  exact if_pos (by simp [hsome, htakes])

/-- The step that SERVING_STEP begins is counted, and its prompt chunks leave it in progress. -/
theorem servingStep_begins {s t : State} {p m : Nat} {reqs : List (Nat × Nat)} (hserves : s.serves p = true)
    (hworking : s.working p = true) (hhold : (s.part p).ucodeHold = false)
    (hidle : ((s.servePools p).part p).srv.step = none) (hready : ((s.servePools p).evictAt p m).stepReady p m = (t, reqs))
    (hsome : reqs ≠ []) (htakes : t.ringTakes p (t.genRing p) = true) :
    ∃ n, execServingStep p m s = .next n ∧ (n.part p).srv.steps = (t.part p).srv.steps + 1 ∧
      ∃ x, (n.part p).srv.step = some x ∧ x.model = m ∧ x.reqs = reqs.map (·.1) := by
  obtain ⟨tail, hbegun⟩ := t.stepping_beginStep p m reqs
  have hstepping := (State.stepping_promptPart _ p m).trans hbegun
  simp only [State.stepping, Prod.mk.injEq] at hstepping
  obtain ⟨hstep, hsteps⟩ := hstepping
  refine ⟨(t.beginStep p m reqs).promptPart p m, ?_, hsteps, _, hstep, rfl, rfl⟩
  unfold execServingStep
  rw [if_pos (by simp [hserves, hworking, hhold]), State.genPart_begins hidle hready hsome htakes, done]

/-- STEP_RESULT ends the step; the cancels and evictions of the boundary begin none. -/
theorem stepResult_ends {s : State} {p : Nat} {st : SrvStep} (hruns : s.runs = true) (hworking : s.working p = true)
    (hstep : (s.part p).srv.step = some st) (hover : s.entryOver p (s.genRing p) st.tail = true) :
    ∃ n, execStepResult p s = .next n ∧ (n.part p).srv.step = none := by
  simp only [execStepResult, hruns, hstep, hworking, hover, Bool.not_true, Bool.false_eq_true, if_false, Bool.and_self,
    if_true]
  refine ⟨_, rfl, (State.InProgress.evictAt (State.InProgress.applyCancels (ok := fun _ => True) ?_) _).1⟩
  simp [State.InProgress]

/-- PROMPT_CHUNK_DONE ends the chunk; the cancels and evictions of the boundary begin none. -/
theorem promptChunkDone_ends {s t : State} {p i e : Nat} {c : SrvChunk} (hruns : s.runs = true)
    (hworking : s.working p = true)
    (hchunk : (s.part p).srv.chunks.find? (fun c => decide (c.req = i)) = some c)
    (hover : s.entryOver p (s.promptRing p) c.tail = true) (hread : (s.servePools p).readReq p i = (t, some e))
    {r : State × Option (Nat × List (Nat × Nat))} (hr : (t.noteStep p i e (t.promptRing p) c.tail).readStep p i e = r)
    (hroom : c.cut = true ∨ r.1.chunkRows p c e r.2 ≤ ringRoom e) :
    ∃ n, execPromptChunkDone p i s = .next n ∧ ∀ x ∈ (n.part p).srv.chunks, x.req ≠ i := by
  have hreq : c.req = i := by simpa using List.find?_some hchunk
  have hended := r.1.inProgress_endChunk p c e r.2
  rw [hreq] at hended
  have hfits : ¬(!c.cut && decide (ringRoom e < r.1.chunkRows p c e r.2)) = true := by
    rcases hroom with h | h
    · simp [h]
    · simp [Nat.not_lt.mpr h]
  simp only [execPromptChunkDone, hruns, hchunk, hworking, hover, hread, hr, hfits, Bool.not_true, Bool.false_eq_true, if_false,
    Bool.and_self, if_true]
  split
  · exact ⟨_, rfl, hended.2⟩
  · exact ⟨_, rfl, (hended.applyCancels.evictAt _).2⟩

/-- A held LAST entry that is written is held no longer. -/
theorem lastEntryWrite_releases {s t : State} {p i e : Nat} {h : HeldLast} (hworking : s.working p = true)
    (hheld : (s.part p).srv.held.find? (fun h => decide (h.req = i)) = some h) (hread : s.readReq p i = (t, some e))
    (hroom : 1 ≤ ringRoom e) :
    ∃ n, execLastEntryWrite p i s = .next n ∧ ∀ x ∈ (n.part p).srv.held, x.req ≠ i := by
  simp only [execLastEntryWrite, hheld, hread, hworking, hroom, decide_true, Bool.and_self, if_true]
  refine ⟨_, rfl, ?_⟩
  rw [State.part_of_outside ((State.setDone_outside ..).trans (State.pushStream_outside ..)), State.srv_modSrv]
  simp

/-- Settles O40: the change that each command is named for stands in its next state, since the prompt chunks, cancels and evictions
that follow it leave the step in progress as it is and add no chunk. -/
theorem servingSteps : Obligations.ServingSteps := by
  unfold Obligations.ServingSteps
  intro s p m i e c st h hworking
  refine ⟨?begins, fun hruns hstep hover => stepResult_ends hruns hworking hstep hover, ?chunk, ?held⟩
  case begins =>
    intro hserves hhold hidle q hready htakes
    exact servingStep_begins hserves hworking hhold hidle Prod.mk.eta.symm hready htakes
  case chunk =>
    intro hruns hchunk hover q hread r hroom
    exact promptChunkDone_ends hruns hworking hchunk hover (Prod.ext rfl hread) rfl hroom
  case held =>
    intro hheld hread hroom
    exact lastEntryWrite_releases hworking hheld (Prod.ext rfl hread) hroom

end Sys2Proof.Machine
end

section
/-! Semaphores granted. A grant changes one word and one order of its partition, and completes one operation of the core that waited. -/

namespace Sys2Proof.Machine

/-! ## Semaphore words (Table 08-6) -/

/-- A word keeps the fields of a number that lie within it. -/
theorem field_toNat_ofNat {lo n : Nat} (h : lo + n ≤ 32) (x : Nat) : field (BitVec.ofNat 32 x).toNat lo n = field x lo n := by
  apply Nat.eq_of_testBit_eq
  intro i
  rw [testBit_field, testBit_field, BitVec.toNat_ofNat, Nat.testBit_mod_two_pow]
  by_cases hi : i < n
  · simp [show lo + i < 32 by omega]
  · simp [hi]

theorem semValue_semPut (w : Word) (value holder : Nat) : semValue (semPut w value holder) = value % 2 ^ 16 := by
  rw [semValue, semPut, field_toNat_ofNat (by decide), field_putField_apart _ _ _ _ _ _ (by decide), field_putField]

theorem semHolder_semPut (w : Word) (value holder : Nat) : semHolder (semPut w value holder) = holder % 2 ^ 8 := by
  rw [semHolder, semPut, field_toNat_ofNat (by decide), field_putField]

/-- A LOCK semaphore granted to a job is held by it (R280). -/
theorem semGrant_lock {w : Word} (hlock : semLock w = true) (j : Nat) :
    semValue (semGrant w j) = 0 ∧ semHolder (semGrant w j) = j % 256 := by
  rw [semGrant, if_pos hlock]
  exact ⟨semValue_semPut .., semHolder_semPut ..⟩

/-- A COUNT semaphore that is free gives one of its count (R280). -/
theorem semGrant_count {w : Word} (hcount : semLock w = false) (hfree : semFree w = true) (j : Nat) :
    semValue (semGrant w j) + 1 = semValue w := by
  have hsome : semValue w ≠ 0 := by simpa [semFree, hcount] using hfree
  have hlt : semValue w < 2 ^ 16 := Nat.mod_lt _ (by decide)
  rw [semGrant, if_neg (ne_true_of_eq_false hcount), semValue_semPut, Nat.mod_eq_of_lt (by omega)]
  omega

/-! ## SEMACQ_GRANT (R281) -/

/-- A SEMACQ of a semaphore. -/
def isSemacq (sem : Nat) (x : InFlight) : Bool :=
  match x.op with
  | .semacq n _ => decide (n = sem)
  | _ => false

/-- A semaphore granted to the task of a core that waits: the wait leaves the order, and the operation at `i` completes. -/
def State.granted (s : State) (p sem core i : Nat) (t : Task) : State :=
  let s := s.setSem p sem (semGrant (s.sem p sem) t.job)
  let s := s.modPart p fun d => { d with semWait := d.semWait.erase (sem, core) }
  s.modCore core fun c => c.complete i

theorem State.sem_granted (s : State) (p sem core i : Nat) (t : Task) :
    (s.granted p sem core i t).sem p sem = semGrant (s.sem p sem) t.job := by
  simp [State.granted, State.setSem, State.sem]

theorem State.semWait_granted (s : State) (p sem core i : Nat) (t : Task) :
    ((s.granted p sem core i t).part p).semWait = (s.part p).semWait.erase (sem, core) := by
  simp [State.granted, State.setSem]

theorem State.core_granted (s : State) (p sem core i : Nat) (t : Task) :
    (s.granted p sem core i t).core core = (s.core core).complete i := by
  simp [State.granted, State.setSem]

/-- The first wait on a free semaphore is granted. -/
theorem execSemacqGrant_first {s : State} {p sem core i : Nat} {t : Task} (hruns : s.runs = true)
    (hfirst : s.firstWait p sem = some (sem, core)) (htask : (s.core core).task = some t) (hfree : semFree (s.sem p sem) = true)
    (hindex : (s.core core).inflight.findIdx? (isSemacq sem) = some i) :
    execSemacqGrant p sem s = .next (s.granted p sem core i t) := by
  simp only [execSemacqGrant, hruns, Bool.not_true, Bool.false_eq_true, if_false, hfirst, htask, hfree, if_true]
  refine congrArg (fun c => done (State.setCore _ core c)) ?_
  dsimp only
  split
  next k hk =>
    cases hindex.symm.trans hk
    rfl
  next hnone => cases hindex.symm.trans hnone

/-- Settles O20: the grant is made by the word's mode (`semGrant_lock`, `semGrant_count`), the wait that ends was one of the order,
and the operation that completes is the core's SEMACQ. -/
theorem semaphoreGranted : Obligations.SemaphoreGranted := by
  unfold Obligations.SemaphoreGranted
  intro s p sem core i fl scope stamp t ph hruns hfl hfirst htask hfree hindex hop
  have hwaits : (sem, core) ∈ (s.part p).semWait := List.mem_of_find?_eq_some hfirst
  refine ⟨_, execSemacqGrant_first hruns hfirst htask hfree hindex, ?_⟩
  rw [State.sem_granted, State.semWait_granted, State.core_granted, Core.inflight_complete]
  exact ⟨fun hlock => semGrant_lock hlock _, fun hcount => semGrant_count hcount hfree _,
    Core.flag_complete _ _ _ _ hop rfl hfl, rfl, List.length_erase_add_one hwaits⟩

end Sys2Proof.Machine
end

section
/-! The dispatcher's jobs. What the operations on jobs, cores and channels leave of each job, and the standing of jobs as a function of
the jobs and the registers alone. -/

namespace Sys2Proof.Machine

set_option Elab.async false

/-! ## What a fold keeps -/

theorem foldl_keeps {α β : Type} (g : State → β) {f : State → α → State} (h : ∀ s x, g (f s x) = g s) (l : List α) (s : State) :
    g (l.foldl f s) = g s :=
  List.foldlRecOn l f (motive := fun t => g t = g s) rfl fun t ht x _ => (h t x).trans ht

/-! ## Jobs after each operation -/

theorem State.job_of_parts {s n : State} (h : n.parts = s.parts) (p j : Nat) : n.job p j = s.job p j := by
  unfold State.job State.part
  rw [h]

theorem State.job_of_outside {s n : State} (h : n.outside = s.outside) (p j : Nat) : n.job p j = s.job p j :=
  congrArg (State.job · p j) (a₁ := n.outside) (a₂ := s.outside) h

/-- What a change of one job keeps, it keeps of every job. -/
theorem State.job_modJob_keeps {β : Type} (g : Job → β) (s : State) (p j q k : Nat) {f : Job → Job} (h : ∀ b, g (f b) = g b) :
    g ((s.modJob p j f).job q k) = g (s.job q k) := by
  rw [State.modJob_eq, State.job_setJob]
  split
  next heq =>
    obtain ⟨rfl, rfl⟩ := heq
    exact h _
  next => rfl

theorem State.job_releaseLocks (s : State) (p j q k : Nat) : (s.releaseLocks p j).job q k = s.job q k := by
  simp only [State.releaseLocks, State.modPart_eq, State.job, State.part_setPart]
  split
  next heq =>
    subst heq
    rfl
  next => rfl

theorem State.job_clearJob_self (s : State) (p j : Nat) (st : JobState) :
    ((s.clearJob p j st).job p j).state = st ∧ ((s.clearJob p j st).job p j).saved = [] := by
  simp [State.clearJob, State.job_releaseLocks]

theorem State.parts_pauseChannels (s : State) : s.pauseChannels.parts = s.parts :=
  foldl_keeps State.parts (fun _ _ => foldl_keeps State.parts (fun _ _ => by dsimp only; split <;> rfl) _ _) _ _

theorem State.parts_resumeChannels (s : State) : s.resumeChannels.parts = s.parts :=
  foldl_keeps State.parts (fun _ _ => foldl_keeps State.parts (fun _ _ => by dsimp only; split <;> rfl) _ _) _ _

theorem State.parts_foldl_modCore (f : Core → Core) (l : List Nat) (s : State) :
    (l.foldl (fun s c => s.modCore c f) s).parts = s.parts := foldl_keeps State.parts (f := fun s c => s.modCore c f) (fun _ _ => rfl) _ _

/-- The beginning of a pre-emption changes nothing of any job but that it is under way, and since when. -/
theorem State.job_beginPreempt (s : State) (p j q k : Nat) : (s.beginPreempt p j).job q k =
    if q = p ∧ k = j then { s.job p j with preempting := true, sliceEnd := s.sliceCycles p j } else s.job q k := by
  unfold State.beginPreempt
  dsimp only
  rw [State.job_of_parts (State.parts_pauseChannels _),
    State.job_of_parts (State.parts_foldl_modCore ..), State.modJob_eq, State.job_setJob]

/-- A job gives up its cores only while it is resident, has no context area and no command in progress. -/
theorem State.yieldCores_eq (s : State) (p j : Nat) : s.yieldCores p j = s ∨
    ((s.job p j).state = .resident ∧ s.ctxBase p j = 0 ∧ (s.job p j).cmd = none ∧
      s.yieldCores p j = s.modJob p j fun b => { b with state := .ready, overrun := 0 }) := by
  unfold State.yieldCores
  dsimp only
  split
  next h =>
    simp only [Bool.and_eq_true, decide_eq_true_eq, Option.isNone_iff_eq_none] at h
    obtain ⟨⟨⟨hstate, hctx⟩, hcmd⟩, -⟩ := h
    exact .inr ⟨hstate, hctx, hcmd, rfl⟩
  next => exact .inl rfl

/-- A job that becomes ready keeps all but its state and its virtual time. -/
theorem State.job_becomeReady (s : State) (p j : Nat) :
    ((s.becomeReady p j).job p j).state = .ready ∧ ((s.becomeReady p j).job p j).cmd = (s.job p j).cmd := by
  unfold State.becomeReady
  split
  · simp
  · dsimp only
    split <;> simp

/-! ## The command in progress -/

theorem State.cmd_beginPreempt (s : State) (p j q k : Nat) : ((s.beginPreempt p j).job q k).cmd = (s.job q k).cmd := by
  rw [State.job_beginPreempt]
  split
  next heq =>
    obtain ⟨rfl, rfl⟩ := heq
    rfl
  next => rfl

theorem State.cmd_yieldCores (s : State) (p j q k : Nat) : ((s.yieldCores p j).job q k).cmd = (s.job q k).cmd := by
  rcases s.yieldCores_eq p j with h | ⟨-, -, -, h⟩
  · rw [h]
  · rw [h]
    exact State.job_modJob_keeps Job.cmd _ _ _ _ _ fun _ => rfl

theorem State.cmd_endDonation (s : State) (p j q k : Nat) (sem : Option Nat) :
    ((s.endDonation p j sem).job q k).cmd = (s.job q k).cmd := by
  have hended := State.job_modJob_keeps Job.cmd s p j q k (f := fun b => { b with donated := false, donor := none }) fun _ => rfl
  unfold State.endDonation
  split
  · split
    · dsimp only
      split
      · exact (State.cmd_beginPreempt ..).trans hended
      · exact (State.cmd_yieldCores ..).trans hended
    · rfl
  · rfl

theorem State.cmd_afterCommand (s : State) (p j : Nat) : ((s.afterCommand p j).job p j).cmd = (s.job p j).cmd := by
  have hended := s.cmd_endDonation p j p j none
  unfold State.afterCommand
  generalize s.endDonation p j none = t at hended ⊢
  rw [← hended]
  dsimp only
  split
  · exact State.job_modJob_keeps Job.cmd _ _ _ _ _ fun _ => rfl
  · split
    · exact (State.job_becomeReady ..).2
    · exact State.cmd_yieldCores ..

/-- A command that ends is in progress no longer. -/
theorem State.cmd_endCommand (s : State) (p j : Nat) (st : Status) (late : Bool) :
    ((s.endCommand p j st late).job p j).cmd = none := by
  unfold State.endCommand
  split
  next h => exact h
  next c _ =>
    dsimp only
    split
    · rw [State.job_of_parts (s := State.modJob _ p j _) (by obtain ⟨l, h⟩ := State.signalPart_frame _ p _; rw [h])]
      simp
    · simp

theorem State.cmd_failCommand (s : State) (p j : Nat) (st : Status) : ((s.failCommand p j st).job p j).cmd = none :=
  (State.cmd_afterCommand ..).trans (State.cmd_endCommand ..)

/-! ## Standing (R306) -/

section
variable {s n : State}

section
variable (hreg : n.reg = s.reg)
include hreg

theorem State.regBit_congr : n.regBit = s.regBit := by unfold State.regBit; rw [hreg]

theorem State.regField_congr : n.regField = s.regField := by unfold State.regField; rw [hreg]

theorem State.shares_congr : n.shares = s.shares := by unfold State.shares; rw [State.regField_congr hreg]

theorem State.genRing_congr : n.genRing = s.genRing := by unfold State.genRing; rw [State.regField_congr hreg]

theorem State.serves_congr : n.serves = s.serves := by unfold State.serves; rw [State.regBit_congr hreg]

theorem State.ownUrgent_congr : n.ownUrgent = s.ownUrgent := by
  unfold State.ownUrgent
  rw [State.regBit_congr hreg, State.serves_congr hreg, State.genRing_congr hreg]

theorem State.rivals_congr : n.rivals = s.rivals := by unfold State.rivals State.coreWord; rw [hreg]

theorem State.ctxBase_congr : n.ctxBase = s.ctxBase := by unfold State.ctxBase; rw [hreg]

theorem State.pendingEntries_congr : n.pendingEntries = s.pendingEntries := by unfold State.pendingEntries; rw [hreg]

end

variable (hjob : n.job = s.job)
include hjob

theorem State.standsFor_congr : n.standsFor = s.standsFor := by
  funext p i j
  induction i generalizing j with
  | zero => rfl
  | succ i ih => simp only [State.standsFor, hjob, ih]

theorem State.standDepth_congr : n.standDepth = s.standDepth := by
  funext p i j
  induction i generalizing j with
  | zero => rfl
  | succ i ih => simp only [State.standDepth, hjob, ih]

variable (hreg : n.reg = s.reg)
include hreg

theorem State.ownTime_congr : n.ownTime = s.ownTime := by unfold State.ownTime; rw [hjob, State.shares_congr hreg]

theorem State.isReady_congr : n.isReady = s.isReady := by unfold State.isReady; rw [hjob, State.pendingEntries_congr hreg]

theorem State.before_congr : n.before = s.before := by
  unfold State.before
  rw [State.standsFor_congr hjob, State.standDepth_congr hjob, State.shares_congr hreg, State.ownUrgent_congr hreg,
    State.ownTime_congr hjob hreg]

theorem State.betterWaits_congr : n.betterWaits = s.betterWaits := by
  unfold State.betterWaits
  rw [State.rivals_congr hreg, State.isReady_congr hjob hreg, State.before_congr hjob hreg, hjob]

theorem State.preemptible_congr : n.preemptible = s.preemptible := by
  unfold State.preemptible
  rw [hjob, State.ctxBase_congr hreg]

end

theorem State.preemptible_iff (s : State) (p j : Nat) : s.preemptible p j = true ↔
    (s.job p j).state = .resident ∧ (s.job p j).preempting = false ∧ s.ctxBase p j ≠ 0 := by
  simp [State.preemptible, and_assoc]

end Sys2Proof.Machine
end

section
/-! Residency, slices, kills, donations and model loads. Each command ends in one change of its job, which what runs after it
leaves in place. -/

namespace Sys2Proof.Machine

set_option Elab.async false

/-! ## Residency (R308, R311) -/

/-- A job that may have its cores, and whose contexts are restored, is resident. -/
theorem execJobResident_restored {s : State} {p j : Nat} (hmay : s.mayReside p j = true)
    (hload : ((s.wakeJob p j).loadCores p j (s.job p j).saved).2 = none) :
    ∃ n, execJobResident p j s = .next n ∧ (n.job p j).state = .resident ∧ (n.job p j).preempting = false ∧
      (n.job p j).saved = [] := by
  have hwake : (s.wakeJob p j).outside = s.outside :=
    foldl_outside _ _ _ fun s g => by split; exacts [State.wake_outside .., rfl]
  rcases hr : (s.wakeJob p j).loadCores p j (s.job p j).saved with ⟨t, failure⟩
  rw [hr] at hload
  cases hload
  simp only [execJobResident, hmay, State.job_of_outside hwake, hr, if_true]
  refine ⟨_, rfl, ?_⟩
  rw [State.job_of_parts (State.parts_resumeChannels _)]
  simp

/-! ## The end of a slice (R309) -/

/-- A job that runs with its own standing has no donation to end. -/
theorem State.job_endsNoDonation {s : State} {p j : Nat} (hdonor : (s.job p j).donor = none)
    (hdonated : (s.job p j).donated = false) :
    (s.modJob p j fun b => { b with donated := false, donor := none }).job = s.job := by
  have hsame : { s.job p j with donated := false, donor := none } = s.job p j := by rw [← hdonor, ← hdonated]
  funext q k
  rw [State.modJob_eq, State.job_setJob, hsame]
  split
  next heq =>
    obtain ⟨rfl, rfl⟩ := heq
    rfl
  next => rfl

/-- What the end of a slice comes to for a job with its own standing. -/
theorem State.endSlice_eq {s : State} {p j : Nat} (hdonor : (s.job p j).donor = none) (hdonated : (s.job p j).donated = false) :
    ∃ t : State, t.job = s.job ∧ t.reg = s.reg ∧ t.sliceCycles p j = s.sliceCycles p j ∧ s.endSlice p j =
      if s.preemptible p j && (s.betterWaits p j || s.coreWanted p j) then t.beginPreempt p j
      else (t.modJob p j fun b => { b with sliceStart := s.sliceCycles p j, overrun := 0 }).yieldCores p j := by
  have hjob := State.job_endsNoDonation hdonor hdonated
  refine ⟨_, hjob, rfl, rfl, ?_⟩
  rw [← State.preemptible_congr hjob rfl, ← State.betterWaits_congr hjob rfl]
  rfl

/-- A slice that ends while a rival of better standing waits begins the pre-emption. -/
theorem State.endSlice_preempts {s : State} {p j : Nat} (hdonor : (s.job p j).donor = none)
    (hdonated : (s.job p j).donated = false) (hmay : s.preemptible p j = true) (hbetter : s.betterWaits p j = true) :
    ((s.endSlice p j).job p j).preempting = true ∧ ((s.endSlice p j).job p j).sliceEnd = s.sliceCycles p j := by
  obtain ⟨t, -, -, hcycles, hend⟩ := State.endSlice_eq hdonor hdonated
  rw [hend, hmay, hbetter, Bool.true_or, Bool.and_self, if_pos rfl, State.job_beginPreempt, if_pos ⟨rfl, rfl⟩]
  exact ⟨rfl, hcycles⟩

/-- A slice that ends with no rival to pre-empt the job, or where none may, starts again. -/
theorem State.endSlice_renews {s : State} {p j : Nat} (hdonor : (s.job p j).donor = none)
    (hdonated : (s.job p j).donated = false) (hresident : (s.job p j).state = .resident)
    (hpreempting : (s.job p j).preempting = false)
    (hstays : (s.preemptible p j = false ∧ (s.job p j).cmd.isSome = true) ∨
      (s.preemptible p j = true ∧ s.betterWaits p j = false ∧ s.coreWanted p j = false)) :
    ((s.endSlice p j).job p j).overrun = 0 ∧ ((s.endSlice p j).job p j).state = .resident ∧
      ((s.endSlice p j).job p j).preempting = false ∧ ((s.endSlice p j).job p j).sliceStart = s.sliceCycles p j := by
  obtain ⟨t, hjob, hreg, -, hend⟩ := State.endSlice_eq hdonor hdonated
  have hkeeps : (s.preemptible p j && (s.betterWaits p j || s.coreWanted p j)) = false := by
    rcases hstays with ⟨hmay, -⟩ | ⟨-, hbetter, hwanted⟩
    · rw [hmay, Bool.false_and]
    · rw [hbetter, hwanted, Bool.or_false, Bool.and_false]
  rw [hend, hkeeps, if_neg Bool.false_ne_true]
  have hrenewed : (t.modJob p j fun b => { b with sliceStart := s.sliceCycles p j, overrun := 0 }).job p j =
      { s.job p j with sliceStart := s.sliceCycles p j, overrun := 0 } := by simp [hjob]
  have hctx : (t.modJob p j fun b => { b with sliceStart := s.sliceCycles p j, overrun := 0 }).ctxBase p j = s.ctxBase p j :=
    congrFun (congrFun (State.ctxBase_congr hreg) p) j
  rcases State.yieldCores_eq (t.modJob p j _) p j with hyield | ⟨-, hnoctx, hnocmd, -⟩
  · rw [hyield, hrenewed]
    exact ⟨rfl, hresident, hpreempting, rfl⟩
  · rw [hrenewed] at hnocmd
    rcases hstays with ⟨-, hcmd⟩ | ⟨hmay, -, -⟩
    · rw [show (s.job p j).cmd = none from hnocmd] at hcmd
      exact absurd hcmd Bool.false_ne_true
    · exact absurd (hctx.symm.trans hnoctx) ((s.preemptible_iff p j).mp hmay).2.2

/-! ## Contexts saved (R309, R310) -/

/-- A core that has been saved and given up holds no task, whatever cores follow it. -/
theorem State.task_givenUp (p : Nat) (l : List Nat) (s : State) {c : Nat} (hc : c ∈ l) :
    ((l.foldl (fun s c => (s.dropWaits p c).modCore c fun k => { k.idle with paidClass := k.paidClass }) s).core c).task =
      none := by
  obtain ⟨a, b, rfl⟩ := List.append_of_mem hc
  rw [List.foldl_append, List.foldl_cons]
  refine List.foldlRecOn b _ (motive := fun t : State => (t.core c).task = none) ?_ fun t ht d _ => ?_
  · simp [Core.idle]
  · rw [State.modCore_eq, State.core_setCore]
    split
    · rfl
    · exact ht

/-- Once every core of a job that is being pre-empted can be saved, and is, the job is pre-empted and its cores are given up. -/
theorem execContextSaveDone_saved {s : State} {p j : Nat} (hruns : s.runs = true) (hpreempting : (s.job p j).preempting = true)
    (hsavable : ((s.taskCores p j).all fun c => s.savable c) = true) (hbusy : s.channelsBusy p j = false)
    (hsave : (s.saveCores p j (s.taskCores p j)).2 = none) :
    ∃ n, execContextSaveDone p j s = .next n ∧ (n.job p j).state = .preempted ∧ (n.job p j).preempting = false ∧
      (n.job p j).saved.map (fun x => x.core) = s.taskCores p j ∧ ∀ c ∈ s.taskCores p j, (n.core c).task = none := by
  rcases hr : s.saveCores p j (s.taskCores p j) with ⟨t, failure⟩
  rw [hr] at hsave
  cases hsave
  simp only [execContextSaveDone, hruns, hpreempting, hsavable, hbusy, hr, Bool.not_true, Bool.false_eq_true, if_false,
    Bool.not_false, Bool.and_self, if_true]
  refine ⟨_, rfl, ?_⟩
  rw [State.modJob_eq, State.job_setJob, if_pos ⟨rfl, rfl⟩]
  exact ⟨rfl, rfl, by simp [List.map_map, Function.comp_def], fun c hc => State.task_givenUp p _ t hc⟩

/-! ## Kills (R313) -/

/-- A job whose kill has ended is DISABLED, however much of its command had ended. -/
theorem State.job_finishKill (s : State) (p j : Nat) :
    ((s.finishKill p j).job p j).state = .disabled ∧ ((s.finishKill p j).job p j).saved = [] := by
  obtain ⟨t, ht⟩ : ∃ t : State, s.finishKill p j = t.clearJob p j .disabled := by
    unfold State.finishKill
    dsimp only
    split_ifs
    · exact ⟨_, rfl⟩
    · exact ⟨_, rfl⟩
  rw [ht]
  exact State.job_clearJob_self t p j .disabled

theorem execKillDrainEnd_over {s : State} {p j : Nat} (hruns : s.runs = true) (hkilling : (s.job p j).state = .killing)
    (hover : s.tasksOver p j = true ∨ s.landing.fclk.toNat ≥ (s.job p j).drainStart + (s.job p j).drainLen) :
    execKillDrainEnd p j s = .next (s.finishKill p j) := by
  have hends : (s.tasksOver p j || decide (s.landing.fclk.toNat ≥ (s.job p j).drainStart + (s.job p j).drainLen)) = true := by
    simpa using hover
  simp only [execKillDrainEnd, hruns, hkilling, hends, Bool.not_true, Bool.false_eq_true, if_false, decide_true, Bool.and_self,
    if_true, done]

/-! ## Donation (R314) -/

/-- A job that runs with job `w`'s standing, which waits for semaphore `sem`, and that has not got its cores yet. -/
def Job.Received (b : Job) (w sem : Nat) : Prop := b.donated = true ∧ b.donor = some (w, sem) ∧ b.state ≠ .resident

theorem State.received_beginPreempt {s : State} {p h w sem : Nat} (q k : Nat) (hs : (s.job p h).Received w sem) :
    ((s.beginPreempt q k).job p h).Received w sem := by
  rw [State.job_beginPreempt]
  split
  next heq =>
    obtain ⟨rfl, rfl⟩ := heq
    exact hs
  next => exact hs

theorem State.received_setJob_apart {s : State} {p h w sem k : Nat} (hk : h ≠ k) (x : Job) (hs : (s.job p h).Received w sem) :
    ((s.setJob p k x).job p h).Received w sem := by
  rwa [State.job_setJob, if_neg fun heq => hk heq.2]

/-- The pre-emption of rivals takes the donation of resident jobs only. -/
theorem State.received_preemptRivals {s : State} {p h w sem : Nat} (g : Nat) (hs : (s.job p h).Received w sem) :
    ((s.preemptRivals p g).job p h).Received w sem := by
  refine List.foldlRecOn jobList _ (motive := fun t : State => (t.job p h).Received w sem) hs fun t ht k _ => ?_
  split
  next hrival =>
    simp only [Bool.and_eq_true, State.preemptible_iff] at hrival
    obtain ⟨⟨-, hresident, -, -⟩, -⟩ := hrival
    have hk : h ≠ k := fun heq => ht.2.2 (heq ▸ hresident)
    exact State.received_beginPreempt _ _ (State.received_setJob_apart hk _ ht)
  next =>
    rcases t.yieldCores_eq p k with hyield | ⟨hresident, -, -, hyield⟩
    · rwa [hyield]
    · have hk : h ≠ k := fun heq => ht.2.2 (heq ▸ hresident)
      rw [hyield]
      exact State.received_setJob_apart hk _ ht

/-- A donation passed on along the holders goes to jobs that have none. -/
theorem State.received_donate {s : State} {p h w sem : Nat} (n giver key : Nat) (hs : (s.job p h).Received w sem) :
    ((s.donate p giver key n).job p h).Received w sem := by
  induction n generalizing s giver key with
  | zero => exact hs
  | succ n ih =>
    unfold State.donate
    dsimp only
    split
    next hgives =>
      simp only [Bool.and_eq_true, Option.isNone_iff_eq_none] at hgives
      obtain ⟨-, hnone⟩ := hgives
      have hapart : h ≠ semHolder (s.sem p key) := by
        rintro rfl
        exact absurd (hs.2.1.symm.trans hnone) (by simp)
      have hgiven := State.received_setJob_apart hapart
        { s.job p (semHolder (s.sem p key)) with donated := true, donor := some (giver, key) } hs
      refine List.foldlRecOn _ _ (motive := fun t : State => (t.job p h).Received w sem)
        (State.received_preemptRivals _ ?_) fun t ht k _ => ih _ _ ht
      split
      · exact State.received_beginPreempt _ _ hgiven
      · exact hgiven
    next => exact hs

/-- The holder of a LOCK semaphore that can receive a waiter's standing does, and keeps it while the donation goes on. -/
theorem State.received_donate_holder {s : State} {p w sem : Nat} (n : Nat) (hlock : semLock (s.sem p sem) = true)
    (hjob : semHolder (s.sem p sem) < 64) (hother : semHolder (s.sem p sem) ≠ w)
    (hreceive : s.canReceive p (semHolder (s.sem p sem)) = true) (hdonor : (s.job p (semHolder (s.sem p sem))).donor = none) :
    ((s.donate p w sem (n + 1)).job p (semHolder (s.sem p sem))).Received w sem := by
  have hstate : (s.job p (semHolder (s.sem p sem))).state ≠ .resident := by
    intro hresident
    simp [State.canReceive, hresident] at hreceive
  unfold State.donate
  dsimp only
  rw [hlock, hreceive, hdonor, if_pos (by simp [hjob, hother])]
  refine List.foldlRecOn _ _ (motive := fun t : State => (t.job p (semHolder (s.sem p sem))).Received w sem)
    (State.received_preemptRivals _ ?_) fun t ht k _ => State.received_donate _ _ _ ht
  have hgiven : ((s.modJob p (semHolder (s.sem p sem)) fun b => { b with donated := true, donor := some (w, sem) }).job p
      (semHolder (s.sem p sem))).Received w sem := by
    rw [State.modJob_eq, State.job_setJob, if_pos ⟨rfl, rfl⟩]
    exact ⟨rfl, rfl, hstate⟩
  split
  · exact State.received_beginPreempt _ _ hgiven
  · exact hgiven

theorem execDonation_received {s : State} {p j sem : Nat} (hruns : s.runs = true) (hresident : (s.job p j).state = .resident)
    (hpreempting : (s.job p j).preempting = false)
    (hwaits : (s.part p).semWait.any (fun w => decide (w.1 = sem) && s.holdsTask p j w.2) = true)
    (hlock : semLock (s.sem p sem) = true) (hjob : semHolder (s.sem p sem) < 64) (hother : semHolder (s.sem p sem) ≠ j)
    (hreceive : s.canReceive p (semHolder (s.sem p sem)) = true) (hdonor : (s.job p (semHolder (s.sem p sem))).donor = none) :
    ∃ n, execDonation p j sem s = .next n ∧ (n.job p (semHolder (s.sem p sem))).donated = true ∧
      (n.job p (semHolder (s.sem p sem))).donor = some (j, sem) := by
  obtain ⟨hdonated, hgiver, -⟩ := State.received_donate_holder 3 hlock hjob hother hreceive hdonor
  refine ⟨_, ?_, hdonated, hgiver⟩
  simp only [execDonation, hruns, hresident, hpreempting, hwaits, Bool.not_true, Bool.false_eq_true, if_false, Bool.not_false,
    decide_true, Bool.and_self, if_true, done]

/-! ## Model loads (R316) -/

theorem State.readModel_outside (s : State) (p m : Nat) : (s.readModel p m).1.outside = s.outside := by
  have hread := s.readRun_outside (.dispatcher p) p (s.modelEntry p m) 64
  unfold State.readModel
  dsimp only
  split
  · exact hread
  · split <;> exact hread

theorem State.writeModel_outside (s : State) (p m off n v : Nat) : (s.writeModel p m off n v).outside = s.outside :=
  State.writeRun_outside ..

/-- A job whose command's model is there: the command starts. -/
def Job.withModel (b : Job) : Job := { b with cmd := b.cmd.map fun c => { c with modelUp := true, load := 0 } }

/-- A command whose model is WARM, and that asks for no hot copy, starts with REFS and LAST_USE written. The callees are generalized
for the kernel's depth, as among the `fixed` lemmas. -/
theorem State.modelStep_warm {s t : State} {p j : Nat} {r : RunCmd} {e : ModelEntry} (hread : s.readModel p r.model = (t, .ok e))
    (hok : e.ok = true) (hwarm : e.state = 2) (hhot : r.hot = false) :
    ∃ u : State, u.outside = s.outside ∧ s.modelStep p j r =
      if ((u.modJob p j Job.withModel).job p j).state = .loading then (u.modJob p j Job.withModel).becomeReady p j
      else u.modJob p j Job.withModel := by
  have hoff : t.outside = s.outside := outside_of_eq hread (s.readModel_outside ..)
  refine ⟨(t.writeModel p r.model 2 2 (e.refs + 1)).writeModel p r.model 0x30 8 (t.part p).runs,
    (State.writeModel_outside ..).trans ((State.writeModel_outside ..).trans hoff), ?_⟩
  clear hoff
  generalize hf : @State.modelStep = f
  delta State.modelStep at hf
  generalize @State.readModel = read, @State.hotModels = models, @State.hotPlace = place at hread hf
  as_aux_lemma =>
    subst hf
    delta Job.withModel
    simp only [hread, hok, hwarm, hhot, Bool.not_true, Bool.false_eq_true, if_false, OfNat.ofNat_ne_zero, Nat.reduceEqDiff,
      decide_false, decide_true, Bool.not_false, Bool.and_self, Bool.or_true, if_true]

/-- Where its model is there, the command starts, and a job that was loading is ready. -/
theorem State.modelStep_starts {s t : State} {p j : Nat} {r : RunCmd} {e : ModelEntry} (hloading : (s.job p j).state = .loading)
    (hcmd : (s.job p j).cmd = some r) (hread : s.readModel p r.model = (t, .ok e)) (hok : e.ok = true)
    (hwarm : e.state = 2) (hhot : r.hot = false) :
    ((s.modelStep p j r).job p j).cmd = some { r with modelUp := true, load := 0 } ∧
      ((s.modelStep p j r).job p j).state = .ready := by
  obtain ⟨u, hoff, hstep⟩ := State.modelStep_warm (j := j) hread hok hwarm hhot
  have hjob : (u.modJob p j Job.withModel).job p j = (s.job p j).withModel := by
    rw [State.modJob_eq, State.job_setJob, if_pos ⟨rfl, rfl⟩, State.job_of_outside hoff]
  obtain ⟨hready, hkept⟩ := State.job_becomeReady (u.modJob p j Job.withModel) p j
  rw [hstep, hjob, if_pos (show (s.job p j).withModel.state = .loading from hloading)]
  exact ⟨hkept.trans (by rw [hjob, Job.withModel, hcmd]; rfl), hready⟩

/-- The load of a model that ended well lets the command start. -/
theorem execModelLoadDone_loaded {s t : State} {p j : Nat} {r : RunCmd} {e : ModelEntry} (hruns : s.runs = true)
    (hloading : (s.job p j).state = .loading) (hcmd : (s.job p j).cmd = some r)
    (hfree : (s.chan (s.modelEngine p) 15).free = true) (hload : r.load = 1) (hhot : r.hot = false)
    (hstatus : (s.chan (s.modelEngine p) 15).status = .ok) (hread : (s.setModelState p r.model 2).readModel p r.model = (t, .ok e))
    (hok : e.ok = true) (hwarm : e.state = 2) :
    ∃ n, execModelLoadDone p j s = .next n ∧ (n.job p j).cmd = some { r with modelUp := true, load := 0 } ∧
      (n.job p j).state = .ready := by
  have hjob := State.job_of_outside (s.writeModel_outside p r.model 0 1 2) p j
  refine ⟨_, ?_, State.modelStep_starts (hjob ▸ hloading) (hjob ▸ hcmd) hread hok hwarm hhot⟩
  simp [execModelLoadDone, hruns, hloading, hcmd, hfree, hload, hstatus, done, State.setModelState]

/-- One that did not ends it. -/
theorem execModelLoadDone_failed {s : State} {p j : Nat} {r : RunCmd} (hruns : s.runs = true)
    (hloading : (s.job p j).state = .loading) (hcmd : (s.job p j).cmd = some r)
    (hfree : (s.chan (s.modelEngine p) 15).free = true) (hload : r.load ≠ 0)
    (hstatus : (s.chan (s.modelEngine p) 15).status ≠ .ok) :
    ∃ n, execModelLoadDone p j s = .next n ∧ (n.job p j).cmd = none := by
  refine ⟨_, ?_, State.cmd_failCommand (s.setModelState p r.model r.load) p j (s.chan (s.modelEngine p) 15).status⟩
  simp [execModelLoadDone, hruns, hloading, hcmd, hfree, hload, hstatus, done]

/-! ## The statement -/

theorem execSliceExpiry_over {s : State} {p j : Nat} (hruns : s.runs = true) (hresident : (s.job p j).state = .resident)
    (hpreempting : (s.job p j).preempting = false)
    (hover : s.sliceCycles p j - (s.job p j).sliceStart ≥ s.sliceLen p j) :
    execSliceExpiry p j s = .next (s.endSlice p j) := by
  simp only [execSliceExpiry, hruns, hresident, hpreempting, hover, Bool.not_true, Bool.false_eq_true, if_false, Bool.not_false,
    decide_true, Bool.and_self, if_true, done]

theorem execUrgentPreempt_rival {s : State} {p j : Nat} (hruns : s.runs = true) (hmay : s.preemptible p j = true)
    (hurgent : s.urgent p j = false)
    (hrival : jobList.any (fun k => s.rivals p j k && s.isReady p k && decide ((s.job p k).state ≠ .resident) && s.urgent p k) =
      true) : execUrgentPreempt p j s = .next (s.endSlice p j) := by
  obtain ⟨hresident, hpreempting, -⟩ := (s.preemptible_iff p j).mp hmay
  simp only [execUrgentPreempt, hruns, hresident, hpreempting, hurgent, hrival, Bool.not_true, Bool.false_eq_true, if_false,
    Bool.not_false, decide_true, Bool.and_self, if_true, done]

/-- Settles O36: for each command, the lemma that says what it leaves of its job. -/
theorem jobsComeAndGo : Obligations.JobsComeAndGo := by
  unfold Obligations.JobsComeAndGo
  intro s p j sem r resident loading
  refine ⟨execJobResident_restored, ?slice, ?urgent, execContextSaveDone_saved, ?kill, ?donation, ?loaded, ?failed⟩
  case slice =>
    rintro ⟨hruns, hresident, hpreempting⟩ hover hdonor hdonated
    exact ⟨_, execSliceExpiry_over hruns hresident hpreempting hover,
      State.endSlice_renews hdonor hdonated hresident hpreempting, State.endSlice_preempts hdonor hdonated⟩
  case urgent =>
    intro hruns hmay hurgent hdonor hdonated hbetter hrival
    exact ⟨_, execUrgentPreempt_rival hruns hmay hurgent hrival, State.endSlice_preempts hdonor hdonated hmay hbetter⟩
  case kill =>
    intro hruns hkilling hover
    exact ⟨_, execKillDrainEnd_over hruns hkilling hover, s.job_finishKill p j⟩
  case donation =>
    rintro ⟨hruns, hresident, hpreempting⟩ hwaits hlock hjob hother hreceive hdonor
    exact execDonation_received hruns hresident hpreempting hwaits hlock hjob hother hreceive hdonor
  case loaded =>
    rintro ⟨hruns, hloading, hcmd, hfree⟩ hload hhot hstatus e hread hok hwarm
    exact execModelLoadDone_loaded hruns hloading hcmd hfree hload hhot hstatus (Prod.ext rfl hread) hok hwarm
  case failed =>
    rintro ⟨hruns, hloading, hcmd, hfree⟩ hload hstatus
    exact execModelLoadDone_failed hruns hloading hcmd hfree hload hstatus

end Sys2Proof.Machine
end

section
/-! The governor. An epoch settles the loss and the brakes in its reading of the hottest site; the payments after it leave both. -/

namespace Sys2Proof.Machine

set_option Elab.async false

/-! ## What leaves the governor as it is -/

@[simp] theorem State.gov_signal (s : State) (v : Nat) : (s.signal v).gov = s.gov := by
  obtain ⟨l, h⟩ := s.signal_frame v
  rw [h]

@[simp] theorem State.reg_signal (s : State) (v a : Nat) : (s.signal v).reg a = s.reg a := by
  obtain ⟨l, h⟩ := s.signal_frame v
  rw [h]
  rfl

@[simp] theorem State.gov_logError (s : State) (e : ErrRec) : (s.logError e).gov = s.gov := by
  obtain ⟨l, h⟩ := s.logError_frame e
  rw [h]

theorem State.gov_charge (s : State) (g n : Nat) : (s.charge g n).gov = s.gov := rfl

theorem State.gov_chargeRunning (s : State) (t i : Nat) (l : List Running) : (s.chargeRunning t i l).1.gov = s.gov := by
  fun_induction State.chargeRunning with
  | case1 => rfl
  | case2 s i r l n r' _ s' l' hrest ih =>
    rw [hrest] at ih
    exact ih.trans (State.gov_charge ..)

theorem State.gov_payFirst (s : State) (t : Nat) (c : TowerCmd) (k : CmdCheck) : (s.payFirst t c k).1.gov = s.gov := by
  unfold State.payFirst
  split <;> rfl

theorem State.gov_payHead (s : State) (t : Nat) : (s.payHead t).gov = s.gov := by
  unfold State.payHead
  split
  · rfl
  · split
    · rfl
    · split
      · rfl
      · exact State.gov_payFirst ..

theorem State.gov_settleTower (s : State) (g : Nat) : (s.settleTower g).gov = s.gov :=
  (State.gov_payHead ..).trans (State.gov_chargeRunning ..)

theorem State.gov_credit (s : State) : s.credit.gov = s.gov := foldl_keeps State.gov (fun _ _ => by rfl) _ _

theorem State.gov_payJob (s : State) (p g j : Nat) (x : Unpaid) : (s.payJob p g j x).1.gov = s.gov := by
  unfold State.payJob
  dsimp only
  split
  · rfl
  · split
    · exact (foldl_keeps State.gov (fun _ _ => by rfl) _ _).trans (State.gov_charge ..)
    · rfl

/-- What a fold over a state and a value beside it keeps of the state. -/
theorem foldl_keeps_fst {α β γ : Type} (g : State → γ) {f : State × β → α → State × β} (h : ∀ x a, g (f x a).1 = g x.1) (l : List α)
    (x : State × β) : g (l.foldl f x).1 = g x.1 :=
  List.foldlRecOn l f (motive := fun y => g y.1 = g x.1) rfl fun y hy a _ => (h y a).trans hy

theorem State.gov_payCores (s : State) (p g : Nat) (unpaid : List Nat) : (s.payCores p g unpaid).1.gov = s.gov :=
  foldl_keeps_fst State.gov (fun x j => x.1.gov_payJob p g j x.2) _ (s, _)

theorem State.gov_settleJobs (s : State) (p : Nat) (unpaid : List Nat) : (s.settleJobs p unpaid).gov = s.gov := by
  refine foldl_keeps State.gov (fun s j => ?_) _ _
  split
  · rfl
  · dsimp only
    split
    · rfl
    · split <;> rfl

theorem State.gov_settlePart (s : State) (p : Nat) : (s.settlePart p).gov = s.gov := by
  unfold State.settlePart
  split
  · rfl
  · exact (State.gov_settleJobs ..).trans (foldl_keeps_fst State.gov (fun x g => x.1.gov_payCores p g x.2) _ (s, _))

theorem State.gov_countHeld (s : State) (g : Nat) : (s.countHeld g).gov = s.gov := rfl

/-- V on its way back after a brake is all that a step of it changes. -/
theorem State.gov_recoverStep (s : State) :
    s.recoverStep.gov.loss = s.gov.loss ∧ s.recoverStep.gov.brakes = s.gov.brakes := by
  unfold State.recoverStep
  split <;> exact ⟨rfl, rfl⟩

/-! ## Bits of registers -/

theorem State.regBit_setRegBit_apart (s : State) {a i c k : Nat} (b : Bool) (h : c ≠ a ∨ k ≠ i) :
    (s.setRegBit a i b).regBit c k = s.regBit c k := by
  rw [State.setRegBit_eq, State.regBit_setReg]
  split
  next hc =>
    subst hc
    rw [nbit_putField, if_neg (by omega)]
    rfl
  next => rfl

theorem State.regBit_signal (s : State) (v a i : Nat) : (s.signal v).regBit a i = s.regBit a i := by
  rw [State.regBit, State.reg_signal]
  rfl

theorem State.regBit_reportAer (s : State) (fn : Fn) (x : AerSeverity) (a i : Nat) :
    (s.reportAer fn x).regBit a i = s.regBit a i := by
  rw [State.regBit, State.reportAer, State.reg_modLanding]
  rfl

/-! ## Brakes (R326) -/

/-- A cause of the brake that did not hold yet. -/
theorem State.applyBrake_new {s : State} {c : BrakeCause} (hnew : c ∉ s.gov.brakes) :
    (s.applyBrake c).gov = { s.gov with brakes := c :: s.gov.brakes } ∧
      (s.applyBrake c).regBit (govBase + Off.govStat) 30 = true ∧ (s.applyBrake c).regBit (govBase + Off.govStat) 28 = true := by
  unfold State.applyBrake
  rw [if_neg (by simpa using hnew)]
  refine ⟨by simp, ?_, ?_⟩
  · rw [State.regBit_signal, State.regBit_setRegBit_apart _ _ (.inr (by decide)), State.regBit_setRegBit]
  · rw [State.regBit_signal, State.regBit_setRegBit]

theorem State.loss_applyBrake (s : State) (c : BrakeCause) : (s.applyBrake c).gov.loss = s.gov.loss := by
  by_cases h : c ∈ s.gov.brakes
  · simp [State.applyBrake, h]
  · rw [(State.applyBrake_new h).1]

theorem State.mem_applyBrake (s : State) (c : BrakeCause) : c ∈ (s.applyBrake c).gov.brakes := by
  by_cases h : c ∈ s.gov.brakes
  · simp [State.applyBrake, h]
  · rw [(State.applyBrake_new h).1]
    exact List.mem_cons_self

theorem State.loss_releaseBrake (s : State) (c : BrakeCause) : (s.releaseBrake c).gov.loss = s.gov.loss := by
  unfold State.releaseBrake
  dsimp only
  split
  · rfl
  · split <;> rfl

theorem State.brakes_releaseBrake (s : State) (c : BrakeCause) :
    (s.releaseBrake c).gov.brakes = s.gov.brakes.filter fun x => decide (x ≠ c) := by
  unfold State.releaseBrake
  dsimp only
  split
  next h =>
    refine (List.filter_eq_self.mpr fun x hx => ?_).symm
    simp only [List.contains_eq_mem, Bool.not_eq_true', decide_eq_false_iff_not] at h
    exact decide_eq_true fun heq => h (heq ▸ hx)
  next =>
    split
    next hlast => exact hlast.symm
    next => rfl

/-- With its last cause a brake ends, and V starts again at 200 W. -/
theorem State.releaseBrake_last {s : State} {c : BrakeCause} (h : s.gov.brakes = [c]) :
    (s.releaseBrake c).gov.recover = some (3200 - s.regField (govBase + Off.govFixed) 0 16) ∧
      (s.releaseBrake c).regBit (govBase + Off.govStat) 30 = false := by
  have hnone : (s.gov.brakes.filter fun x => decide (x ≠ c)) = [] := by simp [h]
  unfold State.releaseBrake
  dsimp only
  rw [if_neg (by simp [h]), if_pos hnone]
  exact ⟨rfl, State.regBit_setRegBit ..⟩

/-! ## An epoch (R325) -/

/-- The reading of the hottest site is the loss, then the thermal brake or its release. -/
theorem State.gov_readThermal (s : State) (hottest : Nat) : ∃ t : State,
    t.gov = { s.gov with loss := nextLoss (s.regField (govBase + Off.govTherm) 16 8) hottest s.gov.loss } ∧
      (s.readThermal hottest).gov = (if 110 ≤ hottest then t.applyBrake .thermal
        else if hottest ≤ 107 then t.releaseBrake .thermal else t).gov := by
  unfold State.readThermal
  extract_lets gov a s1 loss g s2 rises s3 s4
  refine ⟨s4, ?_, rfl⟩
  have hloss : loss = nextLoss (s.regField (govBase + Off.govTherm) 16 8) hottest s.gov.loss := by
    simp only [loss, s1, a, State.setRegField_eq, State.regField_setReg, if_true]
    rw [field_putField_apart _ _ _ _ _ _ (.inl (by decide))]
    rfl
  rw [← hloss]
  simp only [s4]
  split
  · exact State.gov_signal ..
  · rfl

theorem State.loss_readThermal (s : State) (hottest : Nat) :
    (s.readThermal hottest).gov.loss = nextLoss (s.regField (govBase + Off.govTherm) 16 8) hottest s.gov.loss := by
  obtain ⟨t, ht, hread⟩ := s.gov_readThermal hottest
  have hloss := congrArg Governor.loss ht
  rw [hread]
  split
  · exact (State.loss_applyBrake ..).trans hloss
  · split
    · exact (State.loss_releaseBrake ..).trans hloss
    · exact hloss

theorem State.brakes_readThermal (s : State) (hottest : Nat) :
    (110 ≤ hottest → .thermal ∈ (s.readThermal hottest).gov.brakes) ∧
      (hottest ≤ 107 → .thermal ∉ (s.readThermal hottest).gov.brakes) := by
  obtain ⟨t, -, hread⟩ := s.gov_readThermal hottest
  rw [hread]
  refine ⟨fun hhot => ?_, fun hcool => ?_⟩
  · rw [if_pos hhot]
    exact State.mem_applyBrake ..
  · rw [if_neg (by omega), if_pos hcool, State.brakes_releaseBrake]
    simp

/-- The payments of an epoch leave the loss and the brakes. -/
theorem execGovernorEpoch_runs {s : State} (hottest : Nat) (hruns : s.runs = true) :
    ∃ n, execGovernorEpoch hottest s = .next n ∧ n.gov.loss = (s.readThermal hottest).gov.loss ∧
      n.gov.brakes = (s.readThermal hottest).gov.brakes := by
  have hsettle (t : State) (l : List Nat) : (l.foldl (fun s g => s.settleTower g) t).gov = t.gov :=
    foldl_keeps State.gov State.gov_settleTower _ _
  have hpay (t : State) (l m : List Nat) : ((m.foldl (fun s g => s.countHeld g) (l.foldl (fun s p => s.settlePart p) t))).gov =
      t.gov := (foldl_keeps State.gov State.gov_countHeld _ _).trans (foldl_keeps State.gov State.gov_settlePart _ _)
  obtain ⟨hloss, hbrakes⟩ := State.gov_recoverStep (s.readThermal hottest).credit
  rw [State.gov_credit] at hloss hbrakes
  rw [← hloss, ← hbrakes]
  unfold execGovernorEpoch
  rw [hruns, if_neg (by decide)]
  cases hbraked : decide ((s.readThermal hottest).gov.brakes ≠ []) with
  | true =>
    simp only [hbraked, if_true]
    refine ⟨_, rfl, ?_⟩
    rw [State.gov_tick, hsettle, hloss, hbrakes]
    exact ⟨rfl, rfl⟩
  | false =>
    simp only [hbraked, Bool.false_eq_true, if_false]
    refine ⟨_, rfl, ?_⟩
    rw [hpay]
    dsimp only
    rw [State.gov_tick, hsettle]
    exact ⟨rfl, rfl⟩

/-! ## The thermal trip (R327) -/

/-- FATAL stops the clocks; it leaves the module, and every register but GSTAT. -/
theorem State.fatalStop_stops (s : State) :
    s.fatalStop.stopped = true ∧ s.fatalStop.mod = s.mod ∧ ∀ a i, a ≠ Off.gstat → s.fatalStop.regBit a i = s.regBit a i := by
  unfold State.fatalStop
  split
  next h => exact ⟨h, rfl, fun _ _ _ => rfl⟩
  next =>
    refine ⟨?_, ?_, fun a i ha => ?_⟩
    · exact (State.regBit_reportAer ..).trans (State.regBit_setRegBit ..)
    · rw [State.reportAer, State.mod_modLanding, State.setRegBit_eq, State.mod_setReg]
    · rw [State.regBit_reportAer, State.regBit_setRegBit_apart _ _ (.inl ha)]

/-- A site at 115 °C trips the governor once: THERM_ALERT# is asserted, the clocks stop and TRIP is set. -/
theorem execThermalTrip_trips {s : State} {site celsius : Nat} (hhot : 115 ≤ celsius) (hsite : site < 128)
    (hpower : s.mod.modPg = true) (hfirst : s.regBit (govBase + Off.govStat) 31 = false) :
    ∃ n, execThermalTrip site celsius s = .next n ∧ n.mod.thermAlert = true ∧ n.stopped = true ∧
      n.regBit (govBase + Off.govStat) 31 = true := by
  have hcold : (decide (celsius < 115) || decide (site ≥ 128) || !s.mod.modPg || s.regBit (govBase + Off.govStat) 31) = false := by
    simp [hhot, hsite, hpower, hfirst]
  unfold execThermalTrip
  rw [hcold, if_neg Bool.false_ne_true]
  dsimp only
  obtain ⟨hstopped, hmod, hreg⟩ := State.fatalStop_stops _
  refine ⟨_, rfl, ?_, hstopped, ?_⟩
  · rw [hmod]
  · rw [hreg _ _ (by decide)]
    exact (State.regBit_signal ..).trans (State.regBit_setRegBit ..)

/-! ## GOV_GRP_CFG (Table 09-13) -/

/-- RATIO of a group after a write: 3 is ignored. -/
theorem State.ratio_writeGrpCfg (s : State) (g v : Nat) :
    (s.writeGrpCfg g v).regField (govBase + Off.govGrpCfg + 4 * g) 5 2 =
      if field v 5 2 = 3 then s.regField (govBase + Off.govGrpCfg + 4 * g) 5 2 else field v 5 2 := by
  have hapart (t : State) (lo n x : Nat) (h : 5 + 2 ≤ lo ∨ lo + n ≤ 5) :
      (t.setRegField (govBase + Off.govGrpCfg + 4 * g) lo n x).regField (govBase + Off.govGrpCfg + 4 * g) 5 2 =
        t.regField (govBase + Off.govGrpCfg + 4 * g) 5 2 := by
    rw [State.setRegField_eq, State.regField_setReg, if_pos rfl, field_putField_apart _ _ _ _ _ _ h]
    rfl
  have hbits : ((s.setRegBit (govBase + Off.govGrpCfg + 4 * g) 4 (nbit v 4)).setRegBit (govBase + Off.govGrpCfg + 4 * g) 3
      (nbit v 3)).regField (govBase + Off.govGrpCfg + 4 * g) 5 2 = s.regField (govBase + Off.govGrpCfg + 4 * g) 5 2 :=
    (hapart _ 3 1 _ (.inr (by decide))).trans (hapart _ 4 1 _ (.inr (by decide)))
  unfold State.writeGrpCfg
  extract_lets a s1 s2
  have hratio : s2.regField a 5 2 = if field v 5 2 = 3 then s.regField a 5 2 else field v 5 2 := by
    simp only [s2]
    split
    · exact hbits
    · rw [State.setRegField_eq, State.regField_setReg, if_pos rfl, field_putField]
      exact Nat.mod_mod ..
  split
  · exact (hapart _ 0 3 _ (.inr (by decide))).trans hratio
  · exact hratio

/-! ## The statement -/

theorem execGovGrpCfgWrite_taken {s : State} {group : Nat} (hgroup : group < s.units)
    (htakes : s.takes .pf (govBase + Off.govGrpCfg + 4 * group) = true) (value : Word) :
    execGovGrpCfgWrite .pf group value s = .next (s.writeGrpCfg group value.toNat) := by
  rw [execGovGrpCfgWrite, if_pos hgroup, State.done_onWrite htakes]

/-- Settles O37: the epoch's reading settles loss and brakes, and each other command is the change that it is named for. -/
theorem governorActs : Obligations.GovernorActs := by
  unfold Obligations.GovernorActs
  intro s hottest site celsius group value
  refine ⟨?epoch, ?brake, ?release, execThermalTrip_trips, ?config⟩
  case epoch =>
    intro hruns
    obtain ⟨n, hn, hloss, hbrakes⟩ := execGovernorEpoch_runs hottest hruns
    rw [State.loss_readThermal] at hloss
    refine ⟨n, hn, fun hrise => ?_, fun hfall => ?_, ?_⟩
    · rw [hloss, nextLoss, if_pos hrise]
    · rw [hloss, nextLoss, if_neg (by omega), if_pos hfall]
    · rw [hbrakes]
      exact s.brakes_readThermal hottest
  case brake =>
    intro hforced hnew
    obtain ⟨hgov, hbrake, hshown⟩ := State.applyBrake_new hnew
    exact ⟨_, if_pos hforced, congrArg Governor.brakes hgov, hbrake, hshown⟩
  case release =>
    intro hlast
    obtain ⟨hrecover, hbrake⟩ := State.releaseBrake_last hlast
    exact ⟨_, rfl, by rw [State.brakes_releaseBrake, hlast]; rfl, hrecover, hbrake⟩
  case config =>
    intro hgroup htakes
    refine ⟨_, execGovGrpCfgWrite_taken hgroup htakes value, ?_⟩
    have hratio : value.toNat / 32 % 4 = field value.toNat 5 2 := by
      rw [field, Nat.shiftRight_eq_div_pow]
      rfl
    rw [State.ratio_writeGrpCfg, hratio]

end Sys2Proof.Machine
end

section
/-! Job registers. The checks of a job's configuration read no PJOB_CTL, so that they pass or fail after the write that asks for them
as before it. -/

namespace Sys2Proof.Machine

set_option Elab.async false

theorem State.job_setReg (s : State) (a v q k : Nat) : (s.setReg a v).job q k = s.job q k :=
  State.job_of_parts (State.parts_setReg ..) q k

theorem State.reg_becomeReady (s : State) (p j i : Nat) : (s.becomeReady p j).reg i = s.reg i := by
  unfold State.becomeReady
  split
  · rfl
  · dsimp only
    split <;> rfl

/-! ## PJOB_CTL written (R300) -/

section
variable (s : State) (p j v : Nat)

theorem State.reg_setCtl_job (k : Nat) {o : Nat} (hlo : 0x2000 ≤ o) (hhi : o < 0x2080) (hne : o ≠ Off.pjobCtl) :
    (s.setReg (jobBase p j + Off.pjobCtl) v).reg (jobBase p k + o) = s.reg (jobBase p k + o) := by
  rw [State.reg_setReg, if_neg]
  simp only [jobBase, Off.pjobCtl] at hne ⊢
  omega

theorem State.reg_setCtl_part {o : Nat} (ho : o < 0x2000) :
    (s.setReg (jobBase p j + Off.pjobCtl) v).reg (partBase p + o) = s.reg (partBase p + o) := by
  rw [State.reg_setReg, if_neg]
  simp only [jobBase, Off.pjobCtl]
  omega

theorem State.inCoreSet_setCtl (k : Nat) {c : Nat} (hc : c < 288) :
    (s.setReg (jobBase p j + Off.pjobCtl) v).inCoreSet p k c = s.inCoreSet p k c := by
  unfold State.inCoreSet
  rw [Nat.add_assoc, State.reg_setCtl_job _ _ _ _ _ (by simp only [Off.pjobCores0]; omega) (by simp only [Off.pjobCores0]; omega)
    (by simp only [Off.pjobCores0, Off.pjobCtl]; omega)]

theorem State.coreSet_setCtl (k : Nat) : (s.setReg (jobBase p j + Off.pjobCtl) v).coreSet p k = s.coreSet p k := by
  refine List.filter_congr fun c hc => s.inCoreSet_setCtl p j v k ?_
  have hcores : Config.cores s.variant ≤ 288 := by cases s.variant <;> decide
  exact Nat.lt_of_lt_of_le (List.mem_range.mp hc) hcores

theorem any_congr_mem {α : Type} {f g : α → Bool} {l : List α} (h : ∀ x ∈ l, f x = g x) : l.any f = l.any g := by
  rw [Bool.eq_iff_iff, List.any_eq_true, List.any_eq_true]
  exact exists_congr fun x => and_congr_right fun hx => by rw [h x hx]

theorem State.jobInGroup_setCtl (k : Nat) {g : Nat} (hg : g < 12) :
    (s.setReg (jobBase p j + Off.pjobCtl) v).jobInGroup p k g = s.jobInGroup p k g := by
  refine any_congr_mem fun c hc => s.inCoreSet_setCtl p j v k ?_
  simp only [homeCores, List.mem_map, List.mem_range] at hc
  omega

theorem State.ctxBase_setCtl (k : Nat) : (s.setReg (jobBase p j + Off.pjobCtl) v).ctxBase p k = s.ctxBase p k := by
  unfold State.ctxBase
  rw [State.reg_setCtl_job _ _ _ _ _ (by decide) (by decide) (by decide),
    State.reg_setCtl_job _ _ _ _ _ (by decide) (by decide) (by decide)]

theorem State.groupMask_setCtl : (s.setReg (jobBase p j + Off.pjobCtl) v).groupMask p = s.groupMask p := by
  unfold State.groupMask State.regField
  rw [State.reg_setCtl_part _ _ _ _ (by decide)]

theorem State.region_setCtl : (s.setReg (jobBase p j + Off.pjobCtl) v).region p = s.region p := by
  have htowers : (s.setReg (jobBase p j + Off.pjobCtl) v).towersOf p = s.towersOf p := by
    unfold State.towersOf State.units
    rw [State.groupMask_setCtl, State.variant_setReg]
  funext a
  unfold State.region
  rw [htowers]
  rfl

theorem State.ctxOk_setCtl (k : Nat) : (s.setReg (jobBase p j + Off.pjobCtl) v).ctxOk p k = s.ctxOk p k := by
  unfold State.ctxOk State.regionKey
  rw [State.ctxBase_setCtl, State.coreSet_setCtl, State.region_setCtl]

theorem State.channelsFree_setCtl (k : Nat) : (s.setReg (jobBase p j + Off.pjobCtl) v).channelsFree p k = s.channelsFree p k := by
  unfold State.channelsFree
  refine List.all_congr rfl fun i => ?_
  rw [State.reg_setCtl_job _ _ _ _ _ (by decide) (by decide) (by decide),
    State.reg_setCtl_job _ _ _ _ _ (by decide) (by decide) (by decide)]
  have hgroups : ((List.range 12).any fun g => (s.setReg (jobBase p j + Off.pjobCtl) v).jobInGroup p k g &&
      (s.setReg (jobBase p j + Off.pjobCtl) v).jobInGroup p i g) =
      (List.range 12).any fun g => s.jobInGroup p k g && s.jobInGroup p i g :=
    any_congr_mem fun g hg => by
      rw [State.jobInGroup_setCtl _ _ _ _ _ (List.mem_range.mp hg), State.jobInGroup_setCtl _ _ _ _ _ (List.mem_range.mp hg)]
  rw [hgroups]
  rfl

theorem State.rivals_setCtl (i k : Nat) : (s.setReg (jobBase p j + Off.pjobCtl) v).rivals p i k = s.rivals p i k := by
  unfold State.rivals State.coreWord
  refine congrArg _ (any_congr_mem fun w hw => ?_)
  have hw9 := List.mem_range.mp hw
  rw [Nat.add_assoc, Nat.add_assoc, State.reg_setCtl_job _ _ _ _ _ (by simp only [Off.pjobCores0]; omega)
      (by simp only [Off.pjobCores0]; omega) (by simp only [Off.pjobCores0, Off.pjobCtl]; omega),
    State.reg_setCtl_job _ _ _ _ _ (by simp only [Off.pjobCores0]; omega)
      (by simp only [Off.pjobCores0]; omega) (by simp only [Off.pjobCores0, Off.pjobCtl]; omega)]

/-- The checks of a job's configuration do not read PJOB_CTL. -/
theorem State.jobCfgOk_setCtl : (s.setReg (jobBase p j + Off.pjobCtl) v).jobCfgOk p j = s.jobCfgOk p j := by
  have hcores : ((List.range 288).filter fun c => (s.setReg (jobBase p j + Off.pjobCtl) v).inCoreSet p j c) =
      (List.range 288).filter fun c => s.inCoreSet p j c :=
    List.filter_congr fun c hc => s.inCoreSet_setCtl p j v j (List.mem_range.mp hc)
  have hring : (s.setReg (jobBase p j + Off.pjobCtl) v).ringLog2 p j = s.ringLog2 p j ∧
      (s.setReg (jobBase p j + Off.pjobCtl) v).ringBase p j = s.ringBase p j := by
    unfold State.ringLog2 State.ringBase State.regField
    rw [State.reg_setCtl_job _ _ _ _ _ (by decide) (by decide) (by decide),
      State.reg_setCtl_job _ _ _ _ _ (by decide) (by decide) (by decide)]
    exact ⟨rfl, rfl⟩
  have hserve : (s.setReg (jobBase p j + Off.pjobCtl) v).serves p = s.serves p ∧
      (s.setReg (jobBase p j + Off.pjobCtl) v).genRing p = s.genRing p := by
    unfold State.serves State.genRing State.regBit State.regField
    rw [State.reg_setCtl_part _ _ _ _ (by decide)]
    exact ⟨rfl, rfl⟩
  unfold State.jobCfgOk
  rw [hcores, hring.1, hring.2, hserve.1, hserve.2, State.groupMask_setCtl, State.region_setCtl, State.channelsFree_setCtl,
    State.ctxOk_setCtl, State.ctxBase_setCtl, State.rivals_setCtl]
  rfl

theorem State.pendingEntries_setCtl (k : Nat) :
    (s.setReg (jobBase p j + Off.pjobCtl) v).pendingEntries p k = s.pendingEntries p k := by
  unfold State.pendingEntries
  rw [State.reg_setCtl_job _ _ _ _ _ (by decide) (by decide) (by decide),
    State.reg_setCtl_job _ _ _ _ _ (by decide) (by decide) (by decide)]

end

/-- A job that comes to rest is READY with a command in progress or entries pending, else IDLE. -/
theorem State.state_settleJob (s : State) (p j : Nat) : ((s.settleJob p j).job p j).state =
    if (s.job p j).cmd.isSome ∨ s.pendingEntries p j ≠ 0 then .ready else .idle := by
  have hcond : ((s.job p j).cmd.isSome || decide (s.pendingEntries p j ≠ 0)) = true ↔
      ((s.job p j).cmd.isSome ∨ s.pendingEntries p j ≠ 0) := by simp
  unfold State.settleJob
  by_cases h : (s.job p j).cmd.isSome ∨ s.pendingEntries p j ≠ 0
  · rw [if_pos h, if_pos (hcond.mpr h)]
    exact (State.job_becomeReady ..).1
  · rw [if_neg h, if_neg (mt hcond.mp h)]
    simp

/-- The fields of PJOB_CTL but ENABLE, as a write leaves them. -/
def State.pjobCtlFields (s : State) (p j v : Nat) : State :=
  (s.setRegField (jobBase p j + Off.pjobCtl) 24 6 (field v 24 6)).setRegField (jobBase p j + Off.pjobCtl) 0 17 (field v 0 17)

theorem State.job_pjobCtlFields (s : State) (p j v q k : Nat) : (s.pjobCtlFields p j v).job q k = s.job q k := by
  simp only [State.pjobCtlFields, State.setRegField_eq, State.job_setReg]

/-- A write of PJOB_CTL that neither kills nor clears the job. -/
theorem State.writePjobCtl_eq {s : State} {p j v : Nat} (hkill : nbit v 31 = false ∨ (s.job p j).state = .disabled)
    (hclear : nbit v 30 = false ∨ (s.job p j).state ≠ .faulted) : s.writePjobCtl p j v =
      if nbit v 17 then
        if (s.job p j).state = .disabled then
          ((s.pjobCtlFields p j v).setRegBit (jobBase p j + Off.pjobCtl) 17 true).enableJob p j
        else s.pjobCtlFields p j v
      else if (s.job p j).state = .idle then
        ((s.pjobCtlFields p j v).setRegBit (jobBase p j + Off.pjobCtl) 17 false).disableJob p j
      else if (s.job p j).state = .disabled then (s.pjobCtlFields p j v).setRegBit (jobBase p j + Off.pjobCtl) 17 false
      else s.pjobCtlFields p j v := by
  have hlives : (if nbit v 31 then s.killJob p j (s.killWindow p) .aborted else s) = s := by
    split
    next h =>
      have hdisabled := hkill.resolve_left (by simp [h])
      simp only [State.killJob, hdisabled]
    next => rfl
  have hstays : (if nbit v 30 then s.clearFault p j else s) = s := by
    split
    next h => exact if_neg (hclear.resolve_left (by simp [h]))
    next => rfl
  have hjob := s.job_pjobCtlFields p j v p j
  unfold State.writePjobCtl
  extract_lets a x y z st
  have hx : x = s := hlives
  have hy : y = s := by rw [← hstays, ← hx]
  have hz : z = s.pjobCtlFields p j v := by rw [← hy]; rfl
  have hst : st = (s.job p j).state := by rw [← hjob, ← hz]
  rw [hst, hz]

/-- ENABLE written to a DISABLED job (R300). -/
theorem State.writePjobCtl_enables {s : State} {p j v : Nat} (hon : nbit v 17 = true)
    (hdisabled : (s.job p j).state = .disabled) :
    (s.jobCfgOk p j = true → ((s.writePjobCtl p j v).job p j).state =
        if (s.job p j).cmd.isSome ∨ s.pendingEntries p j ≠ 0 then .ready else .idle) ∧
      (s.jobCfgOk p j = false → ((s.writePjobCtl p j v).job p j).state = .disabled ∧
        (s.writePjobCtl p j v).regBit (jobBase p j + Off.pjobStat) 28 = true) := by
  have hfaulted : (s.job p j).state ≠ .faulted := by simp [hdisabled]
  rw [State.writePjobCtl_eq (.inr hdisabled) (.inr hfaulted), if_pos hon, if_pos hdisabled]
  simp only [State.pjobCtlFields, State.setRegField_eq, State.setRegBit_eq]
  generalize hx : putField _ 24 6 _ = x
  generalize hy : putField _ 0 17 _ = y
  generalize hz : putField _ 17 1 _ = z
  generalize ht : ((s.setReg (jobBase p j + Off.pjobCtl) x).setReg (jobBase p j + Off.pjobCtl) y).setReg
    (jobBase p j + Off.pjobCtl) z = t
  have hcfg : t.jobCfgOk p j = s.jobCfgOk p j := by simp only [← ht, State.jobCfgOk_setCtl]
  have hpending : t.pendingEntries p j = s.pendingEntries p j := by simp only [← ht, State.pendingEntries_setCtl]
  have hjob : t.job p j = s.job p j := by simp only [← ht, State.job_setReg]
  clear ht
  have hjoin : ¬(t.job p j).state ≠ .disabled := by rw [hjob]; exact not_not.mpr hdisabled
  unfold State.enableJob
  rw [if_neg hjoin, hcfg]
  refine ⟨fun hok => ?_, fun hbad => ?_⟩
  · rw [if_pos hok, State.state_settleJob, hjob, hpending]
  · rw [hbad, if_neg Bool.false_ne_true]
    refine ⟨?_, State.regBit_setRegBit t (jobBase p j + Off.pjobStat) 28 true⟩
    rw [State.setRegBit_eq, State.job_setReg, hjob, hdisabled]

/-- A write of ENABLE to a job that is not DISABLED, with neither KILL nor CLEAR, leaves its state. -/
theorem State.writePjobCtl_enabled {s : State} {p j v : Nat} (hon : nbit v 17 = true) (hkill : nbit v 31 = false)
    (hclear : nbit v 30 = false) (hactive : (s.job p j).state ≠ .disabled) :
    ((s.writePjobCtl p j v).job p j).state = (s.job p j).state := by
  rw [State.writePjobCtl_eq (.inl hkill) (.inl hclear), if_pos hon, if_neg hactive, State.job_pjobCtlFields]

/-- ENABLE cleared in an IDLE job (R300). -/
theorem State.writePjobCtl_disables {s : State} {p j v : Nat} (hoff : nbit v 17 = false) (hkill : nbit v 31 = false)
    (hidle : (s.job p j).state = .idle) : ((s.writePjobCtl p j v).job p j).state = .disabled := by
  have hfaulted : (s.job p j).state ≠ .faulted := by simp [hidle]
  rw [State.writePjobCtl_eq (.inl hkill) (.inr hfaulted), hoff, if_neg Bool.false_ne_true, if_pos hidle]
  generalize ht : (s.pjobCtlFields p j v).setRegBit (jobBase p j + Off.pjobCtl) 17 false = t
  have hjob : t.job p j = s.job p j := by rw [← ht, State.setRegBit_eq, State.job_setReg, State.job_pjobCtlFields]
  unfold State.disableJob
  rw [if_pos ((congrArg Job.state hjob).trans hidle)]
  simp

/-! ## CLEAR and KILL (R312, R313) -/

theorem State.state_clearFault {s : State} {p j : Nat} (hfaulted : (s.job p j).state = .faulted) :
    ((s.clearFault p j).job p j).state ≠ .faulted := by
  rw [State.clearFault, if_pos hfaulted, State.state_settleJob]
  split <;> decide

/-- A kill begins its drain; with nothing pending and no pre-emption to undo, at once. -/
theorem State.killJob_drains {s : State} {p j : Nat} (window : Nat) (st : Status) (hactive : (s.job p j).state ≠ .disabled)
    (hfirst : (s.job p j).state ≠ .killing) :
    ((s.killJob p j window st).job p j).state = .killing ∧ ((s.killJob p j window st).job p j).killStatus = st ∧
      (s.pendingEntries p j = 0 → (s.job p j).preempting = false →
        ((s.killJob p j window st).job p j).drainStart = s.landing.fclk.toNat ∧
          ((s.killJob p j window st).job p j).drainLen = window) := by
  unfold State.killJob
  split
  next h => exact absurd h hactive
  next h => exact absurd h hfirst
  next =>
    dsimp only
    rw [State.modJob_eq, State.job_setJob, if_pos ⟨rfl, rfl⟩]
    refine ⟨rfl, rfl, fun hpending hpreempting => ?_⟩
    rw [hpending]
    simp only [State.abortEntries, hpreempting, Bool.false_eq_true, if_false, and_self]

/-! ## PRING_TAIL (R301) -/

/-- PRING_TAIL of an IDLE job moved past PRING_HEAD: with room in the ring the job becomes READY, else RING_ERR is set. -/
theorem State.writeTail_idle {s : State} {p j : Nat} {tail : Word} (henabled : (s.part p).state = .enabled)
    (hidle : (s.job p j).state = .idle) (hnone : s.pendingEntries p j = 0)
    (hmoves : tail.toNat ≠ s.reg (jobBase p j + Off.pringHead)) (hhead : s.reg (jobBase p j + Off.pringHead) < 2 ^ 32) :
    ((tail.toNat + 2 ^ 32 - s.reg (jobBase p j + Off.pringHead)) % 2 ^ 32 ≤ 2 ^ s.ringLog2 p j →
        (s.writeTail p j tail).reg (jobBase p j + Off.pringTail) = tail.toNat ∧ ((s.writeTail p j tail).job p j).state = .ready) ∧
      (2 ^ s.ringLog2 p j < (tail.toNat + 2 ^ 32 - s.reg (jobBase p j + Off.pringHead)) % 2 ^ 32 →
        (s.writeTail p j tail).regBit (jobBase p j + Off.pjobStat) 27 = true ∧
          (s.writeTail p j tail).reg (jobBase p j + Off.pringTail) = s.reg (jobBase p j + Off.pringTail)) := by
  have htail := tail.isLt
  have hpend : (tail.toNat + 2 ^ 32 - s.reg (jobBase p j + Off.pringHead)) % 2 ^ 32 ≠ 0 := by omega
  have htaken : (decide ((s.part p).state ≠ .enabled) || decide ((s.job p j).state = .killing)) = false := by
    simp [henabled, hidle]
  unfold State.writeTail
  dsimp only
  generalize (tail.toNat + 2 ^ 32 - s.reg (jobBase p j + Off.pringHead)) % 2 ^ 32 = pend at hpend ⊢
  rw [htaken, if_neg Bool.false_ne_true, hnone]
  refine ⟨fun hroom => ?_, fun hfull => ?_⟩
  · rw [if_neg (by simp [hroom]), if_pos (by simp [State.job_of_parts (State.parts_setReg ..), hidle, hpend])]
    refine ⟨?_, (State.job_becomeReady ..).1⟩
    rw [State.reg_becomeReady, State.reg_setReg, if_pos rfl]
  · rw [if_pos (by simp [hfull])]
    refine ⟨State.regBit_setRegBit .., ?_⟩
    rw [State.setRegBit_eq, State.reg_setReg, if_neg (by simp only [Off.pringTail, Off.pjobStat]; omega)]

/-! ## The commands -/

theorem exec_jobEnable {s : State} {p j : Nat} {value : Word} (htakes : s.takes .pf (jobBase p j + Off.pjobCtl) = true)
    (hon : value.getLsbD 17 = true) : exec (.jobEnable .pf p j value) s = .next (s.writePjobCtl p j value.toNat) := by
  change execJobEnable .pf p j value s = _
  rw [execJobEnable, if_pos hon, State.done_onWrite htakes]

theorem exec_jobDisable {s : State} {p j : Nat} {value : Word} (htakes : s.takes .pf (jobBase p j + Off.pjobCtl) = true)
    (hoff : value.getLsbD 17 = false) : exec (.jobDisable .pf p j value) s = .next (s.writePjobCtl p j value.toNat) := by
  change execJobDisable .pf p j value s = _
  rw [execJobDisable, hoff, if_neg Bool.false_ne_true, State.done_onWrite htakes]

theorem ofNat_high_half (x : BitVec 64) : BitVec.ofNat 32 (x.toNat / 2 ^ 32) = x.extractLsb' 32 32 := by
  rw [BitVec.extractLsb', Nat.shiftRight_eq_div_pow]

/-- A read of PJOB_ACCT_LO holds the account's high half for the read that follows (Table 09-12). -/
theorem exec_pjobAcctLoRead {s : State} {p j : Nat} (htakes : s.takes .pf (jobBase p j + Off.pjobCtl) = true) :
    ∃ n, exec (.pjobAcctLoRead .pf p j) s = .next n ∧ (n.job p j).acctHi = (s.job p j).account.extractLsb' 32 32 ∧
      (n.job p j).account = (s.job p j).account := by
  refine ⟨_, State.done_onWrite htakes _, ?_⟩
  rw [State.modJob_eq, State.job_setJob, if_pos ⟨rfl, rfl⟩]
  exact ⟨ofNat_high_half _, rfl⟩

/-- Settles O34: each command is its register's write, and the job's state decides what the write does. -/
theorem jobRegisters : Obligations.JobRegisters := by
  intro s p j value tail htakes
  refine ⟨fun hon hdisabled _ _ => ?_, fun hon hclear hkill hactive => ?_, fun hoff hkill hidle => ?_, fun hfaulted => ?_,
    fun hactive hfirst => ?_, exec_pjobAcctLoRead htakes, fun htail henabled hidle hnone hmoves hhead => ?_⟩
  · exact ⟨_, exec_jobEnable htakes hon, State.writePjobCtl_enables hon hdisabled⟩
  · exact ⟨_, exec_jobEnable htakes hon, State.writePjobCtl_enabled hon hkill hclear hactive⟩
  · exact ⟨_, exec_jobDisable htakes hoff, State.writePjobCtl_disables hoff hkill hidle⟩
  · exact ⟨_, State.done_onWrite htakes _, State.state_clearFault hfaulted⟩
  · exact ⟨_, State.done_onWrite htakes _, State.killJob_drains _ _ hactive hfirst⟩
  · exact ⟨_, State.done_onWrite htail _, State.writeTail_idle henabled hidle hnone hmoves hhead⟩

end Sys2Proof.Machine
end

section
/-! The power ladder. A group's power state is a field of its own: a step down or up changes nothing but it, save for the exit
from G4, whose tower starts afresh. -/

namespace Sys2Proof.Machine

set_option Elab.async false

theorem State.pstate_setPower (s : State) (g : Nat) (x : PState) : ((s.setPower g x).group g).pstate = x := by
  simp [State.setPower]

theorem State.tower_setPower (s : State) (g k : Nat) (x : PState) : (s.setPower g x).tower k = s.tower k := rfl

/-! ## Down the ladder (Table 09-8) -/

section
variable {s : State} {g : Nat}

theorem exec_g1Entry (hstate : (s.group g).pstate = .g0) (hfloor : 1 ≤ s.ladderFloor g) (hidle : s.groupIdle g = true)
    (hgoes : s.stopped = false) : exec (.g1Entry g) s = .next (s.setPower g .g1) := by
  change execG1Entry g s = _
  exact if_pos (by simp [hstate, hfloor, hidle, hgoes])

theorem exec_g2Entry (hstate : (s.group g).pstate = .g1) (hfloor : 2 ≤ s.ladderFloor g) (hidle : s.groupIdle g = true)
    (hmoves : s.towerMoves g = false) (hgoes : s.stopped = false) : exec (.g2Entry g) s = .next (s.setPower g .g2) := by
  change execG2Entry g s = _
  exact if_pos (by simp [hstate, hfloor, hidle, hmoves, hgoes])

theorem exec_g3Entry (hstate : (s.group g).pstate = .g2) (hfloor : 3 ≤ s.ladderFloor g)
    (hallowed : s.regBit (govBase + Off.govGrpCfg + 4 * g) 3 = true) (hshut : s.mayShut g = true) :
    exec (.g3Entry g) s = .next (s.setPower g .g3) := by
  change execG3Entry g s = _
  exact if_pos (by simp only [hstate, hfloor, hallowed, hshut, decide_true, Bool.and_self])

theorem exec_g4Entry (hstate : (s.group g).pstate = .g2 ∨ (s.group g).pstate = .g3) (htarget : s.target g = 4)
    (hshut : s.mayShut g = true) : exec (.g4Entry g) s = .next (s.setPower g .g4) := by
  change execG4Entry g s = _
  unfold execG4Entry
  dsimp only
  rcases hstate with h | h <;> rw [h, htarget, hshut] <;> rfl

end

/-! ## Up the ladder (Table 09-9) -/

/-- Work finds the memories of a group in G1 or G2 as it left them: the wake moves its power state alone. -/
theorem State.wake_shallow {s : State} {g : Nat} (h : (s.group g).pstate = .g1 ∨ (s.group g).pstate = .g2) :
    s.wake g = s.setPower g .g0 := by
  unfold State.wake
  rcases h with h | h <;> rw [h] <;> rfl

theorem exec_groupWake {s : State} {g : Nat} (hwanted : s.groupWanted g = true) (hgoes : s.stopped = false) :
    exec (.groupWake g) s = .next (s.wake g) := by
  change execGroupWake g s = _
  exact if_pos (by simp [hwanted, hgoes])

theorem exec_g4ExitDone {s : State} {g : Nat} (hstate : (s.group g).pstate = .g4) (htarget : s.target g = 0)
    (hserves : (s.group g).outOfService = false) (htest : (s.group g).testing = false) (hunit : g < s.units)
    (hready : s.ready = true) (hgoes : s.stopped = false) :
    exec (.g4ExitDone g) s = .next ((s.exitG4 g).setPower g .g1) := by
  change execG4ExitDone g s = _
  exact if_pos (by simp only [hstate, htarget, hserves, htest, hunit, hready, hgoes, decide_true, Bool.not_false, Bool.and_self])

theorem State.towers_resetRegs (v : State → Nat → Nat) (l : List Nat) (s : State) :
    (l.foldl (fun u a => u.setReg a (v u a)) s).towers = s.towers :=
  foldl_keeps State.towers (fun u a => State.towers_setReg u a _) l s

theorem State.towers_exitG4 (s : State) (g : Nat) : (s.exitG4 g).towers = (s.modTower g Tower.afterG4).towers := by
  delta State.exitG4
  generalize keepRegs g = addresses
  as_aux_lemma => exact State.towers_resetRegs _ addresses (s.modTower g Tower.afterG4)

/-- Of the towers, the exit from G4 changes that of the group alone. -/
theorem State.tower_exitG4 (s : State) (g k : Nat) :
    (s.exitG4 g).tower k = if k = g then (s.tower g).afterG4 else s.tower k := by
  unfold State.tower
  rw [State.towers_exitG4]
  exact mget_mset ..

/-- Settles O38: each condition of the table lets its step through, and the step moves the power state. -/
theorem powerLadder : Obligations.PowerLadder := by
  intro s g hgoes
  refine ⟨fun h hfloor hidle => ?_, fun h hfloor hidle hmoves => ?_, fun h hfloor hallowed hshut => ?_,
    fun h htarget hshut => ?_, fun h hwanted => ?_, fun h htarget hserves htest hunit hready => ?_⟩
  · exact ⟨_, exec_g1Entry h hfloor hidle hgoes, s.pstate_setPower g _, rfl, rfl⟩
  · exact ⟨_, exec_g2Entry h hfloor hidle hmoves hgoes, s.pstate_setPower g _, rfl, rfl⟩
  · exact ⟨_, exec_g3Entry h hfloor hallowed hshut, s.pstate_setPower g _, rfl⟩
  · exact ⟨_, exec_g4Entry h htarget hshut, s.pstate_setPower g _, rfl⟩
  · refine ⟨_, exec_groupWake hwanted hgoes, ?_⟩
    rw [State.wake_shallow h]
    exact ⟨s.pstate_setPower g _, rfl, rfl⟩
  · have hafter : ((s.exitG4 g).setPower g .g1).tower g = (s.tower g).afterG4 := by
      rw [State.tower_setPower, State.tower_exitG4, if_pos rfl]
    refine ⟨_, exec_g4ExitDone h htarget hserves htest hunit hready hgoes, State.pstate_setPower .., ?_, ?_, fun k hk => ?_⟩
    · rw [hafter]
      rfl
    · rw [hafter]
      rfl
    · rw [State.tower_setPower, State.tower_exitG4, if_neg hk]

end Sys2Proof.Machine
end

section
/-! An engine at work. The completion record of a transfer is a write to memory, which may log, repair, wake a group and mark the
channel, but leaves each engine to the channel that holds it. -/

namespace Sys2Proof.Machine

set_option Elab.async false

/-- The channel that holds each engine. -/
def State.holders (s : State) : Nat → Option Nat := fun e => (s.engine e).busy

/-! ## The holders of the engines after each operation on memory -/

theorem State.modTower_holders (s : State) (t : Nat) (f : Tower → Tower) : (s.modTower t f).holders = s.holders := rfl

theorem State.setTower_holders (s : State) (t : Nat) (x : Tower) : (s.setTower t x).holders = s.holders := rfl

theorem State.modGroup_holders (s : State) (g : Nat) (f : Group → Group) : (s.modGroup g f).holders = s.holders := rfl

theorem State.modLanding_holders (s : State) (f : Landing → Landing) : (s.modLanding f).holders = s.holders := rfl

theorem State.tick_holders (s : State) : s.tick.holders = s.holders := rfl

/-- A channel written leaves its engine to the channel that holds it. -/
theorem State.setChan_holders (s : State) (e c : Nat) (x : Channel) : (s.setChan e c x).holders = s.holders := by
  funext i
  unfold State.holders
  rw [State.engine_setChan]
  split
  next h => rw [h]
  next => rfl

theorem State.modChan_holders (s : State) (e c : Nat) (f : Channel → Channel) : (s.modChan e c f).holders = s.holders :=
  State.setChan_holders ..

theorem State.logError_holders (s : State) (e : ErrRec) : (s.logError e).holders = s.holders := by
  unfold State.logError
  split
  · rfl
  · split <;> rfl

theorem State.reportCe_holders (s : State) (pl : Place) (symbols : Nat) : (s.reportCe pl symbols).holders = s.holders := by
  unfold State.reportCe
  grind [State.logError_holders, State.setTower_holders]

theorem State.reportUe_holders (s : State) (pl : Place) : (s.reportUe pl).holders = s.holders := by
  unfold State.reportUe
  exact State.logError_holders ..

theorem State.writeJournal_holders (s : State) (kind unit floor bank place : Nat) :
    (s.writeJournal kind unit floor bank place).1.holders = s.holders := by
  unfold State.writeJournal
  split <;> rfl

theorem State.bankOut_holders (s : State) (pl : Place) : (s.bankOut pl).holders = s.holders := by
  unfold State.bankOut
  dsimp only
  split
  · rfl
  · exact State.logError_holders ..

theorem State.startColumn_holders (s : State) (pl : Place) : (s.startColumn pl).holders = s.holders := by
  unfold State.startColumn
  grind [State.bankOut_holders, State.setTower_holders]

theorem State.repairRow_holders (s : State) (pl : Place) (w : Nat) : (s.repairRow pl w).holders = s.holders := by
  unfold State.repairRow
  grind [State.bankOut_holders, State.startColumn_holders, State.logError_holders, State.writeJournal_holders,
    State.setTower_holders]

theorem State.report_holders (s : State) (pl : Place) (f : Finding) : (s.report pl f).holders = s.holders := by
  unfold State.report
  grind [State.reportCe_holders, State.reportUe_holders]

theorem State.readTower_holders (s : State) (pl : Place) (u : Upset) : (s.readTower pl u).1.holders = s.holders := by
  unfold State.readTower
  grind [State.report_holders, State.repairRow_holders, State.modTower_holders, State.setTower_holders, State.tick_holders]

theorem State.writeTower_holders (s : State) (pl : Place) (d : Memory) (poison : Bool) :
    (s.writeTower pl d poison).holders = s.holders := rfl

theorem State.narrowTower_holders (s : State) (pl : Place) (off : Nat) (bs : List Byte) (u : Upset) :
    (s.narrowTower pl off bs u).holders = s.holders := by
  unfold State.narrowTower
  grind [State.readTower_holders, State.writeTower_holders]

theorem State.wake_holders (s : State) (g : Nat) : (s.wake g).holders = s.holders := by
  unfold State.wake
  split <;> rfl

theorem State.wakeTower_holders (s : State) (g : Nat) : (s.wakeTower g).holders = s.holders := by
  unfold State.wakeTower
  grind [State.wake_holders]

theorem State.logUnmapped_holders (s : State) (ag : Agent) (p t a : Nat) (dark completion : Bool) :
    (s.logUnmapped ag p t a dark completion).holders = s.holders := State.logError_holders ..

theorem State.markDegraded_holders (s : State) (ag : Agent) (t : Nat) : (s.markDegraded ag t).holders = s.holders := by
  unfold State.markDegraded
  grind [State.modChan_holders]

theorem State.admitAccess_holders (s : State) (ag : Agent) (p a : Nat) (pl : Place) (write completion : Bool) :
    (s.admitAccess ag p a pl write completion).1.holders = s.holders := by
  unfold State.admitAccess
  grind [State.logUnmapped_holders, State.markDegraded_holders, State.wakeTower_holders]

theorem State.readScratch_holders (s : State) (p k off : Nat) (u : Upset) : (s.readScratch p k off u).1.holders = s.holders := by
  unfold State.readScratch
  dsimp only
  split
  · rfl
  · split
    · exact State.logError_holders ..
    · exact State.logError_holders ..
  · rfl

theorem State.writeScratch_holders (s : State) (k off : Nat) (d : Memory) (poison : Bool) :
    (s.writeScratch k off d poison).holders = s.holders := rfl

theorem State.narrowScratch_holders (s : State) (p k off : Nat) (bs : List Byte) (u : Upset) :
    (s.narrowScratch p k off bs u).holders = s.holders := by
  unfold State.narrowScratch
  grind [State.readScratch_holders, State.writeScratch_holders]

theorem State.putLine_holders (s : State) (k : Nat) (l : Line) : (s.putLine k l).holders = s.holders := rfl

theorem State.dropLine_holders (s : State) (k p la : Nat) : (s.dropLine k p la).holders = s.holders := rfl

theorem State.writeLineWord_holders (s : State) (l : Line) (i : Nat) : (s.writeLineWord l i).holders = s.holders := by
  unfold State.writeLineWord
  split <;> rfl

theorem State.writeBack_holders (s : State) (k : Nat) (l : Line) : (s.writeBack k l).holders = s.holders := by
  unfold State.writeBack
  split
  · rfl
  · dsimp only
    split
    · exact (foldl_keeps State.holders (fun s i => s.writeLineWord_holders l i) _ _).trans (State.admitAccess_holders ..)
    · exact State.admitAccess_holders ..

theorem State.cleanLine_holders (s : State) (k p la : Nat) : (s.cleanLine k p la).holders = s.holders := by
  unfold State.cleanLine
  grind [State.putLine_holders, State.writeBack_holders]

theorem State.makeRoom_holders (s : State) (k p la : Nat) : (s.makeRoom k p la).holders = s.holders := by
  unfold State.makeRoom
  grind [State.cleanLine_holders, State.dropLine_holders, State.tick_holders]

theorem State.addLine_holders (s : State) (k : Nat) (l : Line) : (s.addLine k l).holders = s.holders :=
  (State.putLine_holders ..).trans (State.makeRoom_holders ..)

theorem State.dropAll_holders (s : State) (p la : Nat) : (s.dropAll p la).holders = s.holders := by
  unfold State.dropAll
  exact foldl_keeps State.holders (fun s k => (State.dropLine_holders ..).trans (s.cleanLine_holders k p la)) _ _

theorem State.fillWords_holders (s : State) (p la n i : Nat) : (s.fillWords p la n i).1.holders = s.holders := by
  induction n generalizing i with
  | zero => rfl
  | succ n ih =>
    have hlater := ih (i + 1)
    unfold State.fillWords
    grind [State.readTower_holders]

theorem State.getLine_holders (s : State) (k p la : Nat) : (s.getLine k p la).1.holders = s.holders := by
  unfold State.getLine
  grind [State.fillWords_holders]

theorem State.dropOthers_holders (s : State) (k p la : Nat) : (s.dropOthers k p la).holders = s.holders :=
  foldl_keeps State.holders (fun _ _ => by split <;> rfl) _ _

theorem State.writeCached_holders (s : State) (k p a : Nat) (bs : List Byte) : (s.writeCached k p a bs).holders = s.holders := by
  unfold State.writeCached
  grind [State.getLine_holders, State.dropOthers_holders, State.addLine_holders, State.dropAll_holders, State.writeTower_holders,
    State.narrowTower_holders]

theorem State.putHost_holders (s : State) (a : Nat) (bs : List Byte) : (s.putHost a bs).holders = s.holders := rfl

theorem State.writeWord_holders (s : State) (ag : Agent) (p a : Nat) (bs : List Byte) (poison completion : Bool) :
    (s.writeWord ag p a bs poison completion).1.holders = s.holders := by
  unfold State.writeWord
  grind [State.admitAccess_holders, State.writeScratch_holders, State.narrowScratch_holders, State.writeTower_holders,
    State.narrowTower_holders, State.dropAll_holders, State.writeCached_holders, State.putHost_holders]

theorem State.writeRun_holders (s : State) (ag : Agent) (p a : Nat) (bs : List Byte) (poison : List Nat) (completion : Bool) :
    (s.writeRun ag p a bs poison completion).1.holders = s.holders := by
  unfold State.writeRun
  generalize bs.length / 32 + 2 = n
  generalize 0 = i
  induction n generalizing s i a bs with
  | zero => rfl
  | succ n ih =>
    unfold State.writeRunGo
    grind [State.writeWord_holders]

theorem State.writeRecord_holders (s : State) (ag : Agent) (p a : Nat) (rec : List Byte) :
    (s.writeRecord ag p a rec).holders = s.holders := by
  unfold State.writeRecord
  grind [State.writeRun_holders, State.logError_holders]

/-- The record of a transfer leaves each engine to the channel that holds it. -/
theorem State.dmaRecord_holders (s : State) (e c : Nat) (st : Status) (late : Bool) :
    (s.dmaRecord e c st late).holders = s.holders := by
  unfold State.dmaRecord
  grind [State.writeRun_holders, State.writeRecord_holders]

/-! ## The end of a chain (R350) -/

theorem State.engines_modContext (s : State) (p j c : Nat) (f : Core → Core) : (s.modContext p j c f).engines = s.engines := by
  unfold State.modContext
  split <;> rfl

theorem State.engines_signalPart (s : State) (p v : Nat) : (s.signalPart p v).engines = s.engines := by
  obtain ⟨l, h⟩ := s.signalPart_frame p v
  rw [h]

/-- A channel at the end of its chain. -/
def Channel.ended (ch : Channel) (st : Status) (flags : Nat) (halt : Bool) : Channel :=
  { state := if halt then .halted else .idle, status := st, flags := flags, part := ch.part, kicker := ch.kicker,
    descAddr := ch.descAddr, prog := ch.prog, descHi := ch.descHi, progHi := ch.progHi, covered := ch.covered }

/-- An engine that the channel holds no longer. -/
def Engine.release (c : Nat) (g : Engine) : Engine := { g with busy := if g.busy = some c then none else g.busy }

/-- Of the engines, the end of a chain writes the channel and takes the engine from it: flags and interrupts are elsewhere. -/
theorem State.engines_chainEnd (s : State) (e c : Nat) (st : Status) (flags : Nat) (halt : Bool) :
    (s.chainEnd e c st flags halt).engines =
      (((s.endLoad e c).setChan e c ((s.chan e c).ended st flags halt)).modEngine e (Engine.release c)).engines := by
  unfold State.chainEnd
  extract_lets ch ended released shown v
  have hshown : shown.engines = released.engines := State.engines_setReg ..
  change _ = released.engines
  clear_value shown v
  split
  · dsimp only
    split
    · exact (State.engines_signalPart ..).trans ((State.engines_modContext ..).trans hshown)
    · exact (State.engines_modContext ..).trans hshown
  · exact hshown
  · split
    · split
      · exact (State.engines_signalPart ..).trans hshown
      · exact hshown
    · exact hshown

theorem State.endLoad_holders (s : State) (e c : Nat) : (s.endLoad e c).holders = s.holders := by
  unfold State.endLoad
  split
  · funext i
    unfold State.holders
    rw [State.modEngine_eq, State.engine_setEngine]
    split
    next h => rw [h]
    next => rfl
  · rfl

theorem State.engine_chainEnd (s : State) (e c : Nat) (st : Status) (flags : Nat) (halt : Bool) :
    (s.chainEnd e c st flags halt).engine e =
      Engine.release c (((s.endLoad e c).setChan e c ((s.chan e c).ended st flags halt)).engine e) := by
  unfold State.engine
  rw [State.engines_chainEnd]
  exact (mget_mset ..).trans (if_pos rfl)

theorem State.chan_chainEnd (s : State) (e c : Nat) (st : Status) (flags : Nat) (halt : Bool) :
    (s.chainEnd e c st flags halt).chan e c = (s.chan e c).ended st flags halt := by
  have hset := (s.endLoad e c).chan_setChan e c e c ((s.chan e c).ended st flags halt)
  rw [if_pos ⟨rfl, rfl⟩] at hset
  unfold State.chan at hset ⊢
  rw [State.engine_chainEnd]
  exact hset

/-- A chain that ends gives up the engine that its channel holds. -/
theorem State.busy_chainEnd {s : State} {e c : Nat} (h : (s.engine e).busy = some c) (st : Status) (flags : Nat) (halt : Bool) :
    ((s.chainEnd e c st flags halt).engine e).busy = none := by
  have hheld : (((s.endLoad e c).setChan e c ((s.chan e c).ended st flags halt)).engine e).busy = some c :=
    (congrFun ((State.setChan_holders ..).trans (State.endLoad_holders ..)) e).trans h
  rw [State.engine_chainEnd]
  exact if_pos hheld

/-! ## The commands -/

section
variable {s : State} {e c : Nat}

theorem exec_dmaChannelSelect (hruns : s.engineRuns e = true) (hfree : (s.engine e).busy = none)
    (hnext : s.nextChannel e = some c) :
    exec (.dmaChannelSelect e) s = .next ((s.modEngine e fun g => { g with busy := some c, last := c }).modChan e c fun x =>
      { x with state := .running, park := none }) := by
  change execDmaChannelSelect e s = _
  unfold execDmaChannelSelect
  rw [if_pos (by simp [hruns, hfree]), hnext]
  rfl

/-- The engine takes up the descriptor that its channel was given. -/
theorem exec_dmaDescriptorFetch_given {d : DmaDesc} (hruns : s.engineRuns e = true) (hbusy : (s.engine e).busy = some c)
    (hnone : (s.chan e c).desc = none) (habort : (s.chan e c).abort = none) (hgiven : (s.chan e c).given = some d) :
    exec (.dmaDescriptorFetch e) s = .next ((s.takeDesc e c 0 d).modChan e c fun x => { x with lastIrq := d.irq }) := by
  change execDmaDescriptorFetch e s = _
  unfold execDmaDescriptorFetch
  simp only [hbusy, hruns, hnone, habort, hgiven, Option.isSome_none, Bool.not_true, Bool.or_self, Bool.false_eq_true, if_false]
  rfl

theorem exec_dmaDescriptorFetch_fails {st : Status} (hruns : s.engineRuns e = true) (hbusy : (s.engine e).busy = some c)
    (hnone : (s.chan e c).desc = none) (habort : (s.chan e c).abort = none) (hgiven : (s.chan e c).given = none)
    (hread : (s.readDma e (s.chan e c).part (s.chan e c).chain).2 = .error st) :
    exec (.dmaDescriptorFetch e) s =
      .next ((s.readDma e (s.chan e c).part (s.chan e c).chain).1.chainEnd e c st 0 true) := by
  change execDmaDescriptorFetch e s = _
  unfold execDmaDescriptorFetch
  simp only [hbusy, hruns, hnone, habort, hgiven, Option.isSome_none, Bool.not_true, Bool.or_self, Bool.false_eq_true, if_false]
  generalize s.readDma e (s.chan e c).part (s.chan e c).chain = r at hread ⊢
  obtain ⟨t, x⟩ := r
  subst hread
  rfl

/-- The account of a unit changes its channel alone: what the tolls still cover, and where the channel stands. -/
theorem State.afterUnit_account (s : State) (e c before : Nat) :
    ((s.afterUnit e c before).chan e c).covered = (s.chan e c).covered - ((s.chan e c).moved - before) ∧
      ((s.afterUnit e c before).chan e c).prog = (s.chan e c).prog ∧ (s.afterUnit e c before).towers = s.towers ∧
      (s.afterUnit e c before).cores = s.cores ∧ (s.afterUnit e c before).hostMem = s.hostMem := by
  unfold State.afterUnit
  dsimp only
  split
  · refine ⟨?_, ?_, rfl, rfl, rfl⟩ <;> rw [State.chan_setChan, if_pos ⟨rfl, rfl⟩]
  · refine ⟨?_, ?_, rfl, rfl, rfl⟩ <;> simp [State.parkChannel, State.chan, State.setChan]

/-- A burst of a transfer in progress is its next unit, where the tolls cover it and nothing stops the channel. -/
theorem exec_dmaBurst_moved {d : DmaDesc} {paid moved : State} (hruns : s.engineRuns e = true)
    (hbusy : (s.engine e).busy = some c) (hdesc : (s.chan e c).desc = some d) (hfinal : (s.chan e c).final = false)
    (habort : (s.chan e c).abort = none) (hpaused : s.chanPaused e c = false) (hbrake : s.gov.brakes = [])
    (hpay : s.payDma e c (s.chan e c).nextBytes d.cls = some paid) (hmove : paid.moveUnit e c d = (moved, .moved)) :
    exec (.dmaBurst e) s = .next (moved.afterUnit e c (s.chan e c).moved) := by
  change done (s.burst e) = _
  unfold State.burst
  simp only [hbusy, hdesc, hruns, hfinal, habort, hpaused, hbrake, hpay, hmove, Bool.not_true, Bool.or_self, Bool.false_eq_true,
    if_false, ne_eq, not_true_eq_false]
  rfl

theorem exec_rateGapEnd (hruns : s.runs = true) (hstate : (s.chan e c).state = .parked) (hpark : (s.chan e c).park = some .gap) :
    exec (.rateGapEnd e c) s = .next (s.setChan e c { s.chan e c with state := .running, park := none }) := by
  change execRateGapEnd e c s = _
  unfold execRateGapEnd
  simp only [hruns, hstate, hpark, Bool.not_true, Bool.false_eq_true, if_false, decide_true, Bool.and_self, if_true]
  rfl

theorem exec_dmaTransferEnd {d : DmaDesc} (hruns : s.engineRuns e = true) (hbusy : (s.engine e).busy = some c)
    (hdesc : (s.chan e c).desc = some d) (hfinal : (s.chan e c).final = true) (habort : (s.chan e c).abort = none)
    (hchain : (s.chan e c).chain = 0) :
    exec (.dmaTransferEnd e) s = .next ((s.dmaRecord e c (s.chan e c).ownStatus false).chainEnd e c (s.chan e c).ownStatus
      (recordFlags false (s.chan e c).degraded (s.chan e c).fp) false) := by
  change execDmaTransferEnd e s = _
  unfold execDmaTransferEnd
  simp only [hbusy, hdesc, hruns, hfinal, habort, hchain, Bool.not_true, Bool.or_self, Bool.false_eq_true, if_false, if_true]
  rfl

end

/-- Settles O42: each command is one step of the engine, and a chain that ends finds its channel still holding the engine. -/
theorem dmaEngineWorks : Obligations.DmaEngineWorks := by
  intro s e c d st hruns
  refine ⟨fun hfree hnext => ?_, fun hbusy hnone habort => ⟨fun hgiven => ?_, fun hgiven hread => ?_⟩,
    fun hbusy hdesc hfinal habort hpaused hbrake => ?_, fun hrun hstate hpark => ?_,
    fun hbusy hdesc hfinal habort hchain => ?_⟩
  · refine ⟨_, exec_dmaChannelSelect hruns hfree hnext, ?_⟩
    simp [State.engine_setChan]
  · refine ⟨_, exec_dmaDescriptorFetch_given hruns hbusy hnone habort hgiven, ?_⟩
    simp [State.takeDesc]
  · refine ⟨_, exec_dmaDescriptorFetch_fails hruns hbusy hnone habort hgiven hread, ?_⟩
    rw [State.chan_chainEnd]
    exact ⟨rfl, rfl⟩
  · intro pay r hpays hmoves
    obtain ⟨paid, hpay⟩ := Option.isSome_iff_exists.mp hpays
    have hr : r = paid.moveUnit e c d := by simp only [r, pay, hpay, Option.getD_some]
    exact ⟨_, exec_dmaBurst_moved hruns hbusy hdesc hfinal habort hpaused hbrake hpay (moved := r.1) (by rw [← hr, ← hmoves]),
      State.afterUnit_account ..⟩
  · refine ⟨_, exec_rateGapEnd hrun hstate hpark, ?_⟩
    simp
  · refine ⟨_, exec_dmaTransferEnd hruns hbusy hdesc hfinal habort hchain, ?_, ?_, ?_⟩
    · rw [State.chan_chainEnd]
      rfl
    · rw [State.chan_chainEnd]
      rfl
    · exact State.busy_chainEnd ((congrFun (State.dmaRecord_holders ..) e).trans hbusy) ..

end Sys2Proof.Machine
end

section
/-! The registers of the DMA channels. A write that is taken is its register's operation, and a kick or an abort of a channel is
decided by the channel's state. -/

namespace Sys2Proof.Machine

set_option Elab.async false

/-! ## Kicks (R335, R364, R365) -/

/-- A chain begins on its channel whether or not the group had to wake for it. -/
theorem State.chan_startChain (s : State) (e c p a : Nat) (k : Kicker) :
    ((s.startChain e c p a k).chan e c).state = .running ∧ ((s.startChain e c p a k).chan e c).chain = a ∧
      ((s.startChain e c p a k).chan e c).part = p ∧ ((s.startChain e c p a k).chan e c).kicker = k := by
  unfold State.startChain State.beginChain
  rw [State.chan_setChan, if_pos ⟨rfl, rfl⟩]
  exact ⟨rfl, rfl, rfl, rfl⟩

section
variable {s : State} {e c p a : Nat}

theorem State.kick_free (hfree : (s.chan e c).free = true) (hjob : s.channelJob e c = none) (hpart : s.chanPart e c < s.units)
    (henabled : (s.part (s.chanPart e c)).state = .enabled) : s.kick e c a = s.startChain e c (s.chanPart e c) a .pf := by
  unfold State.kick
  exact if_pos (by simp [hfree, hjob, hpart, henabled])

theorem State.kick_busy (hbusy : (s.chan e c).free = false) : s.kick e c a = s.setRegBit (chanReg e c Off.chStat) 27 true := by
  unfold State.kick
  exact if_neg (by simp [hbusy])

theorem State.kickHost_free (hc : c < 15) (hpart : s.chanPart (12 + e % 2) c = p) (hfree : (s.chan (12 + e % 2) c).free = true)
    (henabled : (s.part p).state = .enabled) : s.kickHost p e c a = s.startChain (12 + e % 2) c p a .phdma := by
  unfold State.kickHost
  dsimp only
  rw [if_neg (by simp [hc, hpart, hfree]), if_neg (by simp [henabled])]

theorem State.kickHost_busy (hbusy : (s.chan (12 + e % 2) c).free = false) :
    s.kickHost p e c a = s.setRegBit (partBase p + Off.phdmaStat) 0 true := by
  unfold State.kickHost
  exact if_pos (by simp [hbusy])

/-! ## Aborts (R354) -/

theorem State.abortChannel_free (st : Status) (hfree : (s.chan e c).free = true) : s.abortChannel e c st = s := by
  unfold State.abortChannel
  dsimp only
  split
  · rfl
  · rfl
  next hidle hhalted =>
    unfold Channel.free at hfree
    split at hfree
    next h => exact absurd h hidle
    next h => exact absurd h hhalted
    next => exact absurd hfree Bool.false_ne_true

theorem State.abortChannel_holding (st : Status) (hstate : (s.chan e c).state = .running) (hbusy : (s.engine e).busy = some c) :
    s.abortChannel e c st = s.setChan e c { s.chan e c with abort := some st } := by
  unfold State.abortChannel
  simp only [hstate, hbusy, decide_true, Bool.and_self, if_true]

theorem State.abortChannel_waiting (st : Status) (hstate : (s.chan e c).state = .parked ∨ (s.chan e c).state = .paused) :
    s.abortChannel e c st = s.acceptAbort e c st := by
  unfold State.abortChannel
  rcases hstate with h | h <;> simp [h]

/-- A channel that accepts an abort is halted with the abort's status. -/
theorem State.chan_acceptAbort (s : State) (e c : Nat) (st : Status) :
    ((s.acceptAbort e c st).chan e c).state = .halted ∧ ((s.acceptAbort e c st).chan e c).status = st := by
  unfold State.acceptAbort
  dsimp only
  split
  · rw [State.chan_chainEnd]
    exact ⟨rfl, rfl⟩
  · split
    · rw [State.chan_chainEnd]
      exact ⟨rfl, rfl⟩
    · rw [State.chan_chainEnd]
      exact ⟨rfl, rfl⟩

/-! ## The commands -/

section
variable (hexists : s.channelExists e c = true)
include hexists

theorem exec_chKick (chain : BitVec 48) (htakes : s.takes .pf (chanReg e c Off.chKick) = true) :
    exec (.chKick .pf e c chain) s = .next (s.kick e c chain.toNat) := by
  change execChKick .pf e c chain s = _
  unfold execChKick
  rw [if_neg (by simp [hexists])]
  exact State.done_onWrite htakes _

theorem exec_abort (htakes : s.takes .pf (chanReg e c Off.chCtl) = true) :
    exec (.abort .pf e c) s = .next (s.abortChannel e c .aborted) := by
  change execAbort .pf e c s = _
  unfold execAbort
  rw [if_neg (by simp [hexists])]
  exact State.done_onWrite htakes _

theorem exec_chDescLoRead (htakes : s.takes .pf (chanReg e c Off.chKick) = true) :
    exec (.chDescLoRead .pf e c) s = .next (s.modChan e c fun x => { x with descHi := x.descAddr / 2 ^ 32 }) := by
  change execChDescLoRead .pf e c s = _
  unfold execChDescLoRead
  rw [if_neg (by simp [hexists])]
  exact State.done_onWrite htakes _

theorem exec_chProgLoRead (htakes : s.takes .pf (chanReg e c Off.chKick) = true) :
    exec (.chProgLoRead .pf e c) s = .next (s.modChan e c fun x => { x with progHi := x.prog / 2 ^ 32 }) := by
  change execChProgLoRead .pf e c s = _
  unfold execChProgLoRead
  rw [if_neg (by simp [hexists])]
  exact State.done_onWrite htakes _

end

theorem exec_phdmaKick (chain : BitVec 48) (htakes : s.takes .pf (partBase p + Off.phdmaKick) = true) :
    exec (.phdmaKick .pf p e c chain) s = .next (s.kickHost p e c chain.toNat) := by
  change execPhdmaKick .pf p e c chain s = _
  unfold execPhdmaKick
  exact State.done_onWrite htakes _

end

/-- Settles O41: each command is its register's operation, which the state of the channel decides. -/
theorem dmaRegisters : Obligations.DmaRegisters := by
  intro s e c p chain hexists
  refine ⟨fun htakes => ⟨fun hfree hjob hpart henabled => ?_, fun hbusy => ?_, ?_, ?_⟩,
    fun htakes henabled hc hlow hhigh hpart => ?_, fun htakes => ⟨fun hstate => ?_, fun hstate hbusy => ?_, fun hfree => ?_⟩⟩
  · refine ⟨_, exec_chKick hexists chain htakes, ?_⟩
    rw [State.kick_free hfree hjob hpart henabled]
    exact s.chan_startChain e c _ _ _
  · refine ⟨_, exec_chKick hexists chain htakes, ?_⟩
    rw [State.kick_busy hbusy]
    exact ⟨State.engines_setReg .., s.regBit_setRegBit _ _ _⟩
  · refine ⟨_, exec_chDescLoRead hexists htakes, ?_, rfl⟩
    rw [State.modChan_eq, State.chan_setChan, if_pos ⟨rfl, rfl⟩]
  · refine ⟨_, exec_chProgLoRead hexists htakes, ?_, rfl⟩
    rw [State.modChan_eq, State.chan_setChan, if_pos ⟨rfl, rfl⟩]
  · have hengine : 12 + (e - 12) % 2 = e := by omega
    refine ⟨fun hfree => ⟨_, exec_phdmaKick chain htakes, ?_⟩, fun hbusy => ⟨_, exec_phdmaKick chain htakes, ?_⟩⟩
    · rw [State.kickHost_free hc (by rwa [hengine]) (by rwa [hengine]) henabled, hengine]
      obtain ⟨hstate, hchain, -, hkicker⟩ := s.chan_startChain e c p chain.toNat .phdma
      exact ⟨hstate, hchain, hkicker⟩
    · rw [State.kickHost_busy (by rwa [hengine])]
      exact ⟨State.engines_setReg .., s.regBit_setRegBit _ _ _⟩
  · refine ⟨_, exec_abort hexists htakes, ?_⟩
    rw [State.abortChannel_waiting _ hstate]
    exact s.chan_acceptAbort e c _
  · refine ⟨_, exec_abort hexists htakes, ?_⟩
    rw [State.abortChannel_holding _ hstate hbusy, State.chan_setChan, if_pos ⟨rfl, rfl⟩]
    exact ⟨rfl, hstate, rfl⟩
  · rw [exec_abort hexists htakes, State.abortChannel_free _ hfree]

end Sys2Proof.Machine
end

section
/-! The transfers of each mode, and the link expander. A transfer whose next unit is its last is one burst, and beside their own
channel's mark the writes of an expanded block leave the engines as they are. -/

namespace Sys2Proof.Machine

set_option Elab.async false

/-! ## The account of a unit -/

theorem State.afterUnit_frame (s : State) (e c before : Nat) : ∃ g, s.afterUnit e c before = { s with engines := g } := by
  unfold State.afterUnit
  dsimp only
  split
  · exact ⟨_, rfl⟩
  · exact ⟨_, rfl⟩

theorem State.final_afterUnit (s : State) (e c before : Nat) :
    ((s.afterUnit e c before).chan e c).final = (s.chan e c).final := by
  unfold State.afterUnit
  dsimp only
  split
  · rw [State.chan_setChan, if_pos ⟨rfl, rfl⟩]
  · simp [State.parkChannel, State.chan, State.setChan]

theorem State.runningKind_setCovered (s : State) (e c n : Nat) :
    (s.setChan e c { s.chan e c with covered := n }).runningKind e = s.runningKind e := by
  unfold State.runningKind
  rw [State.engine_setChan, if_pos rfl]
  dsimp only
  split
  · rfl
  next k _ =>
    by_cases h : k = c
    · rw [State.chan_setChan, if_pos ⟨rfl, h⟩, h]
    · rw [State.chan_setChan, if_neg fun hc => h hc.2]

theorem State.runningKind_parkChannel (s : State) (e c : Nat) (st : ChState) (r : ParkReason) :
    (s.parkChannel e c st r).runningKind e = none := by
  have hfree : ((s.parkChannel e c st r).engine e).busy = none := by
    simp [State.parkChannel, State.engine_setChan]
  unfold State.runningKind
  rw [hfree]

theorem State.runningKind_afterUnit {s : State} {e : Nat} (h : s.runningKind e = none) (c before : Nat) :
    (s.afterUnit e c before).runningKind e = none := by
  unfold State.afterUnit
  dsimp only
  split
  · rw [State.runningKind_setCovered, h]
  · exact State.runningKind_parkChannel ..

/-! ## The last unit of a transfer -/

/-- Nothing runs where no transfer is in progress. -/
theorem State.runUnits_idle {s : State} {e : Nat} (h : s.runningKind e = none) (ks : List DmaKind) (n : Nat) :
    s.runUnits e ks n = s := by
  cases n with
  | zero => rfl
  | succ n => rw [State.runUnits, h]

/-- A transfer that its next unit ends is one burst. -/
theorem State.runUnits_last {s : State} {e n : Nat} {k : DmaKind} {ks : List DmaKind} (hn : 0 < n)
    (hkind : s.runningKind e = some k) (hmem : ks.contains k = true) (hruns : s.engineRuns e = true)
    (hend : (s.burst e).runningKind e = none) : s.runUnits e ks n = s.burst e := by
  obtain ⟨n, rfl⟩ := Nat.exists_eq_add_of_lt hn
  rw [State.runUnits, hkind]
  dsimp only
  rw [if_pos (by rw [hmem, hruns]; rfl), State.runUnits_idle hend]

theorem unitLimit_pos : 0 < unitLimit := Nat.two_pow_pos 64

/-- The next unit of the transfer `d` is due on a channel: it holds an engine that runs, and nothing stops it. -/
structure State.UnitDue (s : State) (e c : Nat) (d : DmaDesc) : Prop where
  runs : s.engineRuns e = true
  busy : (s.engine e).busy = some c
  desc : (s.chan e c).desc = some d
  going : (s.chan e c).final = false
  wanted : (s.chan e c).abort = none
  unpaused : s.chanPaused e c = false
  free : s.gov.brakes = []

section
variable {s paid moved : State} {e c : Nat} {d : DmaDesc} (hdue : s.UnitDue e c d)
include hdue

theorem State.UnitDue.runningKind : s.runningKind e = d.kind := by
  unfold State.runningKind
  simp only [hdue.busy, hdue.desc, hdue.going, Bool.false_eq_true, if_false]

variable (hpay : s.payDma e c (s.chan e c).nextBytes d.cls = some paid) (hmove : paid.moveUnit e c d = (moved, .moved))
include hpay hmove

/-- A burst whose unit moves is that unit and its account. -/
theorem State.UnitDue.burst_moved : s.burst e = moved.afterUnit e c (s.chan e c).moved :=
  Host.Outcome.next.inj
    (exec_dmaBurst_moved hdue.runs hdue.busy hdue.desc hdue.going hdue.wanted hdue.unpaused hdue.free hpay hmove)

/-- A command that runs the transfers of the kinds `ks`, where the next unit of one of them moves and is its last, leaves the state as
that unit does, with the unit's account. -/
theorem State.UnitDue.exec_last {i : Instr} {k : DmaKind} {ks : List DmaKind} (hkind : d.kind = some k)
    (hend : moved.runningKind e = none) (hexec : exec i s = done (s.runUnits e ks unitLimit)) (hmem : ks.contains k = true) :
    exec i s = .next (moved.afterUnit e c (s.chan e c).moved) := by
  have hburst := hdue.burst_moved hpay hmove
  have hidle : (s.burst e).runningKind e = none := by
    rw [hburst]
    exact State.runningKind_afterUnit hend c _
  rw [hexec, State.runUnits_last unitLimit_pos (hdue.runningKind.trans hkind) hmem hdue.runs hidle, hburst]
  rfl

end

/-! ## What a write of a DMA engine leaves of the engines -/

/-- The engines without their channels: the whole of which `State.holders` is one field. -/
def State.bareEngines (s : State) : Nat → Engine := fun e => { s.engine e with channels := [] }

theorem State.bareEngines_setChan (s : State) (e c : Nat) (x : Channel) : (s.setChan e c x).bareEngines = s.bareEngines := by
  funext i
  unfold State.bareEngines
  rw [State.engine_setChan]
  split
  next h => rw [h]
  next => rfl

theorem State.bareEngines_logError (s : State) (e : ErrRec) : (s.logError e).bareEngines = s.bareEngines := by
  obtain ⟨l, h⟩ := s.logError_frame e
  rw [h]
  rfl

theorem State.bareEngines_setTower (s : State) (t : Nat) (x : Tower) : (s.setTower t x).bareEngines = s.bareEngines := rfl

theorem State.bareEngines_modTower (s : State) (t : Nat) (f : Tower → Tower) : (s.modTower t f).bareEngines = s.bareEngines := rfl

theorem State.bareEngines_report (s : State) (pl : Place) (f : Finding) : (s.report pl f).bareEngines = s.bareEngines := by
  unfold State.report State.reportCe State.reportUe
  grind [State.bareEngines_logError, State.bareEngines_setTower, State.bareEngines_modTower]

theorem State.bareEngines_writeJournal (s : State) (kind unit floor bank place : Nat) :
    (s.writeJournal kind unit floor bank place).1.bareEngines = s.bareEngines := by
  unfold State.writeJournal
  split <;> rfl

theorem State.bareEngines_bankOut (s : State) (pl : Place) : (s.bankOut pl).bareEngines = s.bareEngines := by
  unfold State.bankOut
  dsimp only
  split
  · rfl
  · exact State.bareEngines_logError ..

theorem State.bareEngines_repairRow (s : State) (pl : Place) (w : Nat) : (s.repairRow pl w).bareEngines = s.bareEngines := by
  unfold State.repairRow State.startColumn
  grind [State.bareEngines_bankOut, State.bareEngines_logError, State.bareEngines_writeJournal, State.bareEngines_setTower]

theorem State.bareEngines_tick (s : State) : s.tick.bareEngines = s.bareEngines := rfl

theorem State.bareEngines_readTower (s : State) (pl : Place) (u : Upset) : (s.readTower pl u).1.bareEngines = s.bareEngines := by
  unfold State.readTower
  grind [State.bareEngines_report, State.bareEngines_repairRow, State.bareEngines_modTower, State.bareEngines_setTower,
    State.bareEngines_tick]

theorem State.bareEngines_writeTower (s : State) (pl : Place) (d : Memory) (poison : Bool) :
    (s.writeTower pl d poison).bareEngines = s.bareEngines := rfl

theorem State.bareEngines_narrowTower (s : State) (pl : Place) (off : Nat) (bs : List Byte) (u : Upset) :
    (s.narrowTower pl off bs u).bareEngines = s.bareEngines := by
  unfold State.narrowTower
  grind [State.bareEngines_readTower, State.bareEngines_writeTower]

theorem State.bareEngines_wake (s : State) (g : Nat) : (s.wake g).bareEngines = s.bareEngines := by
  unfold State.wake
  split <;> rfl

theorem State.bareEngines_admitAccess (s : State) (ag : Agent) (p a : Nat) (pl : Place) (write completion : Bool) :
    (s.admitAccess ag p a pl write completion).1.bareEngines = s.bareEngines := by
  unfold State.admitAccess State.logUnmapped State.markDegraded State.wakeTower
  grind [State.bareEngines_logError, State.bareEngines_setChan, State.bareEngines_wake, State.modChan_eq]

theorem State.bareEngines_readScratch (s : State) (p k off : Nat) (u : Upset) :
    (s.readScratch p k off u).1.bareEngines = s.bareEngines := by
  unfold State.readScratch
  dsimp only
  split
  · rfl
  · split
    · exact State.bareEngines_logError ..
    · exact State.bareEngines_logError ..
  · rfl

theorem State.bareEngines_writeScratch (s : State) (k off : Nat) (d : Memory) (poison : Bool) :
    (s.writeScratch k off d poison).bareEngines = s.bareEngines := rfl

theorem State.bareEngines_narrowScratch (s : State) (p k off : Nat) (bs : List Byte) (u : Upset) :
    (s.narrowScratch p k off bs u).bareEngines = s.bareEngines := by
  unfold State.narrowScratch
  grind [State.bareEngines_readScratch, State.bareEngines_writeScratch]

theorem State.bareEngines_writeLineWord (s : State) (l : Line) (i : Nat) : (s.writeLineWord l i).bareEngines = s.bareEngines := by
  unfold State.writeLineWord
  split <;> rfl

theorem State.bareEngines_writeBack (s : State) (k : Nat) (l : Line) : (s.writeBack k l).bareEngines = s.bareEngines := by
  unfold State.writeBack
  split
  · rfl
  · dsimp only
    split
    · exact (foldl_keeps State.bareEngines (fun s i => s.bareEngines_writeLineWord l i) _ _).trans (State.bareEngines_admitAccess ..)
    · exact State.bareEngines_admitAccess ..

theorem State.bareEngines_cleanLine (s : State) (k p la : Nat) : (s.cleanLine k p la).bareEngines = s.bareEngines := by
  unfold State.cleanLine
  split
  · split
    · exact State.bareEngines_writeBack ..
    · rfl
  · rfl

theorem State.bareEngines_dropLine (s : State) (k p la : Nat) : (s.dropLine k p la).bareEngines = s.bareEngines := rfl

theorem State.bareEngines_dropAll (s : State) (p la : Nat) : (s.dropAll p la).bareEngines = s.bareEngines := by
  unfold State.dropAll
  exact foldl_keeps State.bareEngines (fun s k => (State.bareEngines_dropLine ..).trans (s.bareEngines_cleanLine k p la)) _ _

theorem State.bareEngines_putHost (s : State) (a : Nat) (bs : List Byte) : (s.putHost a bs).bareEngines = s.bareEngines := rfl

/-- A DMA engine's write within a word bypasses the Cupolas, which drop their copies of its line. -/
theorem State.bareEngines_writeWord (s : State) (x p a : Nat) (bs : List Byte) (poison completion : Bool) :
    (s.writeWord (.dma x) p a bs poison completion).1.bareEngines = s.bareEngines := by
  unfold State.writeWord
  grind [State.bareEngines_admitAccess, State.bareEngines_writeScratch, State.bareEngines_narrowScratch,
    State.bareEngines_writeTower, State.bareEngines_narrowTower, State.bareEngines_dropAll, State.bareEngines_putHost]

theorem State.bareEngines_putMarked (s : State) (x p n a : Nat) (l : List (Byte × Bool)) :
    (s.putMarked x p n a l).1.bareEngines = s.bareEngines := by
  induction n generalizing s a l with
  | zero => rfl
  | succ n ih =>
    unfold State.putMarked
    grind [State.bareEngines_writeWord]

/-! ## The link expander (R362) -/

theorem State.bareEngines_sendFlit (s : State) (i : Option Nat) (l : Nat) (f : Flit) :
    (s.sendFlit i l f).bareEngines = s.bareEngines := by
  obtain ⟨_, _, _, h⟩ := s.sendFlit_frame i l f
  rw [h]
  rfl

theorem State.bareEngines_refuse (s : State) (l : Nat) (f : Flit) : (s.refuse l f).bareEngines = s.bareEngines :=
  (State.bareEngines_sendFlit ..).trans (State.bareEngines_logError ..)

theorem State.bareEngines_addCounter (s : State) (p i n : Nat) : (s.addCounter p i n).bareEngines = s.bareEngines := rfl

/-- A block expanded is a write, a counter and an answer, or a refusal: none of them reaches the blocks that the engines hold. -/
theorem State.bareEngines_expandArrival (s : State) (e : Nat) (b : CBlock) : (s.expandArrival e b).bareEngines = s.bareEngines := by
  unfold State.expandArrival
  grind [State.bareEngines_logError, State.bareEngines_putMarked, State.bareEngines_refuse, State.bareEngines_addCounter,
    State.bareEngines_sendFlit]

/-- The oldest complete block leaves the expander, unless a slot that it needs is being loaded. -/
theorem exec_cblockExpand {s : State} {e i : Nat} {b : CBlock} (hruns : s.engineRuns e = true)
    (hfirst : (s.engine e).cblocks.findIdx? (fun b => decide (b.bytes.length ≥ b.total)) = some i)
    (hblock : (s.engine e).cblocks[i]? = some b)
    (hloaded : ((blockHead b.bytes).needs.any fun n => (mget {} (s.engine e).slots n).loading) = false) :
    exec (.cblockExpand e) s =
      .next ((s.modEngine e fun g => { g with cblocks := (s.engine e).cblocks.eraseIdx i }).expandArrival e b) := by
  change execCblockExpand e s = _
  unfold execCblockExpand
  dsimp only
  rw [hfirst]
  dsimp only
  rw [hblock]
  dsimp only
  rw [if_neg (by rw [hruns, hloaded]; decide)]
  rfl

/-- Settles O43: each mode's command is one burst, whose account leaves everything but its engine as the unit does, and a block that
is expanded has left its engine. -/
theorem dmaTransfersEnd : Obligations.DmaTransfersEnd := by
  intro s e c d hruns
  refine ⟨?_, fun i b hfirst hblock hloaded => ⟨_, exec_cblockExpand hruns hfirst hblock hloaded, ?_⟩⟩
  · intro pay r ends
    have hends {i : Instr} {k : DmaKind} (ks : List DmaKind) (hexec : exec i s = done (s.runUnits e ks unitLimit))
        (hmem : ks.contains k = true) : ends i k := by
      intro hbusy hdesc hfinal habort hpaused hbrake hkind hpays hmoves hlast hend
      obtain ⟨paid, hpay⟩ := Option.isSome_iff_exists.mp hpays
      have hr : r = paid.moveUnit e c d := by simp only [r, hpay, Option.getD_some]
      have hdue : s.UnitDue e c d := ⟨hruns, hbusy, hdesc, hfinal, habort, hpaused, hbrake⟩
      obtain ⟨-, hprog, -⟩ := r.1.afterUnit_account e c (s.chan e c).moved
      refine ⟨_, hdue.exec_last hpay (moved := r.1) (by rw [← hr, ← hmoves]) hkind hend hexec hmem,
        (State.final_afterUnit ..).trans hlast, hprog, ?_⟩
      obtain ⟨g, h⟩ := r.1.afterUnit_frame e c (s.chan e c).moved
      rw [h]
      exact ⟨rfl, rfl, rfl, rfl, rfl⟩
    exact ⟨hends [.copy] rfl rfl, hends [.compress] rfl rfl, hends [.expand, .toQueueExpand] rfl rfl, hends [.link] rfl rfl,
      hends [.kn4, .toQueueKn4] rfl rfl, hends [.tableLoad] rfl rfl, hends [.tensor] rfl rfl,
      hends [.toQueue, .toQueueExpand, .toQueueKn4] rfl rfl, hends [.fromQueue] rfl rfl,
      hends [.expand, .toQueueExpand] rfl rfl, hends [.toQueue, .toQueueExpand, .toQueueKn4] rfl rfl,
      hends [.kn4, .toQueueKn4] rfl rfl, hends [.toQueue, .toQueueExpand, .toQueueKn4] rfl rfl⟩
  · have hkept := State.bareEngines_expandArrival (s.modEngine e fun g => { g with cblocks := (s.engine e).cblocks.eraseIdx i }) e b
    refine (congrArg Engine.cblocks (congrFun hkept e)).trans ?_
    unfold State.bareEngines
    rw [State.modEngine_eq, State.engine_setEngine, if_pos rfl]

end Sys2Proof.Machine
end

section
/-! Requests and answers at their destination. A flit that is first of its virtual channel leaves its link's buffer and is performed;
what its operation sends changes links, registers and the log alone. -/

namespace Sys2Proof.Machine

set_option Elab.async false

/-! ## Delivery (R386) -/

/-- The state after a flit has left the buffer of its link, which is free if the flit held it. -/
def State.takeFlit (s : State) (l : Nat) (f : Flit) (held : Bool) : State :=
  s.modLink l fun k => { k with
    inbox := dropFlit f k.inbox, giveBack := if held then k.giveBack.modify f.vc.toNat (· + 1) else k.giveBack }

section
variable {s : State} {l op : Nat} {f : Flit} {held : Bool}

theorem State.deliver_head (hruns : s.runs = true) (hhead : headOf f (s.link l).inbox = some held) (hop : f.op.toNat = op)
    (perform : State → State) : s.deliver l f op perform = perform (s.takeFlit l f held) := by
  unfold State.deliver
  rw [hhead, hruns]
  dsimp only
  rw [if_neg (by decide), if_neg (not_not.mpr hop)]
  rfl

variable (hruns : s.runs = true) (hhead : headOf f (s.link l).inbox = some held)
include hruns hhead

theorem exec_write (hop : f.op.toNat = opWrite) : exec (.write l f) s = .next ((s.takeFlit l f held).performWrite l f) :=
  congrArg Host.Outcome.next (State.deliver_head hruns hhead hop _)

theorem exec_cblock (hop : f.op.toNat = opCblock) : exec (.cblock l f) s = .next ((s.takeFlit l f held).performCblock l f) :=
  congrArg Host.Outcome.next (State.deliver_head hruns hhead hop _)

theorem exec_read (hop : f.op.toNat = opRead) : exec (.read l f) s = .next ((s.takeFlit l f held).performRead l f) :=
  congrArg Host.Outcome.next (State.deliver_head hruns hhead hop _)

theorem exec_atomic (hop : f.op.toNat = opAtomic) : exec (.atomic l f) s = .next ((s.takeFlit l f held).performAtomic l f) :=
  congrArg Host.Outcome.next (State.deliver_head hruns hhead hop _)

theorem exec_resp (hop : f.op.toNat = opResp) : exec (.resp l f) s = .next ((s.takeFlit l f held).takeAnswer l f) :=
  congrArg Host.Outcome.next (State.deliver_head hruns hhead hop _)

theorem exec_wack (hop : f.op.toNat = opWack) : exec (.wack l f) s = .next ((s.takeFlit l f held).takeAnswer l f) :=
  congrArg Host.Outcome.next (State.deliver_head hruns hhead hop _)

theorem exec_err (hop : f.op.toNat = opErr) : exec (.err l f) s = .next ((s.takeFlit l f held).takeAnswer l f) :=
  congrArg Host.Outcome.next (State.deliver_head hruns hhead hop _)

end

/-! ## Requests (R383, R384) -/

section
variable {t : State} {l : Nat} {f : Flit}

theorem State.counter_sendFlit (s : State) (i : Option Nat) (l : Nat) (f : Flit) (p k : Nat) :
    (s.sendFlit i l f).counter p k = s.counter p k := by
  obtain ⟨_, _, _, h⟩ := s.sendFlit_frame i l f
  rw [h]
  rfl

/-- A refusal logs and answers, without an access. -/
theorem State.refuse_frame (s : State) (l : Nat) (f : Flit) :
    ∃ k g x, s.refuse l f = { s with links := k, regs := g, landing := x } := by
  unfold State.refuse
  extract_lets src logged
  obtain ⟨x, hx⟩ : ∃ x, logged = { s with landing := x } := s.logError_frame _
  obtain ⟨k, g, y, h⟩ := logged.sendFlit_frame none l (logged.errFlit f .bounds)
  exact ⟨k, g, y, by rw [h, hx]⟩

theorem State.performRead_refused (h : t.refuses f = true) : t.performRead l f = t.refuse l f := by
  unfold State.performRead
  exact if_pos (by rw [h]; rfl)

/-- The bytes of a later flit join the block that they belong to, if the expander holds it. -/
def joinBlock (f : Flit) (bs : List CBlock) : List CBlock :=
  match bs.findIdx? (sameBlock f) with
  | none => bs
  | some i => bs.modify i fun b =>
      { b with bytes := b.bytes ++ f.payload.take f.len.toNat, poison := b.poison || decide (f.poison ≠ 0) }

theorem length_joinBlock (f : Flit) (bs : List CBlock) : (joinBlock f bs).length = bs.length := by
  unfold joinBlock
  split
  · rfl
  · exact List.length_modify ..

theorem State.cblocks_modEngine (s : State) (e : Nat) (g : List CBlock → List CBlock) :
    ((s.modEngine e fun d => { d with cblocks := g d.cblocks }).engine e).cblocks = g (s.engine e).cblocks := by
  rw [State.modEngine_eq, State.engine_setEngine, if_pos rfl]

section
variable (htaken : t.refuses f = false) (hlen : lenOk f = true)
include htaken hlen

/-- A WRITE that is performed raises the counter that it names, whether or not it is acknowledged. -/
theorem State.counter_performWrite (hcount : f.cntEn = true) :
    let w := t.writeRun (.link l) f.dstPart.toNat (t.inboundAddr f) (f.payload.take f.len.toNat) (flitPoison f) false
    w.2 = true → (t.performWrite l f).counter f.dstPart.toNat f.counter.toNat =
      w.1.counter f.dstPart.toNat f.counter.toNat + BitVec.ofNat 64 f.len.toNat := by
  intro w hdone
  unfold State.performWrite
  dsimp only
  rw [if_neg (by rw [htaken, hlen]; decide)]
  change State.counter (if !w.2 then w.1.refuse l f else _) _ _ = _
  rw [if_neg (by rw [hdone]; decide), if_pos hcount]
  split
  · rw [State.counter_sendFlit, State.counter_addCounter]
  · rw [State.counter_addCounter]

/-- A READ that finds its words good answers with their value. -/
theorem State.performRead_good :
    let r := t.readRun (.link l) f.dstPart.toNat (t.inboundAddr f) f.len.toNat
    r.2.refused = false → r.2.found = false → r.2.poison = [] →
      t.performRead l f = r.1.sendFlit none l (r.1.respFlit f (r.2.data.num 0 f.len.toNat) .ok) := by
  intro r hrefused hfound hpoison
  unfold State.performRead
  dsimp only
  rw [if_neg (by rw [htaken, hlen]; decide)]
  change (if r.2.refused then r.1.refuse l f else if r.2.found then _ else if r.2.poison ≠ [] then _ else _) = _
  rw [if_neg (by rw [hrefused]; decide), if_neg (by rw [hfound]; decide), if_neg (not_not.mpr hpoison)]

/-- The operands of an ATOMIC in the order of R138. -/
def atomicArgs (f : Flit) : AtomArgs where
  size := f.len.toNat
  aop := f.aop.toNat
  value := leNum (f.payload.take f.len.toNat)
  new := leNum ((f.payload.drop f.len.toNat).take f.len.toNat)

/-- An ATOMIC that is performed answers with the old value, after its WACK if it asks for one. -/
theorem State.performAtomic_ok {v : Nat} (haop : f.aop.toNat ≤ 4) :
    let q := t.atomicAt (.link l) f.dstPart.toNat (t.inboundAddr f) (atomicArgs f)
    let w := if f.ackReq then q.1.sendFlit none l (q.1.answer f opWack 0 []) else q.1
    q.2 = .ok v → t.performAtomic l f = w.sendFlit none l (w.respFlit f v .ok) := by
  intro q w hvalue
  have hq : t.atomicAt (.link l) f.dstPart.toNat (t.inboundAddr f) (atomicArgs f) = (q.1, .ok v) := Prod.ext rfl hvalue
  unfold atomicArgs at hq
  unfold State.performAtomic
  dsimp only
  rw [if_neg (by rw [htaken, hlen, decide_eq_false (by omega)]; decide), hq]

/-! ## Coded blocks (R362) -/

/-- The first flit of a block that fits its partition begins the block behind those that the expander holds. -/
theorem State.performCblock_first (hfirst : f.first = true) (hhead : 16 ≤ (f.payload.take f.len.toNat).length)
    (hend : f.addr.toNat + leNum (((f.payload.take f.len.toNat).drop 12).take 4) % 2 ^ 13 ≤ 2 ^ 32)
    (hreach : t.reachable f.dstPart.toNat (t.inboundAddr f)
      (max (leNum (((f.payload.take f.len.toNat).drop 12).take 4) % 2 ^ 13) 1) true = true) :
    ∃ b, t.performCblock l f = t.modEngine (t.linkx f.dstPart.toNat) fun d => { d with cblocks := d.cblocks ++ [b] } := by
  unfold State.performCblock
  dsimp only
  rw [if_neg (by rw [htaken, hlen]; decide), if_pos hfirst, if_neg]
  · exact ⟨_, rfl⟩
  · rw [field, Nat.shiftRight_zero, hreach, decide_eq_false (by omega), decide_eq_false (by omega)]
    decide

theorem State.performCblock_later (hlater : f.first = false) :
    t.performCblock l f = t.modEngine (t.linkx f.dstPart.toNat) fun d => { d with cblocks := joinBlock f d.cblocks } := by
  unfold State.performCblock
  dsimp only
  rw [if_neg (by rw [htaken, hlen]; decide), if_neg (by rw [hlater]; decide)]
  unfold joinBlock
  congr 1
  funext d
  cases d.cblocks.findIdx? (sameBlock f) with
  | none => rfl
  | some i => rfl

end

/-! ## Answers (R384) -/

/-- The state with a failing answer to an FST logged. -/
def State.logAnswer (s : State) (l : Nat) (f : Flit) (core : Nat) : State :=
  match fstAddr f.tag.toNat (s.core core).inflight with
  | some x => if (flitAnswer f).status = .ok then s else s.logFarStore l f x
  | none => s

theorem State.logAnswer_frame (s : State) (l : Nat) (f : Flit) (core : Nat) :
    ∃ x, s.logAnswer l f core = { s with landing := x } := by
  unfold State.logAnswer
  split
  · split
    · exact ⟨s.landing, rfl⟩
    · exact s.logError_frame _
  · exact ⟨s.landing, rfl⟩

/-- The TAG of an answer is free, but that of an ATOM whose RESP follows its WACK. -/
def State.releaseTag (s : State) (f : Flit) (flying : List InFlight) : State :=
  if decide (f.op.toNat = opWack) && (fstAddr f.tag.toNat flying).isNone then s
  else { s with tags := mset 0xFFFF s.tags f.tag.toNat 0xFFFF }

theorem State.core_releaseTag (s : State) (f : Flit) (flying : List InFlight) (core : Nat) :
    (s.releaseTag f flying).core core = s.core core := by
  unfold State.releaseTag
  split <;> rfl

theorem State.releaseTag_frees {flying : List InFlight}
    (h : f.op.toNat ≠ opWack ∨ (fstAddr f.tag.toNat flying).isSome = true) :
    mget 0xFFFF (t.releaseTag f flying).tags f.tag.toNat = 0xFFFF := by
  unfold State.releaseTag
  rw [if_neg]
  · change mget 0xFFFF (mset 0xFFFF t.tags f.tag.toNat 0xFFFF) f.tag.toNat = 0xFFFF
    rw [mget_mset, if_pos rfl]
  · rcases h with hop | hsome
    · simp [hop]
    · simp [← Option.not_isSome, hsome]

/-- An answer to a core is logged where it fails an FST, frees its TAG and reaches the operation that waits for it. -/
theorem State.takeAnswer_core {core : Nat} (htag : f.tag.toNat < 0x800)
    (hheld : t.tags.find? (fun e => decide (e.1 = f.tag.toNat)) = some (f.tag.toNat, core)) :
    t.takeAnswer l f = ((t.logAnswer l f core).releaseTag f (t.core core).inflight).modCore core fun c =>
      { c with inflight := answerCore f.tag.toNat (flitAnswer f) c.inflight } := by
  unfold State.takeAnswer
  dsimp only
  rw [if_neg (by omega), hheld]
  rfl

theorem State.takeAnswer_arrives {core : Nat} (htag : f.tag.toNat < 0x800)
    (hheld : t.tags.find? (fun e => decide (e.1 = f.tag.toNat)) = some (f.tag.toNat, core)) :
    ((t.takeAnswer l f).core core).inflight = answerCore f.tag.toNat (flitAnswer f) (t.core core).inflight ∧
      (f.op.toNat ≠ opWack ∨ (fstAddr f.tag.toNat (t.core core).inflight).isSome = true →
        mget 0xFFFF (t.takeAnswer l f).tags f.tag.toNat = 0xFFFF) := by
  rw [State.takeAnswer_core htag hheld]
  refine ⟨?_, State.releaseTag_frees⟩
  obtain ⟨x, h⟩ := t.logAnswer_frame l f core
  rw [State.modCore_eq, State.core_setCore, if_pos rfl, State.core_releaseTag, h]
  rfl

end

/-- Settles O47: a flit that heads its buffer is performed where it is delivered, and each operation's own lemma says what it leaves. -/
theorem linkRequestsPerform : Obligations.LinkRequestsPerform := by
  intro s l f held v core hruns hhead t p a bytes
  refine ⟨fun hop htaken hlen hcount => ?_, fun hop htaken hlen => ⟨fun hfirst hlong => ?_, fun hlater => ?_⟩,
    fun hop hrefused => ?_, fun hop htaken hlen => ?_, fun hop htaken hlen haop => ?_,
    fun htag hheld => ?_⟩
  · intro w hdone
    exact ⟨_, exec_write hruns hhead hop, State.counter_performWrite htaken hlen hcount hdone⟩
  · intro ulen hend hreach
    obtain ⟨b, hb⟩ := State.performCblock_first (l := l) htaken hlen hfirst hlong hend hreach
    refine ⟨t.performCblock l f, exec_cblock hruns hhead hop, ?_⟩
    rw [hb]
    exact ⟨rfl, (congrArg List.length (t.cblocks_modEngine _ (· ++ [b]))).trans List.length_append⟩
  · refine ⟨t.performCblock l f, exec_cblock hruns hhead hop, ?_⟩
    rw [State.performCblock_later htaken hlen hlater]
    exact ⟨rfl, rfl, (congrArg List.length (t.cblocks_modEngine _ (joinBlock f))).trans (length_joinBlock ..)⟩
  · obtain ⟨k, g, x, h⟩ := t.refuse_frame l f
    refine ⟨t.performRead l f, exec_read hruns hhead hop, ?_⟩
    rw [State.performRead_refused hrefused, h]
    exact ⟨rfl, rfl, rfl⟩
  · intro r hok hfound hpoison
    rw [exec_read hruns hhead hop]
    exact congrArg Host.Outcome.next (State.performRead_good htaken hlen hok hfound hpoison)
  · intro q w hvalue
    rw [exec_atomic hruns hhead hop]
    exact congrArg Host.Outcome.next (State.performAtomic_ok htaken hlen haop hvalue)
  · intro answered
    obtain ⟨hinflight, hfree⟩ := State.takeAnswer_arrives (l := l) htag hheld
    have hanswered {i : Instr} {st : Status} (hexec : exec i s = .next (t.takeAnswer l f)) (hst : (flitAnswer f).status = st) :
        answered i st := by
      subst hst
      exact ⟨_, hexec, hinflight, hfree⟩
    exact ⟨fun hop => hanswered (exec_resp hruns hhead hop) (if_neg (by rw [hop]; decide)),
      fun hop => hanswered (exec_wack hruns hhead hop) (if_pos hop),
      fun hop => hanswered (exec_err hruns hhead hop) (if_neg (by rw [hop]; decide))⟩

end Sys2Proof.Machine
end

section
/-! The phases of a link. Training reads and writes the link's registers and the link; what it sends changes links alone. -/

namespace Sys2Proof.Machine

set_option Elab.async false

@[simp] theorem State.reg_logError (s : State) (e : ErrRec) (a : Nat) : (s.logError e).reg a = s.reg a := by
  obtain ⟨x, h⟩ := s.logError_frame e
  rw [h]
  rfl

/-! ## Phases (Table 11-13) -/

theorem State.setPhase_frame (s : State) (l ph : Nat) : ∃ g x, s.setPhase l ph = { s with regs := g, landing := x } := by
  unfold State.setPhase
  split
  · exact ⟨s.regs, s.landing, rfl⟩
  · rw [State.setRegField_eq]
    generalize putField _ 29 3 ph = v
    obtain ⟨x, h⟩ := (s.setReg (linkBase l + Off.volLstat) v).signal_frame 4
    exact ⟨_, x, h⟩

@[simp] theorem State.link_setPhase (s : State) (l ph k : Nat) : (s.setPhase l ph).link k = s.link k := by
  obtain ⟨g, x, h⟩ := s.setPhase_frame l ph
  rw [h]
  rfl

theorem State.linkPhase_setPhase (s : State) (l : Nat) {ph : Nat} (hph : ph < 8) : (s.setPhase l ph).linkPhase l = ph := by
  unfold State.setPhase
  split
  next h => exact h
  next =>
    rw [State.linkPhase, State.regField, State.reg_signal, State.setRegField_eq, State.reg_setReg, if_pos rfl, field_putField]
    exact Nat.mod_eq_of_lt hph

theorem State.reg_setPhase_apart (s : State) (l ph : Nat) {a : Nat} (ha : a ≠ linkBase l + Off.volLstat) :
    (s.setPhase l ph).reg a = s.reg a := by
  unfold State.setPhase
  split
  · rfl
  · rw [State.reg_signal, State.setRegField_eq, State.reg_setReg, if_neg ha]

theorem State.linkPhase_of_links {s n : State} (h : ∃ k, n = { s with links := k }) (l : Nat) : n.linkPhase l = s.linkPhase l := by
  obtain ⟨k, rfl⟩ := h
  rfl

theorem State.sendTrain_frame (s : State) (l ph : Nat) : ∃ k, s.sendTrain l ph = { s with links := k } := by
  unfold State.sendTrain
  dsimp only
  split
  · refine List.foldlRecOn _ _ (motive := fun t : State => ∃ k, t = { s with links := k }) ⟨s.links, rfl⟩ fun t ht i _ => ?_
    obtain ⟨k, rfl⟩ := ht
    exact ⟨_, rfl⟩
  · exact ⟨_, rfl⟩

/-! ## What a link keeps while it sends -/

/-- What the flits that a link sends leave as it is: the SEQ that it expects, whether its NAK is out, and whether it retrains. -/
def LinkState.receiving (k : LinkState) : Nat × Bool × Bool := (k.expect, k.nakSent, k.retraining)

/-- What each link keeps while it sends. -/
def State.receiving (s : State) : Nat → Nat × Bool × Bool := fun l => (s.link l).receiving

theorem State.expect_of_receiving {s n : State} (h : n.receiving = s.receiving) (l : Nat) :
    (n.link l).expect = (s.link l).expect := congrArg Prod.fst (congrFun h l)

theorem State.nakSent_of_receiving {s n : State} (h : n.receiving = s.receiving) (l : Nat) :
    (n.link l).nakSent = (s.link l).nakSent := congrArg (fun x => x.2.1) (congrFun h l)

theorem State.retraining_of_receiving {s n : State} (h : n.receiving = s.receiving) (l : Nat) :
    (n.link l).retraining = (s.link l).retraining := congrArg (fun x => x.2.2) (congrFun h l)

theorem State.receiving_modLink (s : State) (l : Nat) {f : LinkState → LinkState} (h : ∀ k, (f k).receiving = k.receiving) :
    (s.modLink l f).receiving = s.receiving := by
  funext i
  rw [State.receiving, State.modLink_eq, State.link_setLink]
  split
  next hi => rw [h, hi]; rfl
  next => rfl

theorem LinkState.receiving_resend (k : LinkState) : k.resend.receiving = k.receiving :=
  List.foldlRecOn k.replay LinkState.emit (motive := fun n => n.receiving = k.receiving) rfl
    fun n hn f _ => (show (n.emit f).receiving = n.receiving from rfl).trans hn

theorem LinkState.receiving_pump (k : LinkState) : k.pump.link.receiving = k.receiving := by
  refine List.foldlRecOn k.unsent _ (motive := fun a : Pump => a.link.receiving = k.receiving) rfl fun a ha x _ => ?_
  split <;> exact ha

theorem State.receiving_freeBuffers (xs : List (Nat × Nat)) (s : State) : (xs.foldl State.freeBuffer s).receiving = s.receiving :=
  foldl_keeps State.receiving (f := State.freeBuffer) (fun t x => t.receiving_modLink x.1 fun _ => rfl) xs s

theorem State.receiving_pumpLink (s : State) (l : Nat) : (s.pumpLink l).receiving = s.receiving := by
  unfold State.pumpLink
  split
  · exact (State.receiving_freeBuffers ..).trans <| s.receiving_modLink l (f := fun k => k.pump.link) LinkState.receiving_pump
  · rfl

theorem State.receiving_forward (s : State) (i : Option Nat) (h : Nat) (f : Flit) :
    (s.forward i h f).1.receiving = s.receiving := by
  unfold State.forward
  split
  · exact s.receiving_modLink h fun _ => rfl
  · rfl
  · split
    · rfl
    · split
      · rfl
      · exact (State.receiving_pumpLink ..).trans (s.receiving_modLink _ fun _ => rfl)

theorem State.receiving_logDrop (s : State) (i : Option Nat) (f : Flit) (r : Nat) : (s.logDrop i f r).receiving = s.receiving := by
  obtain ⟨g, x, h⟩ := s.logDrop_frame i f r
  rw [h]
  rfl

theorem State.receiving_sendFlit (s : State) (i : Option Nat) (h : Nat) (f : Flit) : (s.sendFlit i h f).receiving = s.receiving := by
  have hfirst := s.receiving_forward i h f
  unfold State.sendFlit
  split
  next t hsent =>
    rw [hsent] at hfirst
    exact hfirst
  next t r hdrop =>
    rw [hdrop] at hfirst
    have hlogged (xs : List (Nat × Nat)) : ((xs.foldl State.freeBuffer t).logDrop i f r).receiving = s.receiving :=
      (State.receiving_logDrop ..).trans ((State.receiving_freeBuffers ..).trans hfirst)
    dsimp only
    generalize hu : (List.foldl State.freeBuffer t _).logDrop i f r = u
    have hu' : u.receiving = s.receiving := hu ▸ hlogged _
    split
    · have hsecond := (u.receiving_forward none h (u.errFlit f .linkDown)).trans hu'
      split
      next hsent =>
        rw [hsent] at hsecond
        exact hsecond
      next hdrop =>
        rw [hdrop] at hsecond
        exact (State.receiving_logDrop ..).trans hsecond
    · exact hu'

/-! ## Retrains (R389) -/

/-- A retrain keeps the replay buffer, the sequence numbers and the credits. -/
theorem State.link_startRetrain (s : State) (l : Nat) : (s.startRetrain l).link l =
    { s.link l with retraining := true, resends := 0, retrainStart := s.landing.fclk.toNat } := by
  unfold State.startRetrain
  rw [State.link_setPhase, State.modLink_eq, State.link_setLink, if_pos rfl]
  rfl

theorem State.linkPhase_startRetrain (s : State) (l : Nat) : (s.startRetrain l).linkPhase l = 2 :=
  State.linkPhase_setPhase _ l (by decide)

theorem State.reg_startRetrain_apart (s : State) (l : Nat) {a : Nat} (hstat : a ≠ linkBase l + Off.volLstat)
    (hcount : a ≠ linkBase l + Off.volRetrainCount) : (s.startRetrain l).reg a = s.reg a := by
  unfold State.startRetrain
  rw [State.reg_setPhase_apart _ _ _ hstat, State.modLink_eq, State.reg_setLink, State.setRegField_eq, State.reg_setReg,
    if_neg hcount]

theorem State.linkPhase_trainAgain (s : State) (l : Nat) : (s.trainAgain l).linkPhase l = 1 := by
  unfold State.trainAgain
  dsimp only
  split
  · exact State.linkPhase_setPhase _ l (by decide)
  · exact State.linkPhase_setPhase _ l (by decide)

/-! ## The commands of training -/

/-- The state after a partner's TRAIN flit but for what its PHASE says: the partner's id and link, and in a retrain its ACK and CREDIT. -/
def State.meetPartner (s : State) (l : Nat) (info : TrainInfo) : State :=
  ((s.setRegField (linkBase l + Off.volLstat) 3 13 info.deviceId.toNat).setRegField (linkBase l + Off.volLstat) 0 3
    info.link.toNat).modLink l fun k => if k.retraining then k.takeAck info.ack.toNat info.credit.toNat else k

theorem State.partner_meetPartner (s : State) (l : Nat) (info : TrainInfo) :
    (s.meetPartner l info).regField (linkBase l + Off.volLstat) 3 13 = info.deviceId.toNat := by
  unfold State.meetPartner State.regField
  rw [State.modLink_eq, State.reg_setLink, State.setRegField_eq, State.setRegField_eq, State.reg_setReg, if_pos rfl, State.reg_setReg,
    if_pos rfl, field_putField_apart _ _ _ _ _ _ (.inr (by decide)), field_putField]
  exact Nat.mod_eq_of_lt info.deviceId.isLt

section
variable {s : State} {l : Nat} (hruns : s.runs = true)
include hruns

theorem execDetectDone_seen {lanes : BitVec 9} (hphase : s.linkPhase l = 1) (hlanes : 4 ≤ laneCount (lanes.toNat &&& s.laneMask)) :
    execDetectDone l lanes s = .next ((s.modLink l fun k => { k with ownGood := lanes }).setPhase l 2) := by
  simp only [execDetectDone, hruns, hphase, hlanes, Bool.not_true, Bool.false_eq_true, if_false, decide_true, Bool.and_self, if_true,
    done]

theorem execEqualiseDone_adapted (hphase : s.linkPhase l = 2) :
    execEqualiseDone l s = .next ((s.setPhase l 3).sendTrain l 3) := by
  simp only [execEqualiseDone, hruns, hphase, Bool.not_true, Bool.false_eq_true, if_false, if_true, done]

/-- A link without an id, or with its partner's, stays in LANE_MAP. -/
theorem execLaneMapDone_waits (lanes : BitVec 9) (hphase : s.linkPhase l = 3)
    (hid : s.ownId = 0x1FFF ∨ s.regField (linkBase l + Off.volLstat) 3 13 = s.ownId) :
    ∃ n, execLaneMapDone l lanes s = .next n ∧ n.linkPhase l = 3 := by
  obtain ⟨k, hk⟩ := (s.modLink l fun k => { k with ownGood := lanes }).sendTrain_frame l 3
  refine ⟨(s.modLink l fun k => { k with ownGood := lanes }).sendTrain l 3, ?_, ?_⟩
  · unfold execLaneMapDone
    simp only [hruns, hphase, hid, Bool.not_true, Bool.false_eq_true, if_false, ne_eq, not_true_eq_false, Bool.or_eq_true,
      decide_eq_true_eq, if_true, done]
  · rw [hk]
    exact hphase

/-- Both ends have chosen the lanes: the link goes on to CREDIT_INIT, and in a retrain it is ACTIVE again and resends. -/
theorem execLaneMapDone_chosen {lanes : BitVec 9} {wl : Nat × Nat} (hphase : s.linkPhase l = 3) (hown : s.ownId ≠ 0x1FFF)
    (hpartner : s.regField (linkBase l + Off.volLstat) 3 13 ≠ s.ownId)
    (hchosen : s.chooseLanes l (lanes.toNat &&& (s.link l).partnerGood.toNat &&& s.laneMask &&&
      (0x1FF - s.regField (linkBase l + Off.volLaneFail) 0 9)) = some wl) :
    ∃ n, execLaneMapDone l lanes s = .next n ∧ ((s.link l).retraining = false → n.linkPhase l = 4) ∧
      ((s.link l).retraining = true → n.linkPhase l = 5 ∧ (n.link l).retraining = false) := by
  obtain ⟨k, hk⟩ := (s.modLink l fun k => { k with ownGood := lanes }).sendTrain_frame l 3
  have hlanes : ((s.modLink l fun k => { k with ownGood := lanes }).sendTrain l 3).chooseLanes l
      (lanes.toNat &&& (s.link l).partnerGood.toNat &&& ((s.modLink l fun k => { k with ownGood := lanes }).sendTrain l 3).laneMask &&&
        (0x1FF - ((s.modLink l fun k => { k with ownGood := lanes }).sendTrain l 3).regField (linkBase l + Off.volLaneFail) 0 9)) =
      some wl := by
    rw [hk]
    exact hchosen
  have hid : ¬((decide (s.ownId = 0x1FFF) || decide (s.regField (linkBase l + Off.volLstat) 3 13 = s.ownId)) = true) := by
    simp [hown, hpartner]
  unfold execLaneMapDone
  rw [if_neg (by rw [hruns]; decide)]
  dsimp only
  rw [if_neg (not_not.mpr hphase), if_neg hid, hlanes]
  generalize (s.modLink l fun k => { k with ownGood := lanes }).sendTrain l 3 = t
  dsimp only
  cases hre : (s.link l).retraining with
  | false =>
    rw [if_neg Bool.false_ne_true]
    refine ⟨_, rfl, fun _ => ?_, fun h => absurd h Bool.false_ne_true⟩
    exact (State.linkPhase_of_links (State.sendTrain_frame ..) l).trans (State.linkPhase_setPhase _ l (by decide))
  | true =>
    rw [if_pos rfl]
    refine ⟨_, rfl, fun h => absurd h.symm Bool.false_ne_true, fun _ => ⟨?_, ?_⟩⟩
    · exact (State.linkPhase_of_links (State.pumpLink_frame ..) l).trans (State.linkPhase_setPhase _ l (by decide))
    · refine (State.retraining_of_receiving ((State.receiving_pumpLink ..).trans
        (State.receiving_modLink _ l LinkState.receiving_resend)) l).trans ?_
      rw [State.modLink_eq, State.link_setLink, if_pos rfl]

theorem execCreditInitDone_active {cr : List Nat} (hphase : s.linkPhase l = 4) (hcredits : (s.link l).partnerCredits = some cr) :
    ∃ n, execCreditInitDone l s = .next n ∧ n.linkPhase l = 5 ∧ (n.link l).expect = 0 := by
  simp only [execCreditInitDone, hruns, hphase, hcredits, Bool.not_true, Bool.false_eq_true, if_false, done]
  refine ⟨_, rfl, ?_, ?_⟩
  · exact (State.linkPhase_of_links (State.pumpLink_frame ..) l).trans (State.linkPhase_setPhase _ l (by decide))
  · rw [State.expect_of_receiving (State.receiving_pumpLink ..), State.link_setPhase, State.modLink_eq, State.link_setLink, if_pos rfl]

/-- Every phase but LANE_MAP has a Max that takes the link back to DETECT. -/
theorem execTrainTimeout_over (hphase : s.linkPhase l = 1 ∨ s.linkPhase l = 2 ∨ s.linkPhase l = 4) :
    ∃ n, execTrainTimeout l s = .next n ∧ n.linkPhase l = 1 := by
  refine ⟨s.trainAgain l, ?_, s.linkPhase_trainAgain l⟩
  rcases hphase with h | h | h <;>
    simp only [execTrainTimeout, hruns, h, Bool.not_true, Bool.false_eq_true, if_false, done]

theorem execTrain_kept {info : TrainInfo} (hphase : s.linkPhase l = 3 ∨ s.linkPhase l = 4) :
    execTrain l info s = .next ((s.meetPartner l info).modLink l fun k =>
      if 4 ≤ info.phase.toNat then { k with partnerCredits := some (info.credits.take 4) } else { k with partnerGood := info.goodLanes }) := by
  have hopen : ¬((decide (s.linkPhase l < 3) || decide (s.linkPhase l = 5)) = true) := by
    simp only [Bool.or_eq_true, decide_eq_true_eq]
    omega
  unfold execTrain
  rw [if_neg (by rw [hruns]; decide), if_neg hopen]
  dsimp only [ge_iff_le]
  split <;> rfl

/-- A lane in use that fails is marked, and the link retrains. -/
theorem execLaneFail_retrains {lane : Nat} (hphase : s.linkPhase l = 5)
    (hused : nbit (s.regField (linkBase l + Off.volLstat) 16 9) lane = true) :
    ∃ n, execLaneFail l lane s = .next n ∧ n.linkPhase l = 2 ∧ (n.link l).retraining = true ∧
      n.regBit (linkBase l + Off.volLaneFail) lane = true := by
  unfold execLaneFail
  rw [if_neg (by rw [hruns]; decide)]
  dsimp only
  rw [if_neg (by rw [hused, hphase]; decide)]
  refine ⟨_, rfl, State.linkPhase_startRetrain .., ?_, ?_⟩
  · rw [State.link_startRetrain]
  · rw [State.regBit, State.reg_startRetrain_apart _ _ (by simp [Off.volLaneFail, Off.volLstat])
      (by simp [Off.volLaneFail, Off.volRetrainCount]), State.reg_logError, State.reg_setReg, if_pos rfl]
    simp [nbit]

theorem execRetrainFail_over (hretraining : (s.link l).retraining = true)
    (hover : (s.link l).retrainStart + retrainLimit ≤ s.landing.fclk.toNat) :
    ∃ n, execRetrainFail l s = .next n ∧ n.linkPhase l = 1 := by
  refine ⟨(s.linkGoesDown l).setPhase l 1, ?_, State.linkPhase_setPhase _ l (by decide)⟩
  simp only [execRetrainFail, hruns, hretraining, ge_iff_le, hover, Bool.not_true, Bool.false_eq_true, if_false, decide_true,
    Bool.and_self, if_true, done]

theorem State.retrainLink_active (hphase : s.linkPhase l = 5) : s.retrainLink l = s.startRetrain l := by
  have hgoes : s.stopped = false := by
    simp only [State.runs, Bool.and_eq_true, Bool.not_eq_true'] at hruns
    obtain ⟨⟨-, hgoes⟩, -⟩ := hruns
    exact hgoes
  simp only [State.retrainLink, hphase, hgoes, decide_true, Bool.not_false, Bool.and_self, if_true]

end

/-- ENABLE written to a link that is DOWN starts its training. -/
theorem State.linkPhase_enableLink {s : State} {l : Nat} (hdown : s.linkPhase l = 0) (x4 : Bool) :
    (s.enableLink l true x4).linkPhase l = 1 := by
  have hphase (v : Nat) : (s.setRegField (linkBase l + Off.volLctl) 0 2 v).linkPhase l = 0 := by
    refine Eq.trans ?_ hdown
    unfold State.linkPhase
    rw [State.setRegField_eq, State.regField_setReg, if_neg (by simp [Off.volLstat, Off.volLctl])]
  unfold State.enableLink
  dsimp only
  rw [if_pos rfl, if_pos (hphase _)]
  exact State.linkPhase_setPhase _ l (by decide)

/-- Settles O45: each command of training by the lemma that says where it leaves the link's phase. -/
theorem linksTrain : Obligations.LinksTrain := by
  unfold Obligations.LinksTrain
  intro s l lane lanes info x4 cr wl hruns
  refine ⟨?detect, ?equalise, ?waits, ?chosen, ?credit, ?timeout, ?train, ?lane, ?retrain, ?fail, ?enable⟩
  case detect =>
    intro hphase hlanes
    refine ⟨_, execDetectDone_seen hruns hphase hlanes, State.linkPhase_setPhase _ l (by decide), ?_⟩
    rw [State.link_setPhase, State.modLink_eq, State.link_setLink, if_pos rfl]
  case equalise =>
    intro hphase
    exact ⟨_, execEqualiseDone_adapted hruns hphase,
      (State.linkPhase_of_links (State.sendTrain_frame ..) l).trans (State.linkPhase_setPhase _ l (by decide))⟩
  case waits => exact fun hphase hid => execLaneMapDone_waits hruns lanes hphase hid
  case chosen => exact fun hphase hown hpartner hchosen => execLaneMapDone_chosen hruns hphase hown hpartner hchosen
  case credit => exact execCreditInitDone_active hruns
  case timeout => exact execTrainTimeout_over hruns
  case train =>
    intro hphase
    refine ⟨_, execTrain_kept hruns hphase, State.partner_meetPartner s l info, fun hlow => ?_, fun hhigh => ?_⟩
    · rw [State.modLink_eq, State.link_setLink, if_pos rfl, if_neg (by omega)]
    · rw [State.modLink_eq, State.link_setLink, if_pos rfl, if_pos hhigh]
  case lane => exact fun hphase _ hused => execLaneFail_retrains hruns hphase hused
  case retrain =>
    intro htaken hphase
    refine ⟨s.startRetrain l, ?_, s.linkPhase_startRetrain l, ?_⟩
    · exact (State.done_onWrite htaken _).trans (congrArg _ (State.retrainLink_active hruns hphase))
    · rw [State.link_startRetrain]
      exact ⟨rfl, rfl, rfl⟩
  case fail => exact execRetrainFail_over hruns
  case enable => exact fun htaken hdown => ⟨_, State.done_onWrite htaken _, State.linkPhase_enableLink hdown x4⟩

end Sys2Proof.Machine
end

section
/-! Flits and counts of a link. A flit received changes what the link has sent and what it expects next; what it sends in turn
keeps the SEQ expected. -/

namespace Sys2Proof.Machine

set_option Elab.async false

/-! ## Flits put on the lanes (R385) -/

/-- What puts flits on the lanes adds `n` of them and keeps the replay buffer. -/
def LinkState.Sends (k k' : LinkState) (n : Nat) : Prop := k'.sent.length = k.sent.length + n ∧ k'.replay = k.replay

theorem LinkState.sends_emit (k : LinkState) (f : Flit) : k.Sends (k.emit f) 1 := ⟨List.length_append, rfl⟩

theorem LinkState.sends_foldl_emit (l : List Flit) (k : LinkState) : k.Sends (l.foldl LinkState.emit k) l.length := by
  induction l generalizing k with
  | nil => exact ⟨rfl, rfl⟩
  | cons f l ih =>
    obtain ⟨hsent, hreplay⟩ := ih (k.emit f)
    obtain ⟨hone, hkept⟩ := k.sends_emit f
    exact ⟨by rw [List.foldl_cons, hsent, hone, List.length_cons]; omega, hreplay.trans hkept⟩

/-- The whole replay buffer goes onto the lanes again, and a retrain that the eighth resend starts leaves it. -/
theorem State.sends_resendLink (s : State) (l : Nat) :
    (s.link l).Sends ((s.resendLink l).link l) (s.link l).replay.length := by
  have hsends := LinkState.sends_foldl_emit (s.link l).replay (s.link l)
  unfold State.resendLink
  dsimp only
  split
  · rw [State.link_startRetrain, State.modLink_eq, State.link_setLink, if_pos rfl]
    exact hsends
  · rw [State.modLink_eq, State.link_setLink, if_pos rfl]
    exact hsends

/-! ## Flits received (R385) -/

theorem LinkState.receiving_takeAck (k : LinkState) (ack cr : Nat) : (k.takeAck ack cr).receiving = k.receiving := by
  unfold LinkState.takeAck
  dsimp only
  split <;> rfl

/-- A good flit without NAK: its ACK and CREDIT count, and what they allow is sent. -/
theorem State.control_eq (s : State) (l : Nat) {f : Flit} (hnak : f.nak = false) :
    s.control l f = (s.modLink l fun k => k.takeControl f).pumpLink l := by
  unfold State.control
  dsimp only
  rw [hnak, if_neg Bool.false_ne_true]

theorem State.receiving_control (s : State) (l : Nat) {f : Flit} (hnak : f.nak = false) :
    (s.control l f).receiving = s.receiving := by
  rw [State.control_eq s l hnak]
  exact (State.receiving_pumpLink ..).trans (s.receiving_modLink l fun k => k.receiving_takeAck ..)

/-- After a discard the link waits for the same SEQ, and its NAK is out. -/
theorem State.link_discard (s : State) (l : Nat) :
    ((s.discard l).link l).expect = (s.link l).expect ∧ ((s.discard l).link l).nakSent = true := by
  unfold State.discard
  split
  next h => exact ⟨rfl, h⟩
  next =>
    rw [State.sendIdle, State.modLink_eq, State.link_setLink, if_pos rfl, State.modLink_eq, State.link_setLink, if_pos rfl]
    exact ⟨rfl, rfl⟩

section
variable {s : State} {l : Nat} {f : Flit} (hruns : s.runs = true) (hphase : s.linkPhase l = 5)
include hruns hphase

theorem execIdle_good (htype : f.ftype = 0) (hcrc : crcGood f = true) : execIdle l f s = .next (s.control l f) := by
  simp only [execIdle, hruns, hphase, htype, hcrc, Bool.not_true, Bool.false_eq_true, if_false, decide_true, Bool.and_self, if_true,
    done]

theorem execData_bad (htype : f.ftype = 1) (hcrc : crcGood f = false) :
    execData l f s = .next ((s.countReg (linkBase l + Off.volCrcCount) 1).discard l) := by
  unfold execData
  rw [if_neg (by rw [hruns]; decide), if_neg (by rw [hphase, htype]; decide), if_pos (by rw [hcrc]; rfl)]
  rfl

/-- A good DATA flit is accepted where its SEQ is the one expected, else discarded. -/
theorem execData_good (htype : f.ftype = 1) (hcrc : crcGood f = true) : execData l f s = .next (
    if f.seq.toNat = ((s.control l f).link l).expect then
      ((s.control l f).modLink l fun k => { k with expect := (k.expect + 1) % 4096, nakSent := false }).sendFlit (some l) l f
    else (s.control l f).discard l) := by
  unfold execData
  rw [if_neg (by rw [hruns]; decide), if_neg (by rw [hphase, htype]; decide), if_neg (by rw [hcrc]; decide)]
  dsimp only
  by_cases h : f.seq.toNat = ((s.control l f).link l).expect
  · rw [if_neg (not_not.mpr h), if_pos h]
    rfl
  · rw [if_pos h, if_neg h]
    rfl

/-- What a good DATA flit leaves of the SEQ expected and of the NAK. -/
theorem execData_receives (htype : f.ftype = 1) (hcrc : crcGood f = true) (hnak : f.nak = false) :
    ∃ n, execData l f s = .next n ∧
      (f.seq.toNat = (s.link l).expect → (n.link l).expect = ((s.link l).expect + 1) % 4096 ∧ (n.link l).nakSent = false) ∧
      (f.seq.toNat ≠ (s.link l).expect → (n.link l).expect = (s.link l).expect ∧ (n.link l).nakSent = true) := by
  have hexpect := State.expect_of_receiving (s.receiving_control l hnak) l
  refine ⟨_, execData_good hruns hphase htype hcrc, fun hseq => ?_, fun hseq => ?_⟩
  · have hsent := State.receiving_sendFlit
      ((s.control l f).modLink l fun k => { k with expect := (k.expect + 1) % 4096, nakSent := false }) (some l) l f
    rw [hexpect, if_pos hseq, State.expect_of_receiving hsent, State.nakSent_of_receiving hsent, State.modLink_eq, State.link_setLink,
      if_pos rfl, hexpect]
    exact ⟨rfl, rfl⟩
  · rw [hexpect, if_neg hseq, ← hexpect]
    exact State.link_discard ..

theorem execAckReport_sends : execAckReport l s = .next (s.sendIdle l false) := by
  simp only [execAckReport, hruns, hphase, Bool.not_true, Bool.false_eq_true, if_false, if_true, done]

theorem execReplayTimeout_resends (hreplay : (s.link l).replay ≠ []) : execReplayTimeout l s = .next (s.resendLink l) := by
  simp only [execReplayTimeout, hruns, hphase, hreplay, Bool.not_true, Bool.false_eq_true, if_false, ne_eq, not_false_eq_true,
    decide_true, Bool.and_self, if_true, done]

end

/-! ## Counts and VOL_ID (R391) -/

theorem State.reg_clearLink (s : State) (l : Nat) :
    (s.clearLink l).reg (linkBase l + Off.volCrcCount) = 0 ∧ (s.clearLink l).reg (linkBase l + Off.volReplayCount) = 0 ∧
      (s.clearLink l).reg (linkBase l + Off.volRetrainCount) = 0 := by
  simp [State.clearLink, Off.volCrcCount, Off.volReplayCount, Off.volRetrainCount]

/-- VOL_ID is written while no link is past DETECT. -/
theorem State.writeVolId_eq {s : State} (h : ∀ k, k < 8 → s.linkPhase k ≤ 1) (id : Nat) :
    s.writeVolId id = s.setReg (routerBase + Off.volId) id := by
  refine if_neg ?_
  simpa using h

/-- Settles O46: a flit that is sent or received by what its link has sent and expects next; a register written by its own lemma. -/
theorem linksCarryFlits : Obligations.LinksCarryFlits := by
  unfold Obligations.LinksCarryFlits
  intro s l f id hruns
  refine ⟨?idle, ?data, ?damaged, ?report, ?replay, ?counts, ?volId⟩
  case idle =>
    intro hphase htype hcrc hnak
    rw [← State.control_eq s l hnak]
    exact execIdle_good hruns hphase htype hcrc
  case data => exact fun hphase htype hcrc hnak => execData_receives hruns hphase htype hcrc hnak
  case damaged => exact fun hphase htype hcrc => ⟨_, execData_bad hruns hphase htype hcrc, State.link_discard ..⟩
  case report =>
    intro hphase
    refine ⟨_, execAckReport_sends hruns hphase, ?_⟩
    rw [State.sendIdle, State.modLink_eq, State.link_setLink, if_pos rfl]
    exact LinkState.sends_emit ..
  case replay => exact fun hphase hreplay => ⟨_, execReplayTimeout_resends hruns hphase hreplay, s.sends_resendLink l⟩
  case counts =>
    intro htaken
    obtain ⟨hcrc, hreplay, hretrain⟩ := s.reg_clearLink l
    exact ⟨_, State.done_onWrite htaken _, hcrc, hreplay, hretrain, rfl⟩
  case volId =>
    intro htaken hphases
    refine ⟨_, State.done_onWrite htaken _, ?_⟩
    rw [State.writeVolId_eq hphases, State.reg_setReg, if_pos rfl]

end Sys2Proof.Machine
end

section
/-! The port, the alerts and failures of supply and clock. A change of the port changes nothing else; a failure that stops the clocks
leaves the module its power. -/

namespace Sys2Proof.Machine

set_option Elab.async false

/-! ## The port (R368, R398, R454) -/

/-- PERST# asserted leaves the port in reset, whatever the FLR of the PF before it does. -/
theorem execPerstAssert_down {s : State} (hreleased : s.mod.perst = false) :
    ∃ n, execPerstAssert s = .next n ∧ n.mod.perst = true ∧ n.portUp = false := by
  unfold execPerstAssert
  rw [hreleased, if_neg Bool.false_ne_true]
  refine ⟨_, rfl, rfl, ?_⟩
  simp [State.portUp]

theorem State.trainPort_trains {s : State} (hpower : s.mod.modPg = true) (hreleased : s.mod.perst = false) (hup : s.aldeah.up = true) :
    s.trainPort = { s with port := { s.port with width := 16, rate := s.maxRate, trained := 16 } } :=
  if_pos (by rw [hpower, hreleased, hup]; rfl)

theorem exec_perstRelease {s : State} (hpower : s.mod.modPg = true) (hup : s.aldeah.up = true) :
    ∃ n, exec .perstRelease s = .next n ∧ n.mod.perst = false ∧ n.port.width = 16 ∧ n.port.rate = s.maxRate := by
  refine ⟨(s.modMod fun m => { m with perst := false }).trainPort, rfl, ?_⟩
  rw [State.trainPort_trains (s := s.modMod fun m => { m with perst := false }) hpower rfl hup]
  exact ⟨rfl, rfl, rfl⟩

section
variable {s : State} {width rate : Nat} (hpower : s.mod.modPg = true) (hreleased : s.mod.perst = false) (hup : s.aldeah.up = true)
include hpower hreleased hup

theorem execPcieLinkChange_trains (hwidth : width ∈ [0, 1, 2, 4, 8, 16]) (hrate : rate ∈ portRates) (hmax : rate ≤ s.maxRate) :
    execPcieLinkChange width rate false s =
      .next { s with port := { s.port with width := width, rate := if width = 0 then 0 else rate, trained := width } } := by
  simp only [execPcieLinkChange, hpower, hreleased, hup, List.contains_iff_mem.mpr hwidth, List.contains_iff_mem.mpr hrate, hmax,
    Bool.not_true, Bool.or_false, Bool.false_eq_true, if_false, decide_true, Bool.and_self, if_true, done]

/-- L0p changes the width of a trained link alone. -/
theorem execPcieLinkChange_l0p (htrained : s.port.width ≠ 0) (hwidth : width ∈ [2, 4, 8]) (hmax : width ≤ s.port.trained) :
    execPcieLinkChange width rate true s = .next { s with port := { s.port with width := width } } := by
  simp only [execPcieLinkChange, hpower, hreleased, hup, List.contains_iff_mem.mpr hwidth, htrained, hmax, Bool.not_true,
    Bool.or_false, Bool.false_eq_true, if_false, ne_eq, not_false_eq_true, decide_true, Bool.true_or, Bool.and_self, if_true, done]

end

/-! ## Alerts and failures (R430, R452, R454, R458) -/

theorem State.mod_logError (s : State) (e : ErrRec) : (s.logError e).mod = s.mod := by
  obtain ⟨x, h⟩ := s.logError_frame e
  rw [h]

section
variable {s : State} (hpower : s.mod.modPg = true)
include hpower

theorem execAlertResponse_releases : ∃ n, execAlertResponse s = .next n ∧ n.mod.smbAlert = false := by
  unfold execAlertResponse
  rw [if_pos hpower]
  exact ⟨_, rfl, rfl⟩

/-- A root PLL that loses lock is a FATAL error, which stops the clocks. -/
theorem execRefclkLoss_stops : ∃ n, execRefclkLoss s = .next n ∧ n.stopped = true := by
  unfold execRefclkLoss
  rw [if_pos hpower]
  exact ⟨_, rfl, (State.fatalStop_stops _).1⟩

/-- An input below 40 V stops the device, which keeps its power down to the hold-up limit. -/
theorem execSupplyFail_stops {mv : Nat} (hlow : 26000 ≤ mv) (hhigh : mv < 40000) :
    ∃ n, execSupplyFail mv s = .next n ∧ n.stopped = true ∧ n.mod.modPg = true := by
  obtain ⟨hstopped, hmod, -⟩ := (s.logError (s.powerRec .supplyFail 0 2 mv)).fatalStop_stops
  refine ⟨(s.logError (s.powerRec .supplyFail 0 2 mv)).fatalStop, ?_, hstopped, ?_⟩
  · simp only [execSupplyFail, hpower, hlow, hhigh, decide_true, Bool.and_self, if_true, done]
  · rw [hmod, State.mod_logError, hpower]

end

/-- Settles O49: each command by the lemma that says what it leaves of the port or the module. -/
theorem portAndAlerts : Obligations.PortAndAlerts := by
  unfold Obligations.PortAndAlerts
  intro s mv width rate
  refine ⟨execPerstAssert_down, exec_perstRelease, fun hpower hreleased hup => ⟨?trains, ?l0p⟩, fun hpower => ⟨?_, ?_, ?_⟩⟩
  case trains =>
    intro hwidth hrate hmax
    exact ⟨_, execPcieLinkChange_trains hpower hreleased hup hwidth hrate hmax, rfl, rfl, rfl, rfl, rfl⟩
  case l0p =>
    intro htrained hwidth hmax
    exact ⟨_, execPcieLinkChange_l0p hpower hreleased hup htrained hwidth hmax, rfl, rfl, rfl, rfl, rfl⟩
  · exact execAlertResponse_releases hpower
  · exact execRefclkLoss_stops hpower
  · exact execSupplyFail_stops hpower

end Sys2Proof.Machine
end

section
/-! A partition's life. PCTL changes a partition by its GROUPS and by the procedure that it starts; the kills of the procedure leave each
partition's state and procedure, and the port, as they are. -/

namespace Sys2Proof.Machine

set_option Elab.async false

/-! ## What the kills of a procedure leave (R374) -/

/-- The port, and each partition's state and disable procedure. -/
def State.procedures (s : State) : Port × (Nat → PartState × Option Disable) :=
  (s.port, fun q => ((s.part q).state, (s.part q).disable))

theorem State.port_of_procedures {s n : State} (h : n.procedures = s.procedures) : n.port = s.port := congrArg Prod.fst h

theorem State.state_of_procedures {s n : State} (h : n.procedures = s.procedures) (q : Nat) :
    (n.part q).state = (s.part q).state := congrArg Prod.fst (congrFun (congrArg Prod.snd h) q)

theorem State.disable_of_procedures {s n : State} (h : n.procedures = s.procedures) (q : Nat) :
    (n.part q).disable = (s.part q).disable := congrArg Prod.snd (congrFun (congrArg Prod.snd h) q)

theorem State.procedures_of_outside {s n : State} (h : n.outside = s.outside) : n.procedures = s.procedures :=
  congrArg State.procedures (a₁ := n.outside) (a₂ := s.outside) h

theorem State.procedures_modPart (s : State) (p : Nat) {f : Part → Part}
    (h : ∀ d, (f d).state = d.state ∧ (f d).disable = d.disable) : (s.modPart p f).procedures = s.procedures := by
  unfold State.procedures
  rw [State.modPart_eq, State.port_setPart]
  congr 1
  funext q
  rw [State.part_setPart]
  split
  next hq =>
    obtain ⟨hstate, hdisable⟩ := h (s.part p)
    rw [hstate, hdisable, hq]
  next => rfl

theorem State.procedures_modJob (s : State) (p j : Nat) (f : Job → Job) : (s.modJob p j f).procedures = s.procedures :=
  s.procedures_modPart p fun _ => ⟨rfl, rfl⟩

theorem State.procedures_signalPart (s : State) (p v : Nat) : (s.signalPart p v).procedures = s.procedures := by
  obtain ⟨x, h⟩ := s.signalPart_frame p v
  rw [h]
  rfl

theorem State.procedures_jobRecord (s : State) (p record tag : Nat) (st : Status) (core : Nat) (late : Bool) (progress : Nat) :
    (s.jobRecord p record tag st core late progress).procedures = s.procedures := by
  unfold State.jobRecord
  split
  · rfl
  · exact State.procedures_of_outside (State.writeRecord_outside ..)

theorem State.procedures_endEntry (s : State) (p j : Nat) (r : RunCmd) (st : Status) :
    (s.endEntry p j r st).procedures = s.procedures := by
  have hrecord : (if r.record % 32 = 0 then s.jobRecord p r.record r.tag st 0 false 0 else s).procedures = s.procedures := by
    split
    · exact State.procedures_jobRecord ..
    · rfl
  unfold State.endEntry
  dsimp only
  split
  · exact (State.procedures_signalPart ..).trans hrecord
  · exact hrecord

theorem State.procedures_abortEntries (s : State) (p j n : Nat) : (s.abortEntries p j n).procedures = s.procedures := by
  induction n generalizing s with
  | zero => rfl
  | succ n ih =>
    have hread := State.procedures_of_outside (s.readEntry_outside p j)
    unfold State.abortEntries
    split
    next t x hok =>
      rw [hok] at hread
      exact (ih _).trans ((State.procedures_endEntry ..).trans hread)
    next t x hbad =>
      rw [hbad] at hread
      exact (ih _).trans hread

theorem State.procedures_resumeChannels (s : State) : s.resumeChannels.procedures = s.procedures :=
  foldl_keeps State.procedures (fun _ _ => foldl_keeps State.procedures (fun _ _ => by dsimp only; split <;> rfl) _ _) _ _

theorem State.procedures_unhalt (s : State) (p j : Nat) : (s.unhalt p j).procedures = s.procedures := by
  unfold State.unhalt
  refine (State.procedures_resumeChannels _).trans ((State.procedures_modJob ..).trans ?_)
  exact foldl_keeps State.procedures (f := fun s c => s.modCore c fun k => { k with halted := false }) (fun _ _ => rfl) _ _

theorem State.procedures_killJob (s : State) (p j window : Nat) (st : Status) :
    (s.killJob p j window st).procedures = s.procedures := by
  have hentries := s.procedures_abortEntries p j (s.pendingEntries p j)
  unfold State.killJob
  split
  · rfl
  · rfl
  · dsimp only
    refine (State.procedures_modJob ..).trans ?_
    split
    · exact (State.procedures_unhalt ..).trans hentries
    · exact hentries

theorem State.port_logEntry (s : State) (typ : Nat) (body : List Byte) (urgent : Bool) :
    (s.logEntry typ body urgent).port = s.port := by
  unfold State.logEntry
  dsimp only
  split
  · rw [State.copyLog, State.port_modAldeah, State.port_modAldeah]
  · rw [State.port_modAldeah]

theorem State.port_abortUcode (s : State) (p : Nat) : (s.abortUcode p).port = s.port := by
  unfold State.abortUcode
  split
  · split
    · unfold State.endUcode
      split
      · rfl
      · dsimp only
        rw [State.respond, State.port_modAldeah, State.port_logEntry, State.port_modAldeah, State.modPart_eq, State.port_setPart]
    · rfl
  · rfl

theorem State.port_setPartState (s : State) (p : Nat) (x : PartState) : (s.setPartState p x).port = s.port := by
  obtain ⟨q, l, h⟩ := s.setPartState_frame p x
  rw [h]

/-- The procedure begins in DRAINING, with what it was started for. -/
theorem State.startDisable_begins (s : State) (p : Nat) (d : Disable) :
    ((s.startDisable p d).part p).state = .draining ∧ (s.startDisable p d).port = s.port ∧
      ∃ x, ((s.startDisable p d).part p).disable = some x ∧ x.toEnabled = d.toEnabled ∧ x.status = d.status ∧ x.flr = d.flr := by
  unfold State.startDisable
  extract_lets u t
  have hkept : (jobList.foldl (fun s j => s.killJob p j d.window d.status) t).procedures = t.procedures :=
    foldl_keeps State.procedures (f := fun s j => s.killJob p j d.window d.status)
      (fun s j => s.procedures_killJob p j d.window d.status) _ _
  have hstate : (t.part p).state = .draining := by simp [t]
  have hdisable : (t.part p).disable = some { d with start := s.landing.fclk.toNat } := by
    simp [t, u]
  have hport : t.port = s.port := by
    simp only [t, u, State.port_setPartState, State.modPart_eq, State.port_setPart, State.port_abortUcode]
  refine ⟨(State.state_of_procedures hkept p).trans hstate, (State.port_of_procedures hkept).trans hport, _,
    (State.disable_of_procedures hkept p).trans hdisable, ?_⟩
  exact ⟨rfl, rfl, rfl⟩

/-! ## Writes of PCTL (R371, R372) -/

theorem partBase_pctl_inj {p q : Nat} : partBase q + Off.pctl = partBase p + Off.pctl ↔ q = p := by
  simp only [partBase]
  omega

theorem gstat_ne_pctl (p : Nat) : Off.gstat ≠ partBase p + Off.pctl := by
  simp only [Off.gstat, Off.pctl, partBase]
  omega

theorem State.groupsOk_congr {s n : State} {p : Nat} (h : ∀ q, q ≠ p → n.groupMask q = s.groupMask q) (mask : Nat) :
    n.groupsOk p mask = s.groupsOk p mask := by
  unfold State.groupsOk
  congr 1
  refine List.all_congr rfl fun q => ?_
  by_cases hq : q = p
  · rw [decide_eq_true hq, Bool.true_or, Bool.true_or]
  · rw [h q hq]

theorem State.writeGroups_frame (s : State) (p mask : Nat) :
    ∃ w, s.writeGroups p mask = { s.setRegField (partBase p + Off.pctl) 0 12 mask with towers := w } := by
  unfold State.writeGroups
  dsimp only
  have hfold : ∀ l : List Nat, ∃ w, l.foldl (fun s t =>
      if (s.tower t).owner = p && !nbit mask t then s.modTower t fun tw => { tw with owner := 15 } else s) s =
        { s with towers := w } := fun l =>
    List.foldlRecOn l _ (motive := fun t : State => ∃ w, t = { s with towers := w }) ⟨s.towers, rfl⟩ fun t ht i _ => by
      obtain ⟨w, rfl⟩ := ht
      split <;> exact ⟨_, rfl⟩
  obtain ⟨w, hw⟩ := hfold (List.range s.units)
  exact ⟨w, by rw [hw]; rfl⟩

/-- The state after IRQ_TO_PF and GROUPS of a DISABLED partition are written. -/
def State.pctlGroups (s : State) (p v : Nat) : State :=
  (s.setRegBit (partBase p + Off.pctl) 29 (nbit v 29)).writeGroups p (field v 0 12)

/-- Those writes change PCTL and towers alone. -/
theorem State.pctlGroups_eq (s : State) (p v : Nat) : ∃ w x y, field y 0 12 = v % 4096 ∧
    s.pctlGroups p v = { (s.setReg (partBase p + Off.pctl) x).setReg (partBase p + Off.pctl) y with towers := w } := by
  unfold State.pctlGroups
  rw [State.setRegBit_eq]
  generalize putField _ 29 1 _ = x
  obtain ⟨w, hw⟩ := (s.setReg (partBase p + Off.pctl) x).writeGroups_frame p (field v 0 12)
  refine ⟨w, x, _, ?_, hw⟩
  rw [field_putField]
  exact Nat.mod_mod v 4096

theorem State.groupMask_pctlGroups (s : State) (p v q : Nat) :
    (s.pctlGroups p v).groupMask q = if q = p then v % 4096 else s.groupMask q := by
  obtain ⟨w, x, y, hy, h⟩ := s.pctlGroups_eq p v
  rw [h]
  change ((s.setReg (partBase p + Off.pctl) x).setReg (partBase p + Off.pctl) y).regField (partBase q + Off.pctl) 0 12 = _
  simp only [State.regField_setReg, partBase_pctl_inj, hy]
  split <;> rfl

theorem State.stopped_pctlGroups (s : State) (p v : Nat) : (s.pctlGroups p v).stopped = s.stopped := by
  obtain ⟨w, x, y, -, h⟩ := s.pctlGroups_eq p v
  rw [h]
  change ((s.setReg (partBase p + Off.pctl) x).setReg (partBase p + Off.pctl) y).regBit Off.gstat 30 = _
  rw [State.regBit_setReg, if_neg (gstat_ne_pctl p), State.regBit_setReg, if_neg (gstat_ne_pctl p)]
  rfl

theorem State.part_pctlGroups (s : State) (p v q : Nat) : (s.pctlGroups p v).part q = s.part q := by
  obtain ⟨w, x, y, -, h⟩ := s.pctlGroups_eq p v
  rw [h]
  rfl

theorem State.groupsExist_pctlGroups (s : State) (p v mask : Nat) : (s.pctlGroups p v).groupsExist mask = s.groupsExist mask := by
  obtain ⟨w, x, y, -, h⟩ := s.pctlGroups_eq p v
  rw [h]
  rfl

theorem State.reg_loadUcode (s : State) (p : Nat) (b : Bool) : (s.loadUcode p b).reg = s.reg :=
  foldl_keeps State.reg (fun s t => foldl_keeps State.reg (f := fun s i => s.modCore (24 * t + i) fun k => { k with ucodeB := b })
    (fun _ _ => rfl) _ (s.modTower t fun tw => { tw with ucodeB := b })) _ _

/-- A partition that is enabled keeps its registers. -/
theorem State.reg_enablePart (s : State) (p : Nat) : (s.enablePart p).reg = s.reg := by
  unfold State.enablePart
  extract_lets owned disabled
  obtain ⟨q, x, h⟩ := (disabled.loadUcode p disabled.directory.ucode).setPartState_frame p .enabled
  rw [h]
  refine (disabled.reg_loadUcode p disabled.directory.ucode).trans ?_
  exact foldl_keeps State.reg (f := fun s t => s.modTower t fun tw => { tw with owner := p }) (fun _ _ => rfl) _ _

theorem State.state_enablePart (s : State) (p : Nat) : ((s.enablePart p).part p).state = .enabled := by
  unfold State.enablePart
  dsimp only
  rw [State.part_setPartState, if_pos rfl]

section
variable {s : State} {p v : Nat} (hrun : s.stopped = false)
include hrun

/-- ENABLE written to a DISABLED partition. -/
theorem State.writePctl_disabled (hstate : (s.part p).state = .disabled) (hon : nbit v 31 = true) : s.writePctl p v =
    if s.groupsOk p (v % 4096) && s.groupsExist (v % 4096) then
      ((s.pctlGroups p v).setRegBit (partBase p + Off.pctl) 31 true).enablePart p
    else (s.pctlGroups p v).setRegBit (partBase p + Off.pstat) 28 true := by
  have hmask := s.groupMask_pctlGroups p v p
  rw [if_pos rfl] at hmask
  have hok := State.groupsOk_congr (n := s.pctlGroups p v) (p := p) (fun q hq => (s.groupMask_pctlGroups p v q).trans (if_neg hq))
    (v % 4096)
  have hcond : ((s.pctlGroups p v).groupsOk p ((s.pctlGroups p v).groupMask p) &&
      (s.pctlGroups p v).groupsExist ((s.pctlGroups p v).groupMask p) && !(s.pctlGroups p v).stopped) =
      (s.groupsOk p (v % 4096) && s.groupsExist (v % 4096)) := by
    rw [hmask, hok, State.groupsExist_pctlGroups, State.stopped_pctlGroups, hrun, Bool.not_false, Bool.and_true]
  have hgroups : (if ((s.setRegBit (partBase p + Off.pctl) 29 (nbit v 29)).part p).state = .disabled then
      (s.setRegBit (partBase p + Off.pctl) 29 (nbit v 29)).writeGroups p (field v 0 12)
      else s.setRegBit (partBase p + Off.pctl) 29 (nbit v 29)) = s.pctlGroups p v :=
    if_pos (by rw [State.setRegBit_eq, State.part_setReg, hstate])
  unfold State.writePctl
  dsimp only
  rw [hgroups, State.part_pctlGroups, hstate]
  dsimp only
  rw [hon, Bool.not_true, if_neg Bool.false_ne_true, hcond]

/-- PCTL of an ENABLED partition. -/
theorem State.writePctl_enabled (hstate : (s.part p).state = .enabled) :
    ∃ t : State, t.part p = s.part p ∧ s.writePctl p v =
      if nbit v 31 then if nbit v 30 then t.resetPartition p (t.drainWindow p false) else t
      else (t.setRegBit (partBase p + Off.pctl) 31 false).startDisable p
        { toEnabled := false, status := .aborted, flr := false, window := t.drainWindow p false } := by
  refine ⟨s.setRegBit (partBase p + Off.pctl) 29 (nbit v 29), by rw [State.setRegBit_eq, State.part_setReg], ?_⟩
  generalize ht : s.setRegBit (partBase p + Off.pctl) 29 (nbit v 29) = t
  have hsame : (t.part p).state = .enabled := by rw [← ht, State.setRegBit_eq, State.part_setReg, hstate]
  have hstopped : t.stopped = false := by
    rw [← ht, ← hrun]
    exact s.regBit_setRegBit_apart _ (.inl (gstat_ne_pctl p))
  have hgroups : (if (t.part p).state = .disabled then t.writeGroups p (field v 0 12) else t) = t := if_neg (by rw [hsame]; decide)
  unfold State.writePctl
  dsimp only
  rw [ht, hgroups, hsame]
  dsimp only
  rw [hstopped, if_neg Bool.false_ne_true]
  cases nbit v 31 <;> rfl

end
/-! ## The commands -/

section
variable {s : State} {p : Nat} {value : Word}

theorem exec_pctlEnable (htaken : s.takes .pf (partBase p + Off.pctl) = true) (hon : value.getLsbD 31 = true) :
    exec (.pctlEnable .pf p value) s = .next (s.writePctl p value.toNat) :=
  (if_pos hon).trans (State.done_onWrite htaken fun s => s.writePctl p value.toNat)

theorem exec_pctlDisable (htaken : s.takes .pf (partBase p + Off.pctl) = true) (hoff : value.getLsbD 31 = false) :
    exec (.pctlDisable .pf p value) s = .next (s.writePctl p value.toNat) :=
  (if_neg (by rw [hoff]; decide)).trans (State.done_onWrite htaken fun s => s.writePctl p value.toNat)

theorem exec_reset (htaken : s.takes .pf (partBase p + Off.pctl) = true) (hreset : value.getLsbD 30 = true) :
    exec (.reset .pf p value) s = .next (s.writePctl p value.toNat) :=
  (if_pos hreset).trans (State.done_onWrite htaken fun s => s.writePctl p value.toNat)

end

/-- What ENABLE leaves of a DISABLED partition: ENABLED where its groups exist and are free, else CFG_ERR. -/
theorem State.writePctl_enables {s : State} {p v : Nat} (hrun : s.stopped = false) (hstate : (s.part p).state = .disabled)
    (hon : nbit v 31 = true) : (s.writePctl p v).groupMask p = v % 4096 ∧
      (s.groupsOk p (v % 4096) = true → s.groupsExist (v % 4096) = true → ((s.writePctl p v).part p).state = .enabled) ∧
      (s.groupsOk p (v % 4096) = false ∨ s.groupsExist (v % 4096) = false →
        ((s.writePctl p v).part p).state = .disabled ∧ (s.writePctl p v).regBit (partBase p + Off.pstat) 28 = true) := by
  have hmask := s.groupMask_pctlGroups p v p
  rw [if_pos rfl] at hmask
  rw [State.writePctl_disabled hrun hstate hon]
  cases hfree : s.groupsOk p (v % 4096) && s.groupsExist (v % 4096) with
  | true =>
    obtain ⟨hok, hexist⟩ := Bool.and_eq_true_iff.mp hfree
    rw [if_pos rfl]
    refine ⟨?_, fun _ _ => State.state_enablePart .., fun hbad => ?_⟩
    · rw [State.groupMask, State.regField_congr (State.reg_enablePart ..), State.regField_setRegBit_apart _ _ (.inr (.inl (by decide)))]
      exact hmask
    · simp [hok, hexist] at hbad
  | false =>
    rw [if_neg Bool.false_ne_true]
    refine ⟨?_, fun hok hexist => ?_, fun _ => ⟨?_, State.regBit_setRegBit ..⟩⟩
    · rw [State.groupMask, State.regField_setRegBit_apart _ _ (.inl (by simp [Off.pctl, Off.pstat]))]
      exact hmask
    · simp [hok, hexist] at hfree
    · rw [State.setRegBit_eq, State.part_setReg, State.part_pctlGroups, hstate]

/-- ENABLE cleared in an ENABLED partition starts the procedure that leaves it DISABLED. -/
theorem State.writePctl_disables {s : State} {p v : Nat} (hrun : s.stopped = false) (hstate : (s.part p).state = .enabled)
    (hoff : nbit v 31 = false) : ((s.writePctl p v).part p).state = .draining ∧
      ∃ x, ((s.writePctl p v).part p).disable = some x ∧ x.toEnabled = false ∧ x.status = .aborted ∧ x.flr = false := by
  obtain ⟨t, -, ht⟩ := State.writePctl_enabled (v := v) hrun hstate
  rw [ht, hoff, if_neg Bool.false_ne_true]
  obtain ⟨hdraining, -, hprocedure⟩ := (t.setRegBit (partBase p + Off.pctl) 31 false).startDisable_begins p
    { toEnabled := false, status := .aborted, flr := false, window := t.drainWindow p false }
  exact ⟨hdraining, hprocedure⟩

/-- RESET written to an ENABLED partition starts the procedure that leaves it ENABLED. -/
theorem State.writePctl_resets {s : State} {p v : Nat} (hrun : s.stopped = false) (hstate : (s.part p).state = .enabled)
    (hon : nbit v 31 = true) (hreset : nbit v 30 = true) : ((s.writePctl p v).part p).state = .draining ∧
      ∃ x, ((s.writePctl p v).part p).disable = some x ∧ x.toEnabled = true ∧ x.status = .aborted := by
  obtain ⟨t, hpart, ht⟩ := State.writePctl_enabled (v := v) hrun hstate
  obtain ⟨hdraining, -, x, hx, hto, hstatus, -⟩ := t.startDisable_begins p
    { toEnabled := true, status := .aborted, flr := false, window := t.drainWindow p false }
  rw [ht, hon, if_pos rfl, hreset, if_pos rfl, State.resetPartition, hpart, if_pos hstate]
  exact ⟨hdraining, x, hx, hto, hstatus⟩

/-! ## Function level resets (R374 to R376) -/

/-- An FLR of a VF starts the procedure of its ENABLED partition. -/
theorem exec_flr_vf {s : State} {p : Nat} (hport : s.portUp = true) (hrun : s.stopped = false) (how : FlrKind)
    (hvf : s.port.vfEnable = true) (hunit : p < s.units) (hstate : (s.part p).state = .enabled) :
    ∃ n, exec (.flr (.vf (p + 1)) how) s = .next n ∧ (n.part p).state = .draining ∧
      ∃ x, (n.part p).disable = some x ∧ x.toEnabled = true ∧ x.status = .flrCancelled ∧ x.flr = true := by
  obtain ⟨hdraining, -, hprocedure⟩ := s.startDisable_begins p
    { toEnabled := true, status := .flrCancelled, flr := true, window := s.drainWindow p true }
  refine ⟨s.flrPart p (s.drainWindow p true), ?_, ?_⟩
  · have hexists : (s.port.vfEnable && decide (1 ≤ p + 1) && decide (p + 1 ≤ s.units)) = true := by
      simp [hvf, Nat.succ_le_of_lt hunit]
    change execFlr (.vf (p + 1)) how s = _
    unfold execFlr
    rw [if_neg (by rw [hport, hrun]; decide)]
    exact if_pos hexists
  · rw [State.flrPart, hstate]
    exact ⟨hdraining, hprocedure⟩

theorem State.port_resetPart (s : State) (p : Nat) (flr : Bool) : (s.resetPart p flr).port = s.port := by
  unfold State.resetPart
  extract_lets kept cleared masked
  have hcleared : cleared.port = s.port := by simp only [cleared, kept, State.setRegBit_eq, State.port_setReg]
  have hmasked : masked.port = cleared.port := by
    simp only [masked]
    split
    · exact State.port_modLanding ..
    · rfl
  rw [State.modPart_eq, State.port_setPart, hmasked, hcleared]

theorem State.port_flrPart (s : State) (p window : Nat) : (s.flrPart p window).port = s.port := by
  unfold State.flrPart
  split
  · obtain ⟨-, hport, -⟩ := s.startDisable_begins p { toEnabled := true, status := .flrCancelled, flr := true, window := window }
    exact hport
  · exact s.port_resetPart p true
  · rfl
  · rfl

theorem State.vfEnable_flrPf (s : State) (drain : Bool) : (s.flrPf drain).port.vfEnable = false := by
  unfold State.flrPf
  extract_lets port t u w a gone
  have hu : u.port = t.port :=
    foldl_keeps State.port (f := fun s p => s.flrPart p (if drain then s.drainWindow p true else 0))
      (fun s p => s.port_flrPart p _) _ _
  have hw : w.port = u.port := by
    simp only [w]
    split <;> rfl
  rw [State.port_modAldeah, State.setRegBit_eq, State.port_setReg, State.setRegBit_eq, State.port_setReg, hw, hu]

theorem exec_flr_pf {s : State} (hport : s.portUp = true) (hrun : s.stopped = false) (how : FlrKind) (hfirst : s.pfFlr = false) :
    ∃ n, exec (.flr .pf how) s = .next n ∧ n.port.vfEnable = false := by
  refine ⟨s.flrPf true, ?_, s.vfEnable_flrPf true⟩
  change execFlr .pf how s = _
  unfold execFlr
  rw [if_neg (by rw [hport, hrun]; decide)]
  dsimp only
  rw [hfirst, if_neg Bool.false_ne_true]
  rfl

/-! ## The steps of the procedure (R374) -/

/-- Whatever the cleaning resets, it ends the procedure in the state that the procedure was started for. -/
theorem State.part_finishClean (s : State) (p : Nat) (d : Disable) : ((s.finishClean p d).part p).disable = none ∧
    ((s.finishClean p d).part p).state = if d.toEnabled then .enabled else .disabled := by
  unfold State.finishClean
  extract_lets towers idle reset ended
  have hended : (ended.part p).disable = none ∧ (ended.part p).state = if d.toEnabled then .enabled else .disabled := by
    simp only [ended]
    rw [State.modPart_eq, State.part_setPart, if_pos rfl, State.part_setPartState, if_pos rfl]
    exact ⟨rfl, rfl⟩
  split <;> exact hended

section
variable {s : State} {p : Nat} {d : Disable} (hruns : s.runs = true) (hdisable : (s.part p).disable = some d)
include hruns hdisable

/-- Whatever the end of the drain window cuts off, the partition goes on to CLEANING, in an FLR to the flushing read before it. -/
theorem execDisableDrainEnd_over (hstate : (s.part p).state = .draining) (hover : s.landing.fclk.toNat ≥ d.start + d.window) :
    ∃ n, execDisableDrainEnd p s = .next n ∧ (n.part p).state = if d.flr then .flr else .cleaning := by
  refine ⟨s.finishDrain p d, ?_, ?_⟩
  · simp only [execDisableDrainEnd, hruns, hstate, hdisable, hover, Bool.not_true, Bool.false_eq_true, if_false, if_true, done]
  · unfold State.finishDrain
    dsimp only
    rw [State.part_setPartState, if_pos rfl]

theorem execFlrFlushReadDone_cleans (hstate : (s.part p).state = .flr) :
    ∃ n, execFlrFlushReadDone p s = .next n ∧ (n.part p).state = .cleaning := by
  refine ⟨s.setPartState p .cleaning, ?_, ?_⟩
  · simp only [execFlrFlushReadDone, hruns, hstate, hdisable, Bool.not_true, Bool.false_eq_true, if_false, done]
  · rw [State.part_setPartState, if_pos rfl]

theorem execCleaningDone_ends (hstate : (s.part p).state = .cleaning) (hquiet : s.towersQuiet p = true)
    (hfree : ∀ x ∈ s.partChannels p, (s.chan x.1 x.2).free = true) :
    ∃ n, execCleaningDone p s = .next n ∧ (n.part p).disable = none ∧
      (n.part p).state = if d.toEnabled then .enabled else .disabled := by
  refine ⟨s.finishClean p d, ?_, s.part_finishClean p d⟩
  simp only [execCleaningDone, hruns, hstate, hdisable, hquiet, List.all_eq_true.mpr hfree, Bool.not_true, Bool.false_eq_true,
    if_false, Bool.and_self, if_true, done]

end

/-- Settles O44: a write of PCTL by what it starts, and each step of the procedure by the state that it goes on to. -/
theorem partitionLife : Obligations.PartitionLife := by
  unfold Obligations.PartitionLife
  intro s p value d
  refine ⟨?enable, fun htaken henabled hrun => ⟨?disable, ?reset⟩, fun hport hrun how => ⟨?vf, ?pf⟩,
    fun hruns hdisable => ⟨?drained, ?flushed, ?cleaned⟩⟩
  case enable =>
    intro htaken hdisabled hon hrun
    exact ⟨_, exec_pctlEnable htaken hon, State.writePctl_enables hrun hdisabled hon⟩
  case disable => exact fun hoff => ⟨_, exec_pctlDisable htaken hoff, State.writePctl_disables hrun henabled hoff⟩
  case reset => exact fun hon hreset => ⟨_, exec_reset htaken hreset, State.writePctl_resets hrun henabled hon hreset⟩
  case vf => exact exec_flr_vf hport hrun how
  case pf => exact exec_flr_pf hport hrun how
  case drained => exact execDisableDrainEnd_over hruns hdisable
  case flushed => exact execFlrFlushReadDone_cleans hruns hdisable
  case cleaned => exact execCleaningDone_ends hruns hdisable

end Sys2Proof.Machine
end

section
/-! The state after reset (log 1): nothing is written yet, so that each part, core, channel and register has its reset value. -/

namespace Sys2Proof.Machine

theorem State.part_reset (p : Nat) : State.reset.part p = {} := rfl

theorem State.core_reset (c : Nat) : State.reset.core c = {} := rfl

theorem State.chan_reset (e c : Nat) : State.reset.chan e c = {} := rfl

/-- Reset holds no register that differs from its reset value. -/
theorem State.reg_reset (a : Nat) : State.reset.reg a = regReset .kq12 a := rfl

/-- READY is a bit of GSTAT, whose reset value is 0x00100000. -/
theorem State.ready_reset : State.reset.ready = false := by
  rw [State.ready, State.regBit, State.reg_reset]
  decide

/-- Settles O57: every part, core, channel and register reads as one that nothing has written. -/
theorem resetState : Obligations.ResetState := by
  unfold Obligations.ResetState
  refine ⟨rfl, State.ready_reset, rfl, fun p => ?state, fun p i => ?counter, fun p i => ?sem, fun c => ?task, fun c => ?ctimeout,
    fun e c => ?chan, State.reg_reset⟩
  case state => rw [State.part_reset]
  case counter => rw [State.counter, State.part_reset, mget_nil]
  case sem => rw [State.sem, State.part_reset, mget_nil, semReset]
  case task => rw [State.core_reset]
  case ctimeout => rw [State.core_reset]
  case chan => rw [State.chan_reset]

end Sys2Proof.Machine
end

section
/-! Commands and steps as such: what every command leaves of the queue, the part and OTP, a step as its front command, and reset. -/

namespace Sys2Proof.Machine

/-! ## Writes to the debug block (R417) -/

/-- A write of the PF to the debug block while it is unlocked stops. -/
theorem State.writeBar0_stops {s : State} {offset : Nat} (wide : Bool) (value : DWord) (hanswers : s.answers .pf = true)
    (hunlocked : s.regBit Off.gstat 25 = true) (hlow : 0x10000000 ≤ offset) (hhigh : offset < 2 ^ 29) :
    s.writeBar0 .pf offset wide value = .fault .debugBlock := by
  have hoffset : fnOffset .pf offset = some offset := if_pos hhigh
  simp [State.writeBar0, hoffset, hlow, hanswers, hunlocked]

/-- Only such a write stops. -/
theorem State.of_writeBar0_stops {s : State} {fn : Fn} {offset : Nat} {wide : Bool} {value : DWord}
    (h : s.writeBar0 fn offset wide value = .fault .debugBlock) :
    fn = .pf ∧ s.answers .pf = true ∧ s.regBit Off.gstat 25 = true ∧ 0x10000000 ≤ offset ∧ offset < 2 ^ 29 := by
  unfold State.writeBar0 at h
  split at h
  next => cases h
  next a ha =>
    split at h
    next hlow =>
      split at h
      next hstop =>
        obtain ⟨⟨rfl, hanswers⟩, hunlocked⟩ : (fn = .pf ∧ s.answers fn = true) ∧ s.regBit Off.gstat 25 = true := by
          simpa using hstop
        obtain ⟨hhigh, rfl⟩ : offset < 2 ^ 29 ∧ offset = a := by simpa [fnOffset] using ha
        exact ⟨rfl, hanswers, hunlocked, hlow, hhigh⟩
      next => cases h
    next =>
      split at h
      · cases h
      · split at h
        · cases h
        · split at h <;> cases h

/-- The configuration space has no such write. -/
theorem of_execRegisterWrite_stops {s : State} {fn : Fn} {place : RegPlace} {wide : Bool} {value : DWord}
    (h : execRegisterWrite fn place wide value s = .fault .debugBlock) :
    fn = .pf ∧ s.answers .pf = true ∧ s.regBit Off.gstat 25 = true ∧
      ∃ offset, place = .bar0 offset ∧ 0x10000000 ≤ offset ∧ offset < 2 ^ 29 := by
  cases place with
  | config r => cases h
  | bar0 offset =>
    obtain ⟨hfn, hanswers, hunlocked, hlow, hhigh⟩ := State.of_writeBar0_stops h
    exact ⟨hfn, hanswers, hunlocked, offset, rfl, hlow, hhigh⟩

/-! ## Every command -/

theorem State.Keeps.parts {s : State} {r : Result} (h : s.Keeps r) :
    ∃ n, r = .next n ∧ n.pending = s.pending ∧ n.variant = s.variant ∧ n.otp = s.otp := by
  obtain ⟨n, hr, hn⟩ := h
  obtain ⟨hv, hp, ho⟩ : n.variant = s.variant ∧ n.pending = s.pending ∧ n.otp = s.otp := by simpa [State.fixed] using hn
  exact ⟨n, hr, hp, hv, ho⟩

/-- Settles O59: OTP_WRITE by what it programs (`execOtpWrite_programs`), REGISTER_WRITE by whether it stops, and every other command
by `exec_keeps`. -/
theorem commandsLeaveTheQueue : Obligations.CommandsLeaveTheQueue := by
  unfold Obligations.CommandsLeaveTheQueue
  intro c s
  refine ⟨?stops, fun hgoes => ?goes⟩
  case stops =>
    rintro ⟨hanswers, hunlocked, offset, wide, value, rfl, hlow, hhigh⟩
    exact s.writeBar0_stops wide value hanswers hunlocked hlow hhigh
  case goes =>
    by_cases hotp : c = .otpWrite
    · subst hotp
      obtain ⟨n, hn, hv, hp, -⟩ := execOtpWrite_programs s
      exact ⟨n, hn, hp, hv, fun h => absurd rfl h⟩
    · suffices hkeeps : s.Keeps (exec c s) by
        obtain ⟨n, hn, hp, hv, ho⟩ := hkeeps.parts
        exact ⟨n, hn, hp, hv, fun _ => ho⟩
      by_cases hwrite : ∃ fn place wide value, c = .registerWrite fn place wide value
      · obtain ⟨fn, place, wide, value, rfl⟩ := hwrite
        refine (execRegisterWrite_keeps s fn place wide value).resolve_right fun hstop => hgoes ?_
        obtain ⟨rfl, hanswers, hunlocked, offset, rfl, hlow, hhigh⟩ := of_execRegisterWrite_stops hstop
        exact ⟨hanswers, hunlocked, offset, wide, value, rfl, hlow, hhigh⟩
      · exact exec_keeps c s hotp fun fn place wide value h => hwrite ⟨fn, place, wide, value, h⟩

/-- Settles O56: the queue is not empty, so that `step` takes its front command. -/
theorem stepRunsTheFront : Obligations.StepRunsTheFront := fun _ _ _ => rfl

/-- Settles O58: reset is of its own part and OTP, and no command waits. -/
theorem resetKeepsTheInvariant : Obligations.ResetKeepsTheInvariant :=
  ⟨rfl, OtpKeeps.refl _, List.forall_mem_nil _⟩

end Sys2Proof.Machine
end

section
/-! Aldeah's log, its answers and its restarts. An entry of the log changes the log alone, an answer the response alone; a reset of
Aldeah's processor changes Aldeah and bits of two registers. -/

namespace Sys2Proof.Machine

set_option Elab.async false

/-! ## The log (R409) -/

theorem State.copyLog_frame (s : State) :
    ∃ x y, s.copyLog = { s with aldeah := { s.aldeah with area0 := x, area1 := y } } := by
  unfold State.copyLog
  exact ⟨_, _, rfl⟩

theorem State.logEntry_frame (s : State) (typ : Nat) (body : List Byte) (urgent : Bool) :
    ∃ l x y k, s.logEntry typ body urgent =
      { s with aldeah := { s.aldeah with log := l, area0 := x, area1 := y, nextSeq := k } } := by
  unfold State.logEntry
  generalize hlast : lastOf 4096 = last
  clear hlast
  as_aux_lemma =>
    dsimp only
    split
    · obtain ⟨x, y, h⟩ := State.copyLog_frame _
      rw [h]
      exact ⟨_, _, _, _, rfl⟩
    · exact ⟨_, s.aldeah.area0, s.aldeah.area1, _, rfl⟩

/-- An entry that is not urgent is the last of the log. -/
theorem State.lastEntry_logEntry (s : State) (typ : Nat) (body : List Byte) :
    (s.logEntry typ body false).aldeah.log.getLast?.map (·.body) = some body := by
  have hroom : (s.aldeah.log ++ [(⟨s.aldeah.nextSeq, s.landing.mclk.toNat, s.boots, typ, body⟩ : LogEntry)]).length - 4096 ≤
      s.aldeah.log.length := by simp
  simp only [State.logEntry, Bool.false_eq_true, if_false, State.modAldeah, lastOf]
  rw [List.drop_append_of_le_length hroom, List.getLast?_concat, Option.map_some]

theorem State.logUpdate_frame (s : State) (ucode old new : Bool) (st : Status) :
    ∃ l x y k, s.logUpdate ucode old new st =
      { s with aldeah := { s.aldeah with log := l, area0 := x, area1 := y, nextSeq := k } } := s.logEntry_frame ..

/-- A record taken changes the log, and the alert of the management bus. -/
theorem State.aldeahTakes_frame (s : State) (r : ErrRec) :
    ∃ l x y k b, s.aldeahTakes r =
      { s with aldeah := { s.aldeah with log := l, area0 := x, area1 := y, nextSeq := k }, mod := { s.mod with smbAlert := b } } := by
  unfold State.aldeahTakes
  dsimp only
  obtain ⟨l, x, y, k, h⟩ := s.logEntry_frame 1 (errBytes r) (decide (r.cls = .contained) || decide (r.cls = .fatal))
  rw [h]
  split
  · exact ⟨l, x, y, k, true, rfl⟩
  · exact ⟨l, x, y, k, s.mod.smbAlert, rfl⟩

theorem State.takeAll_frame (s : State) (records : List ErrRec) :
    ∃ l x y k b, records.foldl State.aldeahTakes s =
      { s with aldeah := { s.aldeah with log := l, area0 := x, area1 := y, nextSeq := k }, mod := { s.mod with smbAlert := b } } := by
  induction records generalizing s with
  | nil => exact ⟨_, _, _, _, _, rfl⟩
  | cons r records ih =>
    obtain ⟨l, x, y, k, b, h⟩ := s.aldeahTakes_frame r
    rw [List.foldl_cons, h]
    exact ih _

/-! ## The register bits of a restart (R407) -/

theorem State.setRegBits_frame (s : State) (a i c k : Nat) (x y : Bool) :
    ∃ r, (s.setRegBit a i x).setRegBit c k y = { s with regs := r } := ⟨_, rfl⟩

theorem State.setDown_eq (s : State) (b : Bool) :
    s.setDown b = (s.setRegBit Off.gstat 24 b).setRegBit (mboxBase + Off.mbxStat) 28 b := by
  rw [State.setDown]

/-- Both ALDEAH_DOWN bits are what they are set to. -/
theorem State.regBit_setDown (s : State) (b : Bool) :
    (s.setDown b).regBit Off.gstat 24 = b ∧ (s.setDown b).regBit (mboxBase + Off.mbxStat) 28 = b := by
  rw [State.setDown_eq]
  refine ⟨?_, State.regBit_setRegBit ..⟩
  rw [State.regBit_setRegBit_apart _ _ (.inl (by decide)), State.regBit_setRegBit]

/-- A switch to the fallback slot changes the slot and its bits in GSTAT. -/
theorem State.switchSlot_frame (s : State) :
    ∃ l b r, s.switchSlot = { s with aldeah := { s.aldeah with resets := l, slotB := b }, regs := r } := by
  unfold State.switchSlot
  generalize s.recentResets = l
  dsimp only
  split
  · obtain ⟨r, h⟩ := State.setRegBits_frame
      (s.modAldeah fun a => { a with resets := [], slotB := s.directory.fallback }) _ _ _ _ _ _
    rw [h]
    exact ⟨_, _, _, rfl⟩
  · exact ⟨_, s.aldeah.slotB, s.regs, rfl⟩

theorem State.regBit_switchSlot (s : State) {a i : Nat} (h : a ≠ Off.gstat ∨ i ≠ 26 ∧ i ≠ 27) :
    s.switchSlot.regBit a i = s.regBit a i := by
  have h26 : a ≠ Off.gstat ∨ i ≠ 26 := h.imp_right And.left
  have h27 : a ≠ Off.gstat ∨ i ≠ 27 := h.imp_right And.right
  unfold State.switchSlot
  generalize s.recentResets = l
  dsimp only
  split
  · rw [State.regBit_setRegBit_apart _ _ h27, State.regBit_setRegBit_apart _ _ h26]
    rfl
  · rfl

/-! ## Down -/

theorem State.setDown_frame (s : State) (b : Bool) : ∃ r, s.setDown b = { s with regs := r } := by
  rw [State.setDown_eq]
  exact s.setRegBits_frame ..

/-- Aldeah as a reset of its processor leaves it. -/
def Aldeah.reset (a : Aldeah) (cause : AldeahCause) : Aldeah :=
  { a with up := false, req := none, rsp := none, queue := [], nonce := none, update := none, ucode := none, cause := some cause }

/-- The state whose Aldeah has been reset, with the bits of the registers that say so. -/
def State.lower (s : State) (cause : AldeahCause) : State :=
  ((s.modAldeah fun a => a.reset cause).setDown true).setRegBit (mboxBase + Off.mbxStat) 31 false

theorem State.lower_frame (s : State) (cause : AldeahCause) :
    ∃ r, s.lower cause = { s with aldeah := s.aldeah.reset cause, regs := r } := by
  unfold State.lower
  obtain ⟨r, h⟩ := (s.modAldeah fun a => a.reset cause).setDown_frame true
  rw [h]
  exact ⟨_, rfl⟩

theorem State.regBit_lower (s : State) (cause : AldeahCause) :
    (s.lower cause).regBit Off.gstat 24 = true ∧ (s.lower cause).regBit (mboxBase + Off.mbxStat) 28 = true := by
  unfold State.lower
  rw [State.regBit_setRegBit_apart _ _ (.inl (by decide)), State.regBit_setRegBit_apart _ _ (.inr (by decide))]
  exact State.regBit_setDown _ true

/-- A reset on request keeps the slot, one by watchdog or ECC may switch it (R406). -/
theorem State.resetAldeah_eq {s : State} (hup : s.aldeah.up = true) (hucode : s.aldeah.ucode = none) (cause : AldeahCause) :
    s.resetAldeah cause = if cause = .request then s.lower cause else (s.lower cause).switchSlot := by
  unfold State.resetAldeah State.lower Aldeah.reset
  rw [hup, hucode]
  rfl

/-- A reset of Aldeah's processor resets nothing else (R407). -/
theorem State.resetAldeah_down {s : State} (hup : s.aldeah.up = true) (hucode : s.aldeah.ucode = none) (cause : AldeahCause) :
    (∃ a r, s.resetAldeah cause = { s with aldeah := a, regs := r } ∧ a.up = false ∧ a.req = none) ∧
      (s.resetAldeah cause).regBit Off.gstat 24 = true ∧ (s.resetAldeah cause).regBit (mboxBase + Off.mbxStat) 28 = true := by
  obtain ⟨hgstat, hmbx⟩ := s.regBit_lower cause
  obtain ⟨r, hlower⟩ := s.lower_frame cause
  rw [State.resetAldeah_eq hup hucode]
  split
  · exact ⟨⟨_, _, hlower, rfl, rfl⟩, hgstat, hmbx⟩
  · refine ⟨?_, ?_, ?_⟩
    · obtain ⟨l, b, r', h⟩ := (s.lower cause).switchSlot_frame
      rw [h, hlower]
      exact ⟨_, _, rfl, rfl, rfl⟩
    · rw [State.regBit_switchSlot _ (.inr (by decide)), hgstat]
    · rw [State.regBit_switchSlot _ (.inl (by decide)), hmbx]

/-! ## Up again (R407, R413) -/

/-- The records that waited are logged, and how many were lost. -/
def State.logWaiting (s : State) : State :=
  let t := s.landing.waiting.foldl State.aldeahTakes s
  let t := if t.landing.recordsLost = 0 then t else t.logEntry 7 (logBody [t.landing.recordsLost]) false
  t.modLanding fun l => { l with waiting := [], recordsLost := 0 }

theorem State.logWaiting_frame (s : State) :
    ∃ l x y k b, s.logWaiting = { s with
        aldeah := { s.aldeah with log := l, area0 := x, area1 := y, nextSeq := k }, mod := { s.mod with smbAlert := b },
        landing := { s.landing with waiting := [], recordsLost := 0 } } ∧
      (s.landing.recordsLost ≠ 0 → l.getLast?.map (·.body) = some (logBody [s.landing.recordsLost])) := by
  obtain ⟨l, x, y, k, b, htakes⟩ := s.takeAll_frame s.landing.waiting
  unfold State.logWaiting
  rw [htakes]
  dsimp only
  split
  next hnone => exact ⟨l, x, y, k, b, rfl, fun h => absurd hnone h⟩
  next =>
    generalize ht : ({ s with
      aldeah := { s.aldeah with log := l, area0 := x, area1 := y, nextSeq := k }, mod := { s.mod with smbAlert := b } } : State) = t
    obtain ⟨l', x', y', k', hlog⟩ := t.logEntry_frame 7 (logBody [s.landing.recordsLost]) false
    have hlast := t.lastEntry_logEntry 7 (logBody [s.landing.recordsLost])
    rw [hlog] at hlast ⊢
    subst ht
    exact ⟨l', x', y', k', b, rfl, fun _ => hlast⟩

theorem State.catchUp_some {s : State} {c : AldeahCause} (h : s.aldeah.cause = some c) :
    s.catchUp = ((s.logEntry 8 (logBody [causeCode c]) false).modAldeah fun a => { a with cause := none }).logWaiting := by
  unfold State.catchUp State.logWaiting
  rw [h]

theorem State.catchUp_none {s : State} (h : s.aldeah.cause = none) :
    s.catchUp = (s.modAldeah fun a => { a with cause := none }).logWaiting := by
  unfold State.catchUp State.logWaiting
  rw [h]

/-- What Aldeah logs as it comes up changes nothing but its log, the alert and the queue of what waited. -/
theorem State.catchUp_frame (s : State) :
    ∃ l x y k b, s.catchUp = { s with
        aldeah := { s.aldeah with cause := none, log := l, area0 := x, area1 := y, nextSeq := k },
        mod := { s.mod with smbAlert := b }, landing := { s.landing with waiting := [], recordsLost := 0 } } ∧
      (s.landing.recordsLost ≠ 0 → l.getLast?.map (·.body) = some (logBody [s.landing.recordsLost])) := by
  cases h : s.aldeah.cause with
  | none =>
    rw [State.catchUp_none h]
    exact State.logWaiting_frame _
  | some c =>
    rw [State.catchUp_some h]
    obtain ⟨l, x, y, k, hlog⟩ := s.logEntry_frame 8 (logBody [causeCode c]) false
    rw [hlog]
    exact State.logWaiting_frame _

theorem State.landing_logUpdate (s : State) (ucode old new : Bool) (st : Status) :
    (s.logUpdate ucode old new st).landing = s.landing := by
  obtain ⟨l, x, y, k, h⟩ := s.logUpdate_frame ucode old new st
  rw [h]

theorem State.landing_writeDirectory (s : State) (d : Directory) : (s.writeDirectory d).landing = s.landing := by
  fun_cases State.writeDirectory <;> rfl

/-- The new image that takes over leaves the queue of what waits for Aldeah. -/
theorem State.landing_takeOver (s : State) : s.takeOver.landing = s.landing := by
  unfold State.takeOver
  dsimp only
  rw [State.landing_modAldeah]
  split
  · rw [State.respond, State.landing_modAldeah, State.setRegBit_eq, State.landing_setReg, State.landing_logUpdate,
      State.landing_writeDirectory]
  · rw [State.setRegBit_eq, State.landing_setReg, State.landing_logUpdate, State.landing_writeDirectory]

/-- The firmware runs again, on its own or after the new image has taken over. -/
theorem execAldeahRestartDone_eq {s : State} (hdown : s.aldeah.up = false) (hpower : s.mod.modPg = true)
    (hbit : s.regBit Off.gstat 24 = true) : ∃ t : State, t.landing = s.landing ∧
      execAldeahRestartDone s = .next ((t.modAldeah fun a => { a with up := true }).setDown false).catchUp := by
  unfold execAldeahRestartDone
  rw [hdown, hpower, hbit, if_neg (by decide)]
  dsimp only
  cases s.aldeah.handover with
  | true => exact ⟨_, s.landing_takeOver, rfl⟩
  | false => exact ⟨_, rfl, rfl⟩

theorem execAldeahRestartDone_up {s : State} (hdown : s.aldeah.up = false) (hpower : s.mod.modPg = true)
    (hbit : s.regBit Off.gstat 24 = true) :
    ∃ n, execAldeahRestartDone s = .next n ∧ n.aldeah.up = true ∧ n.regBit Off.gstat 24 = false ∧
      n.regBit (mboxBase + Off.mbxStat) 28 = false ∧ n.landing.waiting = [] ∧ n.landing.recordsLost = 0 ∧
      (s.landing.recordsLost ≠ 0 → (n.aldeah.log.getLast?.map (·.body)) = some (logBody [s.landing.recordsLost])) := by
  obtain ⟨t, ht, hexec⟩ := execAldeahRestartDone_eq hdown hpower hbit
  obtain ⟨hgstat, hmbx⟩ := (t.modAldeah fun a => { a with up := true }).regBit_setDown false
  obtain ⟨r, hset⟩ := (t.modAldeah fun a => { a with up := true }).setDown_frame false
  obtain ⟨l, x, y, k, b, hcatch, hlog⟩ := ((t.modAldeah fun a => { a with up := true }).setDown false).catchUp_frame
  rw [hset] at hgstat hmbx hcatch hlog hexec
  rw [hexec, hcatch]
  exact ⟨_, rfl, rfl, hgstat, hmbx, rfl, rfl, ht ▸ hlog⟩

end Sys2Proof.Machine
end

section
/-! Error records as they leave. A record that leaves changes the registers of the error block and GSTAT, the messages sent, and what
Aldeah logs; what is queued before and after it stays. -/

namespace Sys2Proof.Machine

set_option Elab.async false

/-! ## What is queued (R424, R425) -/

/-- The records queued, those that wait for Aldeah, and Aldeah. -/
def State.queues (s : State) : List ErrRec × List ErrRec × Aldeah := (s.landing.records, s.landing.waiting, s.aldeah)

theorem State.queues_setReg (s : State) (a v : Nat) : (s.setReg a v).queues = s.queues := rfl

theorem State.queues_reportAer (s : State) (fn : Fn) (x : AerSeverity) : (s.reportAer fn x).queues = s.queues := rfl

theorem State.queues_signal (s : State) (v : Nat) : (s.signal v).queues = s.queues := by
  unfold State.signal
  dsimp only
  split
  · rfl
  · split
    · unfold State.modLanding State.queues
      dsimp only
      split <;> rfl
    · rfl

theorem State.queues_partEvent (s : State) (p : Nat) : (s.partEvent p).queues = s.queues := by
  unfold State.partEvent State.signalPart
  split <;> exact State.queues_signal ..

theorem State.queues_fatalStop (s : State) : s.fatalStop.queues = s.queues := by
  unfold State.fatalStop
  split
  · rfl
  · rw [State.queues_reportAer, State.setRegBit_eq, State.queues_setReg]

theorem State.queues_ringRecord (s : State) (r : ErrRec) : (s.ringRecord r).queues = s.queues := by
  unfold State.ringRecord
  generalize errBytes r = bytes
  dsimp only
  split
  · rfl
  · split
    · rw [State.queues_setReg]
      split <;> rfl
    · rw [State.setRegBit_eq, State.queues_setReg, State.queues_setReg]

theorem State.queues_countCe (s : State) : s.countCe.1.queues = s.queues := by
  unfold State.countCe
  dsimp only
  split
  · split
    · rw [State.setRegBit_eq, State.queues_setReg, State.setRegField_eq, State.queues_setReg]
    · rw [State.setRegField_eq, State.queues_setReg]
  · rfl

theorem State.queues_markContained (s : State) (r : ErrRec) : (s.markContained r).queues = s.queues := by
  unfold State.markContained
  split
  · rw [State.queues_reportAer, State.queues_partEvent, State.setRegBit_eq, State.queues_setReg]
  · rfl

theorem State.queues_countRecord (s : State) (r : ErrRec) : (s.countRecord r).queues = s.queues := by
  unfold State.countRecord
  split
  · dsimp only
    split
    · rw [State.queues_signal, State.queues_countCe]
    · rw [State.queues_countCe]
  · rfl
  · rw [State.queues_markContained, State.queues_signal]
  · rw [State.queues_signal, State.queues_fatalStop]

/-! ## Registers -/

/-- A record that leaves for a ring that is enabled and empty moves PIDX on. -/
theorem State.reg_ringRecord_empty {s : State} (r : ErrRec) (henabled : s.regBit (errBase + Off.errCtl) 0 = true)
    (hempty : s.reg (errBase + Off.errRingPidx) = s.reg (errBase + Off.errRingCidx)) :
    (s.ringRecord r).reg (errBase + Off.errRingPidx) = (s.reg (errBase + Off.errRingPidx) + 1) % 2 ^ 32 := by
  unfold State.ringRecord
  generalize errBytes r = bytes
  rw [henabled, ← hempty]
  have hroom : 0 < 2 ^ s.errLog2 := Nat.two_pow_pos _
  dsimp only
  rw [if_neg (by decide), Nat.add_sub_cancel_left, Nat.mod_self, if_pos hroom, State.reg_setReg, if_pos rfl]

theorem State.reg_partEvent (s : State) (p a : Nat) : (s.partEvent p).reg a = s.reg a := by
  unfold State.partEvent State.signalPart
  split <;> exact State.reg_signal ..

theorem State.reg_countCe (s : State) {a : Nat} (ha : a ≠ errBase + Off.errStat) : s.countCe.1.reg a = s.reg a := by
  unfold State.countCe
  dsimp only
  split
  · split
    · rw [State.setRegBit_eq, State.reg_setReg, if_neg ha, State.setRegField_eq, State.reg_setReg, if_neg ha]
    · rw [State.setRegField_eq, State.reg_setReg, if_neg ha]
  · rfl

theorem State.reg_markContained (s : State) (r : ErrRec) {a : Nat} (ha : a ≠ partBase r.part + Off.pstat) :
    (s.markContained r).reg a = s.reg a := by
  unfold State.markContained
  split
  · rw [State.reportAer, State.reg_modLanding, State.reg_partEvent, State.setRegBit_eq, State.reg_setReg, if_neg ha]
  · rfl

theorem State.reg_fatalStop (s : State) {a : Nat} (ha : a ≠ Off.gstat) : s.fatalStop.reg a = s.reg a := by
  unfold State.fatalStop
  split
  · rfl
  · rw [State.reportAer, State.reg_modLanding, State.setRegBit_eq, State.reg_setReg, if_neg ha]

/-- ERR_STAT, GSTAT and a partition's PSTAT are what a record counted may change. -/
theorem State.reg_countRecord (s : State) (r : ErrRec) {a : Nat} (hstat : a ≠ errBase + Off.errStat) (hgstat : a ≠ Off.gstat)
    (hpstat : a ≠ partBase r.part + Off.pstat) : (s.countRecord r).reg a = s.reg a := by
  unfold State.countRecord
  split
  · dsimp only
    split
    · rw [State.reg_signal, State.reg_countCe _ hstat]
    · rw [State.reg_countCe _ hstat]
  · rfl
  · rw [State.reg_markContained _ _ hpstat, State.reg_signal]
  · rw [State.reg_signal, State.reg_fatalStop _ hgstat]

theorem State.stopped_countRecord (s : State) {r : ErrRec} (hfatal : r.cls = .fatal) : (s.countRecord r).stopped = true := by
  unfold State.countRecord
  rw [hfatal]
  exact (State.regBit_signal ..).trans s.fatalStop_stops.1

/-! ## Records that pass (R425) -/

theorem State.passRecord_down {s : State} (hdown : s.aldeah.up = false) (r : ErrRec) :
    s.passRecord r = s.modLanding fun l => { l with waiting := l.waiting ++ [r] } := by
  unfold State.passRecord
  rw [hdown, if_neg Bool.false_ne_true]

/-- A record that Aldeah takes, or that waits for it, leaves the registers and what is queued before it. -/
theorem State.passRecord_leaves (s : State) (r : ErrRec) :
    (s.passRecord r).regs = s.regs ∧ (s.passRecord r).variant = s.variant ∧
      (s.passRecord r).landing.records = s.landing.records := by
  unfold State.passRecord
  split
  · obtain ⟨l, x, y, k, b, h⟩ := s.aldeahTakes_frame r
    rw [h]
    dsimp only
    split
    · exact ⟨rfl, rfl, rfl⟩
    · generalize ht : ({ s with
        aldeah := { s.aldeah with log := l, area0 := x, area1 := y, nextSeq := k }, mod := { s.mod with smbAlert := b } } : State) = t
      obtain ⟨l', x', y', k', hlog⟩ := t.logEntry_frame 7 (logBody [s.landing.recordsLost]) false
      rw [hlog, ← ht]
      exact ⟨rfl, rfl, rfl⟩
  · exact ⟨rfl, rfl, rfl⟩

theorem State.reg_passRecord (s : State) (r : ErrRec) (a : Nat) : (s.passRecord r).reg a = s.reg a := by
  obtain ⟨hregs, hvariant, -⟩ := s.passRecord_leaves r
  unfold State.reg
  rw [hregs, hvariant]

/-- The state as the first record is taken from the queue, sent to the ring and counted. -/
def State.counted (s : State) (r : ErrRec) (rest : List ErrRec) : State :=
  ((s.modLanding fun d => { d with records := rest }).ringRecord r).countRecord r

section
variable {s : State} {r : ErrRec} {rest : List ErrRec}

theorem execErrorRecordLeave_eq (hrecords : s.landing.records = r :: rest) :
    execErrorRecordLeave s = .next ((s.counted r rest).passRecord r) := by
  unfold execErrorRecordLeave State.counted
  rw [hrecords]
  rfl

theorem State.queues_counted (s : State) (r : ErrRec) (rest : List ErrRec) :
    (s.counted r rest).queues = (rest, s.landing.waiting, s.aldeah) := by
  rw [State.counted, State.queues_countRecord, State.queues_ringRecord]
  rfl

theorem State.records_counted (s : State) (r : ErrRec) (rest : List ErrRec) : (s.counted r rest).landing.records = rest :=
  congrArg Prod.fst (s.queues_counted r rest)

theorem State.waiting_counted (s : State) (r : ErrRec) (rest : List ErrRec) :
    (s.counted r rest).landing.waiting = s.landing.waiting := congrArg (·.2.1) (s.queues_counted r rest)

theorem State.aldeah_counted (s : State) (r : ErrRec) (rest : List ErrRec) : (s.counted r rest).aldeah = s.aldeah :=
  congrArg (·.2.2) (s.queues_counted r rest)

/-- While Aldeah is down the record joins those that wait for it (R407). -/
theorem execErrorRecordLeave_waits (hdown : s.aldeah.up = false) (hrecords : s.landing.records = r :: rest) :
    ∃ n, execErrorRecordLeave s = .next n ∧ n.landing.waiting = s.landing.waiting ++ [r] := by
  refine ⟨_, execErrorRecordLeave_eq hrecords, ?_⟩
  rw [State.passRecord_down (by rw [State.aldeah_counted, hdown]), State.modLanding, State.waiting_counted]

theorem State.pidx_counted (r : ErrRec) (rest : List ErrRec) (henabled : s.regBit (errBase + Off.errCtl) 0 = true)
    (hempty : s.reg (errBase + Off.errRingPidx) = s.reg (errBase + Off.errRingCidx)) :
    (s.counted r rest).reg (errBase + Off.errRingPidx) = (s.reg (errBase + Off.errRingPidx) + 1) % 2 ^ 32 := by
  have hpstat : errBase + Off.errRingPidx ≠ partBase r.part + Off.pstat := by
    simp only [errBase, Off.errRingPidx, partBase, Off.pstat]
    omega
  rw [State.counted, State.reg_countRecord _ _ (by decide) (by decide) hpstat]
  exact State.reg_ringRecord_empty r henabled hempty

end

/-! ## ERR_STAT written (R426) -/

section
variable (s : State) {v : Nat}

theorem State.writeErrStat_zero (hce : nbit v 31 = false) (hring : nbit v 30 = false) : s.writeErrStat v = s := by
  unfold State.writeErrStat
  rw [hce, hring]
  rfl

/-- A 1 in RING_OVF clears it, and leaves the alert and its count. -/
theorem State.regBit_writeErrStat_ring (hring : nbit v 30 = true) : (s.writeErrStat v).regBit (errBase + Off.errStat) 30 = false := by
  unfold State.writeErrStat
  dsimp only
  rw [if_pos hring, State.regBit_setRegBit]

/-- A 1 in CE_ALERT clears it, and the count with it. -/
theorem State.writeErrStat_ce (hce : nbit v 31 = true) :
    (s.writeErrStat v).regBit (errBase + Off.errStat) 31 = false ∧ (s.writeErrStat v).regField (errBase + Off.errStat) 0 16 = 0 := by
  have hclear : ((s.setRegBit (errBase + Off.errStat) 31 false).setRegField (errBase + Off.errStat) 0 16 0).regBit
        (errBase + Off.errStat) 31 = false ∧
      ((s.setRegBit (errBase + Off.errStat) 31 false).setRegField (errBase + Off.errStat) 0 16 0).regField
        (errBase + Off.errStat) 0 16 = 0 := by
    constructor
    · rw [State.setRegField_eq, State.regBit_setReg, if_pos rfl, nbit_putField, if_neg (by decide)]
      exact State.regBit_setRegBit ..
    · rw [State.setRegField_eq, State.regField_setReg, if_pos rfl, field_putField, Nat.zero_mod]
  obtain ⟨hbit, hfield⟩ := hclear
  unfold State.writeErrStat
  dsimp only
  rw [if_pos hce]
  split
  · rw [State.regBit_setRegBit_apart _ _ (.inr (by decide)), State.regField_setRegBit_apart _ _ (.inr (by decide))]
    exact ⟨hbit, hfield⟩
  · exact ⟨hbit, hfield⟩

end

/-- Settles O53: a record passes through `State.counted`, whose queues and registers are known, and Aldeah's part leaves both; a write of
ERR_STAT by its bits. -/
theorem errorRecordsLeave : Obligations.ErrorRecordsLeave := by
  unfold Obligations.ErrorRecordsLeave
  intro s r rest value
  refine ⟨fun hrecords => ⟨_, execErrorRecordLeave_eq hrecords, fun _ => ?left, fun hfatal => ?fatal, fun henabled hempty => ?ring⟩,
    fun htaken => ⟨_, State.done_onWrite htaken _, s.writeErrStat_ce, s.regBit_writeErrStat_ring, s.writeErrStat_zero⟩⟩
  case left =>
    obtain ⟨-, -, hkept⟩ := (s.counted r rest).passRecord_leaves r
    rw [hkept, State.records_counted]
  case fatal =>
    rw [State.stopped, State.regBit, State.reg_passRecord]
    exact State.stopped_countRecord _ hfatal
  case ring => rw [State.reg_passRecord, State.pidx_counted r rest henabled hempty]

end Sys2Proof.Machine
end

section
/-! Aldeah down and up again. While it is down what is asked of it is ignored and what it should log waits. -/

namespace Sys2Proof.Machine

set_option Elab.async false

section
variable {s : State}

/-! ## While Aldeah is down (R407) -/

section
variable (hdown : s.aldeah.up = false)
include hdown

theorem State.doorbell_down (n : Nat) : s.doorbell n = s.setRegBit (mboxBase + Off.mbxStat) 29 true := by
  unfold State.doorbell
  rw [hdown]
  exact if_pos (by simp)

theorem execMctpRequest_down (path : MgmtPath) (message : List Byte) : execMctpRequest path message s = .next s := by
  unfold execMctpRequest
  rw [hdown]
  rfl

theorem execSensorSample_down (values : List (Nat × BitVec 32)) : execSensorSample values s = .next s := by
  unfold execSensorSample
  rw [hdown, if_neg Bool.false_ne_true, done]

end

/-- With 256 records queued one more that folds into none is counted as lost. -/
theorem State.logError_full {e : ErrRec} (hfold : foldRecord e s.landing.records = none)
    (hfull : 256 ≤ s.landing.records.length + s.landing.waiting.length) :
    s.logError e = { s with landing := { s.landing with recordsLost := s.landing.recordsLost + 1 } } := by
  unfold State.logError
  rw [hfold]
  exact if_neg (Nat.not_lt.mpr hfull)

end

/-- Settles O52: a reset by what it leaves of Aldeah and two registers, each command while Aldeah is down by the lemma about it, and the
restart by what it logs. -/
theorem aldeahRestarts : Obligations.AldeahRestarts := by
  unfold Obligations.AldeahRestarts
  intro s
  refine ⟨fun hup hucode => ⟨fun cause => ?reset, ?watchdog⟩, fun hdown => ⟨fun length htaken => ?doorbell, ?_, ?_, ?_⟩,
    fun e => State.logError_full, execAldeahRestartDone_up⟩
  case reset =>
    obtain ⟨⟨a, g, hreset, hdown, hreq⟩, hgstat, hmbx⟩ := State.resetAldeah_down hup hucode cause
    refine ⟨_, rfl, ?_⟩
    rw [hreset] at hgstat hmbx ⊢
    exact ⟨hdown, hreq, rfl, rfl, rfl, rfl, rfl, rfl, rfl, hgstat, hmbx⟩
  case watchdog =>
    obtain ⟨⟨a, g, hreset, hdown, -⟩, -⟩ := State.resetAldeah_down hup hucode .watchdog
    refine ⟨_, rfl, ?_⟩
    rw [hreset]
    exact ⟨hdown, rfl, rfl, rfl⟩
  case doorbell => exact (State.done_onWrite htaken _).trans (congrArg _ (State.doorbell_down hdown _))
  · exact execMctpRequest_down hdown
  · exact execSensorSample_down hdown
  · exact fun r rest hrecords => execErrorRecordLeave_waits hdown hrecords

end Sys2Proof.Machine
end

section
/-! Requests of Aldeah, firmware, microcode, debug, the log and the sensors. A request that is well formed is handled by what its command
does with its payload; its answer changes the response alone. -/

namespace Sys2Proof.Machine

set_option Elab.async false

/-! ## Requests (R410) -/

theorem State.rsp_respond {s : State} {q : MgmtRequest} (h : s.aldeah.req = some q) (st : Status) (payload : List Byte) :
    (s.respond st payload).aldeah.rsp = some (responseBytes q.bytes st payload) := by
  rw [State.respond, State.modAldeah, h]
  rfl

/-- A request of Aldeah, up and READY, that awaits its answer and whose reserved word is zero. -/
structure State.Asked (s : State) (q : MgmtRequest) : Prop where
  up : s.aldeah.up = true
  req : s.aldeah.req = some q
  rsp : s.aldeah.rsp = none
  ready : s.ready = true
  zero : leNum ((q.bytes.drop 8).take 8) = 0

theorem State.Asked.handle {s : State} {q : MgmtRequest} (h : s.Asked q) {code : Nat} (hcode : requestCode q = code)
    (f : List Byte → State) : s.handle code f = f (q.bytes.drop 16) := by
  unfold State.handle
  rw [h.req]
  simp [h.up, h.rsp, h.ready, h.zero, hcode]

/-! ## FW_ACTIVATE (R413) -/

theorem State.handOver_frame (s : State) :
    ∃ r, s.handOver = { s with
      aldeah := { s.aldeah with up := false, handover := true, slotB := !s.directory.active }, regs := r } := by
  unfold State.handOver
  generalize ht : ({ s with aldeah := { s.aldeah with up := false, handover := true, slotB := !s.directory.active } } : State) = t
  obtain ⟨r, h⟩ := t.setDown_frame true
  rw [h, ← ht]
  exact ⟨r, rfl⟩

section
variable {s : State} {q : MgmtRequest}

theorem execFwActivate_eq (h : s.Asked q) (hcode : requestCode q = 0x21) (hlength : 20 ≤ q.bytes.length)
    (haldeah : argWord (q.bytes.drop 16) 0 = 0) (hfree : s.aldeah.update ≠ some true) :
    execFwActivate s = .next (
      if s.slotVerifies false (!s.directory.active) then (s.modAldeah fun a => { a with update := some false }).handOver
      else (s.logUpdate false s.directory.active (!s.directory.active) .checkFail).respond .checkFail []) := by
  have hshort : ¬ q.bytes.length - 16 < 4 := by omega
  unfold execFwActivate
  rw [h.handle hcode, done]
  cases hv : s.slotVerifies false (!s.directory.active) <;> simp [hshort, haldeah, hfree, hv]

/-- A staged image that verifies takes over, one that does not is answered CHECK_FAIL; the flash stays. -/
theorem execFwActivate_hands (h : s.Asked q) (hcode : requestCode q = 0x21) (hlength : 20 ≤ q.bytes.length)
    (haldeah : argWord (q.bytes.drop 16) 0 = 0) (hfree : s.aldeah.update ≠ some true) :
    ∃ n, execFwActivate s = .next n ∧ n.flash = s.flash ∧
      (s.slotVerifies false (!s.directory.active) = true → n.aldeah.handover = true ∧ n.aldeah.up = false ∧
        n.aldeah.slotB = !s.directory.active) ∧
      (s.slotVerifies false (!s.directory.active) = false →
        n.aldeah.rsp = some (responseBytes q.bytes .checkFail []) ∧ n.aldeah.up = true) := by
  rw [execFwActivate_eq h hcode hlength haldeah hfree]
  refine ⟨_, rfl, ?_⟩
  cases s.slotVerifies false (!s.directory.active) with
  | true =>
    obtain ⟨r, hhand⟩ := (s.modAldeah fun a => { a with update := some false }).handOver_frame
    rw [if_pos rfl, hhand]
    exact ⟨rfl, fun _ => ⟨rfl, rfl, rfl⟩, nofun⟩
  | false =>
    obtain ⟨l, x, y, k, hlog⟩ := s.logUpdate_frame false s.directory.active (!s.directory.active) .checkFail
    rw [if_neg Bool.false_ne_true, hlog]
    exact ⟨rfl, nofun, fun _ => ⟨State.rsp_respond (q := q) h.req _ _, h.up⟩⟩

/-- The image that was left starts again, and the directory stays (R413, step 4). -/
theorem execFwActivateFallback_returns (hhand : s.aldeah.handover = true) (hpower : s.mod.modPg = true) :
    ∃ n, execFwActivateFallback s = .next n ∧ n.aldeah.handover = false ∧ n.aldeah.slotB = s.directory.active ∧
      n.flash = s.flash := by
  obtain ⟨l, x, y, k, hlog⟩ := s.logUpdate_frame false s.directory.active (!s.directory.active) .aborted
  unfold execFwActivateFallback
  rw [hhand, hpower, if_neg (by decide)]
  dsimp only
  rw [hlog]
  refine ⟨_, rfl, rfl, rfl, ?_⟩
  split <;> rfl

/-! ## Microcode (R414) -/

theorem execUcodeApply_eq (h : s.Asked q) (hcode : requestCode q = 0x31) (hlength : 24 ≤ q.bytes.length)
    (hpart : argWord (q.bytes.drop 16) 0 < s.units) (hlow : 1 ≤ argWord (q.bytes.drop 16) 1)
    (hhigh : argWord (q.bytes.drop 16) 1 ≤ 1000) (hfree : s.aldeah.ucode = none)
    (hon : (s.part (argWord (q.bytes.drop 16) 0)).state = .enabled) :
    execUcodeApply s = .next ((s.modPart (argWord (q.bytes.drop 16) 0) fun d => { d with ucodeHold := true }).modAldeah fun a =>
      { a with ucode := some ⟨argWord (q.bytes.drop 16) 0, argWord (q.bytes.drop 16) 1, s.landing.mclk.toNat⟩ }) := by
  have hshort : ¬ q.bytes.length - 16 < 8 := by omega
  have hvalid : ¬ s.units ≤ argWord (q.bytes.drop 16) 0 := by omega
  have hzero : argWord (q.bytes.drop 16) 1 ≠ 0 := by omega
  have hlong : ¬ 1000 < argWord (q.bytes.drop 16) 1 := by omega
  unfold execUcodeApply
  rw [h.handle hcode, done]
  simp [hfree, hshort, hvalid, hzero, hlong, hon]

theorem State.aldeah_loadUcode (s : State) (p : Nat) (b : Bool) : (s.loadUcode p b).aldeah = s.aldeah := by
  unfold State.loadUcode
  refine foldl_keeps State.aldeah (fun t k => (foldl_keeps State.aldeah (fun u i => ?_) _ _).trans ?_) _ _
  · rw [State.modCore_eq, State.aldeah_setCore]
  · rw [State.modTower_eq, State.aldeah_setTower]

/-- The end of UCODE_APPLY lifts the hold of its partition. -/
theorem State.endUcode_lifts {u : UcodeApply} (h : s.aldeah.ucode = some u) (old : Bool) (st : Status) :
    (s.endUcode old st).aldeah.ucode = none ∧ ((s.endUcode old st).part u.part).ucodeHold = false := by
  unfold State.endUcode
  rw [h]
  dsimp only
  generalize ht : (s.modPart u.part fun d => { d with ucodeHold := false }).modAldeah (fun a => { a with ucode := none }) = t
  obtain ⟨hnone, hlifted⟩ : t.aldeah.ucode = none ∧ (t.part u.part).ucodeHold = false := by
    rw [← ht, State.modPart_eq, State.part_modAldeah, State.part_setPart, if_pos rfl]
    exact ⟨rfl, rfl⟩
  obtain ⟨l, x, y, k, hlog⟩ := t.logEntry_frame 4
    (logBody [u.part, t.slotVersion true old, t.slotVersion true (t.partUcode u.part), statusCode st]) false
  rw [hlog]
  exact ⟨hnone, hlifted⟩

section
variable {u : UcodeApply} {p : Nat} (hup : s.aldeah.up = true) (hucode : s.aldeah.ucode = some u) (hpart : u.part = p)
include hup hucode hpart

/-- At its idle point the partition is loaded where the default slot verifies, and goes on in any case. -/
theorem execUcodeIdlePoint_lifts (hearly : s.ucodeLate u = false) (hidle : s.idlePoint p = true) (hruns : s.runs = true) :
    ∃ n, execUcodeIdlePoint p s = .next n ∧ n.aldeah.ucode = none ∧ (n.part p).ucodeHold = false := by
  subst hpart
  unfold execUcodeIdlePoint
  rw [hucode]
  simp only [hearly, hidle, hruns, hup, ne_eq, not_true_eq_false, decide_false, Bool.not_true, Bool.or_false, Bool.false_eq_true,
    if_false, done]
  split
  · exact ⟨_, rfl, State.endUcode_lifts ((congrArg Aldeah.ucode (State.aldeah_loadUcode ..)).trans hucode) _ _⟩
  · exact ⟨_, rfl, State.endUcode_lifts hucode _ _⟩

theorem execUcodeTimeout_lifts (hlate : s.ucodeLate u = true) :
    ∃ n, execUcodeTimeout p s = .next n ∧ n.aldeah.ucode = none ∧ (n.part p).ucodeHold = false := by
  subst hpart
  unfold execUcodeTimeout
  rw [hucode]
  simp only [hlate, hup, ne_eq, not_true_eq_false, decide_false, Bool.not_true, Bool.or_false, Bool.false_eq_true, if_false, done]
  exact ⟨_, rfl, State.endUcode_lifts hucode _ _⟩

end

/-! ## Debug, the log and the sensors (R408, R409, R417) -/

theorem State.regBit_lockDebug (hunlocked : s.regBit Off.gstat 25 = true) : s.lockDebug.regBit Off.gstat 25 = false := by
  unfold State.lockDebug
  rw [if_pos hunlocked]
  have hbit := s.regBit_setRegBit Off.gstat 25 false
  generalize s.setRegBit Off.gstat 25 false = t at hbit ⊢
  obtain ⟨l, x, y, k, hlog⟩ := t.logEntry_frame 6 (logBody [0, 0xFFFFFFFF]) true
  rw [hlog]
  exact hbit

theorem execLogFlashCopy_copies (hup : s.aldeah.up = true) : execLogFlashCopy s = .next s.copyLog := if_pos hup

theorem execLogSync_copies (hup : s.aldeah.up = true) (htaken : s.takes .pf Off.gctl = true) :
    execLogSync .pf s = .next s.copyLog :=
  (State.done_onWrite htaken _).trans (congrArg _ (if_pos hup))

/-- Of an area and 4,096 entries at most written to it, the area holds those written. -/
theorem mem_flashArea {area new : List LogEntry} {e : LogEntry} (hnew : new.length ≤ 4096) (he : e ∈ new) :
    e ∈ flashArea (area ++ new) := by
  have hkept : 1024 * ceilDiv ((area ++ new).length - 65536) 1024 ≤ area.length := by
    rw [List.length_append, ceilDiv]
    omega
  unfold flashArea
  rw [List.drop_append_of_le_length hkept]
  exact List.mem_append_right _ he

theorem mem_area0_copyLog {e : LogEntry} (he : e ∈ s.aldeah.log)
    (hnew : e.seq > (s.aldeah.area0.getLast?.map (·.seq)).getD 0) (hlength : s.aldeah.log.length ≤ 4096)
    (harea : s.aldeah.area0 ≠ []) : e ∈ s.copyLog.aldeah.area0 := by
  obtain ⟨last, hlast⟩ : ∃ last, s.aldeah.area0.getLast? = some last := ⟨_, List.getLast?_eq_some_getLast harea⟩
  have hpending : pendingLog s.aldeah.log s.aldeah.area0 = s.aldeah.log.filter fun e => decide (e.seq > last.seq) := by
    rw [pendingLog, hlast]
  rw [hlast] at hnew
  have hmem : e ∈ flashArea (s.aldeah.area0 ++ pendingLog s.aldeah.log s.aldeah.area0) := by
    rw [hpending]
    exact mem_flashArea ((List.length_filter_le _ _).trans hlength) (List.mem_filter.mpr ⟨he, decide_eq_true hnew⟩)
  rwa [State.copyLog]

/-- Values sampled leave the sensors that they do not name. -/
theorem mget_samples (values : List (Nat × BitVec 32)) (m : List (Nat × BitVec 32)) {id : Nat} (h : ∀ x ∈ values, x.1 ≠ id) :
    mget 0 (values.foldl (fun l x => mset 0 l x.1 x.2) m) id = mget 0 m id := by
  induction values generalizing m with
  | nil => rfl
  | cons x values ih =>
    obtain ⟨hx, hvalues⟩ := List.forall_mem_cons.mp h
    rw [List.foldl_cons, ih _ hvalues, mget_mset, if_neg (Ne.symm hx)]

theorem execSensorSample_keeps (hup : s.aldeah.up = true) (values : List (Nat × BitVec 32)) :
    ∃ n, execSensorSample values s = .next n ∧ n.aldeah.log = s.aldeah.log ∧
      ∀ id, (∀ x ∈ values, x.1 ≠ id) → mget 0 n.aldeah.sensors id = mget 0 s.aldeah.sensors id := by
  unfold execSensorSample
  rw [if_pos hup]
  exact ⟨_, rfl, rfl, fun id h => mget_samples _ _ fun x hx => h x (List.mem_of_mem_filter hx)⟩

end

/-- Settles O51: each request by its handling (`State.Asked`), and every other command by the lemma about what it leaves. -/
theorem firmwareAndLog : Obligations.FirmwareAndLog := by
  unfold Obligations.FirmwareAndLog
  intro s q p values u hup
  refine ⟨fun hreq hrsp hready hzero => ⟨?activate, ?apply⟩, execFwActivateFallback_returns, fun hucode hpart => ⟨?idle, ?late⟩,
    fun htaken => ⟨fun hunlocked => ?lock, execLogSync_copies hup htaken⟩, execLogFlashCopy_copies hup,
    fun e he hnew hlength harea => mem_area0_copyLog he hnew hlength harea, execSensorSample_keeps hup values⟩
  case activate => exact execFwActivate_hands ⟨hup, hreq, hrsp, hready, hzero⟩
  case apply =>
    intro hcode hlength hpart hlow hhigh hfree hon
    refine ⟨_, execUcodeApply_eq ⟨hup, hreq, hrsp, hready, hzero⟩ hcode hlength hpart hlow hhigh hfree hon, ?_, rfl⟩
    rw [State.modPart_eq, State.part_modAldeah, State.part_setPart, if_pos rfl]
  case idle => exact execUcodeIdlePoint_lifts hup hucode hpart
  case late => exact execUcodeTimeout_lifts hup hucode hpart
  case lock => exact ⟨_, State.done_onWrite htaken _, State.regBit_lockDebug hunlocked⟩

end Sys2Proof.Machine
end

section
/-! Requests and answers of Aldeah. A request enters by the doorbell or as a message; each command of Table 12-11 does what it names and
prepares its answer; the answer leaves for MBX_RSP. -/

namespace Sys2Proof.Machine

set_option Elab.async false

section
variable {s : State} {q : MgmtRequest}

/-! ## Requests that enter (R410) -/

theorem State.regBit_modAldeah (s : State) (f : Aldeah → Aldeah) (a i : Nat) : (s.modAldeah f).regBit a i = s.regBit a i := rfl

/-- The first request in hand is the one in progress. -/
theorem State.accept_first (hfree : s.aldeah.req = none) (q : MgmtRequest) :
    s.accept q = s.modAldeah fun a => { a with req := some q, rsp := none } := by
  have hnone : s.aldeah.req.isNone = true := by rw [hfree]; rfl
  unfold State.accept State.modAldeah
  dsimp only
  rw [if_pos hnone]

theorem State.doorbell_takes {n : Nat} (hup : s.aldeah.up = true) (hidle : s.regBit (mboxBase + Off.mbxStat) 31 = false)
    (hlow : 16 ≤ n) (hhigh : n ≤ 4096) :
    s.doorbell n = (s.setRegBit (mboxBase + Off.mbxStat) 31 true).accept { bytes := s.mailboxBytes n, path := none } := by
  have hlength : requestLength n = true := by simp [requestLength, hlow, hhigh]
  unfold State.doorbell
  dsimp only
  rw [hup, hidle, hlength, if_neg (by decide)]

theorem execMbxDoorbell_takes {length : BitVec 13} (htaken : s.takes .pf (mboxBase + Off.mbxDoorbell) = true)
    (hup : s.aldeah.up = true) (hidle : s.regBit (mboxBase + Off.mbxStat) 31 = false) (hlow : 16 ≤ length.toNat)
    (hhigh : length.toNat ≤ 4096) (hfree : s.aldeah.req = none) :
    ∃ n, execMbxDoorbell .pf length s = .next n ∧ n.regBit (mboxBase + Off.mbxStat) 31 = true ∧
      n.aldeah.rsp = none ∧ ∃ x, n.aldeah.req = some x ∧ x.bytes = s.mailboxBytes length.toNat ∧ x.path = none := by
  refine ⟨_, State.done_onWrite htaken _, ?_⟩
  rw [State.doorbell_takes hup hidle hlow hhigh]
  have hbit := s.regBit_setRegBit (mboxBase + Off.mbxStat) 31 true
  have haldeah : (s.setRegBit (mboxBase + Off.mbxStat) 31 true).aldeah = s.aldeah := by
    rw [State.setRegBit_eq, State.aldeah_setReg]
  rw [State.accept_first (by rw [haldeah, hfree]), State.regBit_modAldeah]
  exact ⟨hbit, rfl, _, rfl, rfl, rfl⟩

theorem execMctpRequest_takes {message : List Byte} (hup : s.aldeah.up = true) (hpower : s.mod.modPg = true)
    (hlow : 16 ≤ message.length) (hhigh : message.length ≤ 4096) (hfree : s.aldeah.req = none) :
    ∃ n, execMctpRequest .outOfBand message s = .next n ∧ ∃ x, n.aldeah.req = some x ∧ x.bytes = message := by
  have hlength : requestLength message.length = true := by simp [requestLength, hlow, hhigh]
  unfold execMctpRequest
  dsimp only
  rw [hup, State.pathOpen, hpower, hlength, if_pos (by decide), State.accept_first hfree]
  exact ⟨_, rfl, _, rfl, rfl⟩

theorem execSpdmRequest_answers {path : MgmtPath} (hup : s.aldeah.up = true) (hopen : s.pathOpen path = true)
    (request : SpdmRequest) :
    ∃ n, execSpdmRequest path request s = .next n ∧ ∃ a, n.aldeah.sent = s.aldeah.sent ++ [(path, a)] := by
  unfold execSpdmRequest
  rw [hup, hopen, if_pos (by decide)]
  exact ⟨_, rfl, _, rfl⟩

/-- An update begins and is answered with completion code 0 (R413). -/
theorem execPldmFirmwareUpdate_begins {path : MgmtPath} (hup : s.aldeah.up = true) (hopen : s.pathOpen path = true)
    (hboots : s.aldeah.recovery = false) (hfree : s.aldeah.update = none) :
    ∃ n, execPldmFirmwareUpdate path (.begin false) s = .next n ∧ n.aldeah.update = some true ∧
      n.aldeah.sent = s.aldeah.sent ++ [(path, [0])] := by
  unfold execPldmFirmwareUpdate
  rw [hup, hopen, hboots, hfree]
  exact ⟨_, rfl, rfl, rfl⟩

/-! ## Answers that leave (R410) -/

theorem State.aldeah_writeRsp (s : State) (bytes : List Byte) : (s.writeRsp bytes).aldeah = s.aldeah :=
  foldl_keeps State.aldeah (fun t _ => State.aldeah_setReg t _ _) _ _

/-- An answer written to the mailbox, with DONE set, BUSY clear and vector 2 signalled. -/
def State.writeAnswer (s : State) (rsp : List Byte) : State :=
  (((s.writeRsp rsp).setRegBit (mboxBase + Off.mbxStat) 30 true).setRegBit (mboxBase + Off.mbxStat) 31 false).signal 2

theorem State.aldeah_writeAnswer (s : State) (rsp : List Byte) : (s.writeAnswer rsp).aldeah = s.aldeah := by
  unfold State.writeAnswer
  obtain ⟨l, h⟩ := (((s.writeRsp rsp).setRegBit (mboxBase + Off.mbxStat) 30 true).setRegBit
    (mboxBase + Off.mbxStat) 31 false).signal_frame 2
  rw [h, State.setRegBit_eq, State.aldeah_setReg, State.setRegBit_eq, State.aldeah_setReg, State.aldeah_writeRsp]

theorem State.regBit_writeAnswer (s : State) (rsp : List Byte) :
    (s.writeAnswer rsp).regBit (mboxBase + Off.mbxStat) 30 = true ∧
      (s.writeAnswer rsp).regBit (mboxBase + Off.mbxStat) 31 = false := by
  unfold State.writeAnswer
  rw [State.regBit_signal, State.regBit_signal, State.regBit_setRegBit_apart _ _ (.inr (by decide)), State.regBit_setRegBit,
    State.regBit_setRegBit]
  exact ⟨rfl, rfl⟩

/-- An answer for the mailbox, where no request waits behind the one answered. -/
theorem State.deliverRsp_eq (hpath : q.path = none) (hkept : q.dropped = false) (hqueue : s.aldeah.queue = []) (rsp : List Byte) :
    s.deliverRsp q rsp = (s.writeAnswer rsp).modAldeah fun _ => { s.aldeah with req := none, rsp := none } := by
  unfold State.deliverRsp
  rw [hpath, hkept]
  dsimp only
  rw [if_neg Bool.false_ne_true, ← State.writeAnswer, State.modAldeah, State.aldeah_writeAnswer, hqueue, State.modAldeah]

theorem State.deliverRsp_mailbox (hpath : q.path = none) (hkept : q.dropped = false) (hqueue : s.aldeah.queue = [])
    (rsp : List Byte) :
    (s.deliverRsp q rsp).aldeah.req = none ∧ (s.deliverRsp q rsp).aldeah.rsp = none ∧
      (s.deliverRsp q rsp).regBit (mboxBase + Off.mbxStat) 30 = true ∧
      (s.deliverRsp q rsp).regBit (mboxBase + Off.mbxStat) 31 = false := by
  rw [State.deliverRsp_eq hpath hkept hqueue, State.regBit_modAldeah, State.regBit_modAldeah]
  exact ⟨rfl, rfl, s.regBit_writeAnswer rsp⟩

theorem execMbxResponse_delivers {rsp : List Byte} (hup : s.aldeah.up = true) (hreq : s.aldeah.req = some q)
    (hrsp : s.aldeah.rsp = some rsp) : execMbxResponse s = .next (s.deliverRsp q rsp) := by
  unfold execMbxResponse
  rw [hreq, hup, hrsp]
  rfl

/-! ## The commands of Table 12-11 -/

theorem State.aldeah_writeSettings (s : State) (bs : List Byte) : (s.writeSettings bs).aldeah = s.aldeah := by
  unfold State.writeSettings
  dsimp only
  split <;> rfl

section
variable (h : s.Asked q)
include h

/-- GET_INFO, READ_SENSORS and READ_LOG change the response alone. -/
theorem State.Asked.respond {st : Status} {payload : List Byte} :
    (s.respond st payload).aldeah.rsp = some (responseBytes q.bytes st payload) ∧
      s.respond st payload = { s with aldeah := (s.respond st payload).aldeah } := ⟨State.rsp_respond h.req _ _, rfl⟩

theorem execGetInfo_eq (hcode : requestCode q = 1) : execGetInfo s = .next (s.respond .ok s.infoBytes) :=
  congrArg Host.Outcome.next (h.handle hcode _)

theorem execReadSensors_eq (hcode : requestCode q = 2) : execReadSensors s = .next (s.respond .ok s.sensorBytes) :=
  congrArg Host.Outcome.next (h.handle hcode _)

theorem execReadLog_eq (hlength : 12 ≤ (q.bytes.drop 16).length) (hlow : 1 ≤ argWord (q.bytes.drop 16) 2)
    (hhigh : argWord (q.bytes.drop 16) 2 ≤ 63) (hcode : requestCode q = 3) :
    execReadLog s = .next (s.respond .ok ((s.heldLog.filter fun e =>
      decide (leNum ((q.bytes.drop 16).take 8) ≤ e.seq) &&
        decide (e.seq < leNum ((q.bytes.drop 16).take 8) + argWord (q.bytes.drop 16) 2)).flatMap entryBytes)) := by
  unfold execReadLog
  rw [h.handle hcode, done]
  generalize q.bytes.drop 16 = b at hlength hlow hhigh ⊢
  dsimp only
  rw [if_neg]
  simp only [Bool.or_eq_true, decide_eq_true_eq]
  omega

theorem execWriteSettings_eq (hcode : requestCode q = 0x10) :
    execWriteSettings s = .next (if settingsValid (q.bytes.drop 16) then (s.writeSettings (q.bytes.drop 16)).respond .ok []
      else s.respond .descInvalid []) :=
  congrArg Host.Outcome.next (h.handle hcode _)

/-- A settings block that is valid is written, another leaves the flash. -/
theorem execWriteSettings_answers (hcode : requestCode q = 0x10) :
    ∃ n, execWriteSettings s = .next n ∧
      n.aldeah.rsp = some (responseBytes q.bytes (if settingsValid (q.bytes.drop 16) then .ok else .descInvalid) []) ∧
      (settingsValid (q.bytes.drop 16) = false → n.flash = s.flash) := by
  rw [execWriteSettings_eq h hcode]
  cases settingsValid (q.bytes.drop 16) with
  | true =>
    exact ⟨_, rfl, State.rsp_respond ((congrArg Aldeah.req (s.aldeah_writeSettings _)).trans h.req) _ _, nofun⟩
  | false => exact ⟨_, rfl, State.rsp_respond h.req _ _, fun _ => rfl⟩

theorem execFwStage_eq (haldeah : argWord (q.bytes.drop 16) 0 = 0) (hlength : 8 < (q.bytes.drop 16).length)
    (hfits : argWord (q.bytes.drop 16) 1 + ((q.bytes.drop 16).length - 8) ≤ slotSize false) (hfree : s.aldeah.update ≠ some true)
    (hcode : requestCode q = 0x20) :
    execFwStage s = .next (((s.stageImage false (!s.directory.active) (argWord (q.bytes.drop 16) 1)
      ((q.bytes.drop 16).drop 8)).modAldeah fun a => { a with update := some false }).respond .ok []) := by
  unfold execFwStage
  rw [h.handle hcode, done]
  generalize q.bytes.drop 16 = b at haldeah hlength hfits ⊢
  have hdata : ¬ b.length ≤ 8 := Nat.not_le.mpr hlength
  have hroom : ¬ slotSize false < argWord b 1 + (b.length - 8) := Nat.not_lt.mpr hfits
  simp [haldeah, hdata, hroom, hfree, State.stageSlot]

/-! ### OTP (R400) -/

/-- The entry and the answer of OTP_WRITE change Aldeah alone. -/
theorem State.Asked.otpDone (what generation : Nat) (st : Status) :
    (s.otpDone what generation st).aldeah.rsp = some (responseBytes q.bytes st []) ∧
      (s.otpDone what generation st).otp = s.otp := by
  unfold State.otpDone
  obtain ⟨l, x, y, k, hlog⟩ := s.logEntry_frame 5 (logBody [what, generation, statusCode st]) false
  rw [hlog]
  exact ⟨State.rsp_respond h.req _ _, rfl⟩

theorem State.Asked.otp (m : Memory) : ({ s with otp := m } : State).Asked q := ⟨h.up, h.req, h.rsp, h.ready, h.zero⟩

theorem execOtpWrite_eq (hlength : (q.bytes.drop 16).length = 8) (hfield : argWord (q.bytes.drop 16) 0 < 4)
    (hcode : requestCode q = 0x11) :
    execOtpWrite s = .next (s.writeSetting (argWord (q.bytes.drop 16) 0) (argWord (q.bytes.drop 16) 1)) := by
  unfold execOtpWrite
  rw [h.handle hcode, done]
  generalize q.bytes.drop 16 = b at hlength hfield ⊢
  dsimp only
  rw [if_neg (by omega), if_pos hlength, if_pos hfield]

theorem execOtpWrite_answers (hlength : (q.bytes.drop 16).length = 8) (hfield : argWord (q.bytes.drop 16) 0 < 4) (k : Nat)
    (hrecord : s.unusedRecord (argWord (q.bytes.drop 16) 0) = some k) (hcode : requestCode q = 0x11) :
    ∃ n, execOtpWrite s = .next n ∧
      n.aldeah.rsp = some (responseBytes q.bytes
        (if s.settingAllowed (argWord (q.bytes.drop 16) 0) (argWord (q.bytes.drop 16) 1) then .ok else .refused) []) ∧
      n.otp = if s.settingAllowed (argWord (q.bytes.drop 16) 0) (argWord (q.bytes.drop 16) 1)
        then s.otp.setNum (0x400 + 40 * argWord (q.bytes.drop 16) 0 + 8 * k) 8 (otpRecordOf (argWord (q.bytes.drop 16) 1))
        else s.otp := by
  rw [execOtpWrite_eq h hlength hfield hcode]
  refine ⟨_, rfl, ?_⟩
  unfold State.writeSetting
  rw [hrecord]
  dsimp only
  split
  · exact (h.otp _).otpDone _ _ _
  · exact h.otpDone _ _ _

/-! ### REPAIR_PERSIST (R442) -/

theorem execRepairPersist_answers (hlength : 16 ≤ (q.bytes.drop 16).length) (htower : argWord (q.bytes.drop 16) 0 < s.units)
    (hfloor : argWord (q.bytes.drop 16) 1 < 16) (hbank : argWord (q.bytes.drop 16) 2 < 64)
    (hband : argWord (q.bytes.drop 16) 3 < 64) (hcode : requestCode q = 0x40) :
    ∃ n, execRepairPersist s = .next n ∧
      n.aldeah.rsp = some (responseBytes q.bytes (if s.journal.length < 16383 then .ok else .refused) []) ∧
      n.journal.length = if s.journal.length < 16383 then s.journal.length + 1 else s.journal.length := by
  unfold execRepairPersist
  rw [h.handle hcode, done]
  generalize q.bytes.drop 16 = b at hlength htower hfloor hbank hband ⊢
  refine ⟨_, rfl, ?_⟩
  dsimp only
  rw [if_neg]
  · unfold State.writeJournal
    split
    · refine ⟨State.rsp_respond (q := q) h.req _ _, ?_⟩
      exact List.length_append
    · exact ⟨State.rsp_respond h.req _ _, rfl⟩
  · simp only [Bool.or_eq_true, decide_eq_true_eq]
    omega

/-! ### Debug (R417) -/

theorem execDebugChallenge_answers (hcode : requestCode q = 0x50) :
    ∃ n, execDebugChallenge s = .next n ∧ ∃ x, n.aldeah.nonce = some x ∧ x.length = 32 ∧
      n.aldeah.rsp = some (responseBytes q.bytes .ok x) := by
  unfold execDebugChallenge
  rw [h.handle hcode, done]
  refine ⟨_, rfl, _, rfl, ?_, ?_⟩
  · rw [List.length_map, List.length_range]
  · exact State.rsp_respond (q := q) h.req _ _

theorem execDebugUnlock_eq (hcode : requestCode q = 0x51) :
    execDebugUnlock s = .next (
      if s.unlocks (Memory.ofBytes 0 (q.bytes.drop 16)) then
        ((((s.modAldeah fun a => { a with nonce := none }).setRegBit Off.gstat 25 true).modAldeah fun a =>
          { a with unlocked := true }).logEntry 6 (logBody [1, (Memory.ofBytes 0 (q.bytes.drop 16)).num 0xC 4]) true).respond .ok []
      else (s.modAldeah fun a => { a with nonce := none }).respond .refused []) :=
  congrArg Host.Outcome.next (h.handle hcode _)

/-- Each nonce serves one attempt, and a token that unlocks sets DEBUG_UNLOCKED. -/
theorem execDebugUnlock_answers (hcode : requestCode q = 0x51) :
    ∃ n, execDebugUnlock s = .next n ∧
      n.aldeah.rsp = some (responseBytes q.bytes
        (if s.unlocks (Memory.ofBytes 0 (q.bytes.drop 16)) then .ok else .refused) []) ∧
      n.aldeah.nonce = none ∧
      n.regBit Off.gstat 25 = (s.unlocks (Memory.ofBytes 0 (q.bytes.drop 16)) || s.regBit Off.gstat 25) := by
  rw [execDebugUnlock_eq h hcode]
  refine ⟨_, rfl, ?_⟩
  cases s.unlocks (Memory.ofBytes 0 (q.bytes.drop 16)) with
  | true =>
    have hbit := (s.modAldeah fun a => { a with nonce := none }).regBit_setRegBit Off.gstat 25 true
    obtain ⟨r, hset⟩ : ∃ r, (s.modAldeah fun a => { a with nonce := none }).setRegBit Off.gstat 25 true =
        { s.modAldeah fun a => { a with nonce := none } with regs := r } := ⟨_, rfl⟩
    rw [hset] at hbit ⊢
    rw [if_pos rfl]
    generalize logBody _ = body
    obtain ⟨l, x, y, k, hlog⟩ := (({ s.modAldeah fun a => { a with nonce := none } with regs := r } : State).modAldeah fun a =>
      { a with unlocked := true }).logEntry_frame 6 body true
    rw [hlog]
    exact ⟨State.rsp_respond (q := q) h.req _ _, rfl, hbit⟩
  | false => exact ⟨State.rsp_respond (q := q) h.req _ _, rfl, rfl⟩

end

end

/-- Settles O50: a request that enters by `State.doorbell` and `State.accept`, each command of Table 12-11 by its handling
(`State.Asked`), and an answer for the mailbox by `State.deliverRsp`. -/
theorem managementRequests : Obligations.ManagementRequests := by
  unfold Obligations.ManagementRequests
  intro s length q path message spdm
  refine ⟨execMbxDoorbell_takes, execMctpRequest_takes, fun hup hopen => execSpdmRequest_answers hup hopen spdm,
    execPldmFirmwareUpdate_begins, fun hup hreq hpath hkept rsp hrsp hqueue => ?response, fun hup hreq hrsp hready hzero => ?_⟩
  case response =>
    exact ⟨_, execMbxResponse_delivers hup hreq hrsp, State.deliverRsp_mailbox hpath hkept hqueue rsp⟩
  have h : s.Asked q := ⟨hup, hreq, hrsp, hready, hzero⟩
  refine ⟨fun hcode => ⟨_, execGetInfo_eq h hcode, h.respond⟩, fun hcode => ⟨_, execReadSensors_eq h hcode, h.respond⟩,
    fun hlength hlow hhigh hcode => ⟨_, execReadLog_eq h hlength hlow hhigh hcode, h.respond⟩, execWriteSettings_answers h,
    execOtpWrite_answers h, fun haldeah hlength hfits hfree hcode => ?stage, execRepairPersist_answers h,
    execDebugChallenge_answers h, execDebugUnlock_answers h⟩
  case stage =>
    exact ⟨_, execFwStage_eq h haldeah hlength hfits hfree hcode, State.rsp_respond (q := q) h.req _ _, rfl⟩

end Sys2Proof.Machine
end

section
/-! Tests of cores and groups, evacuations and folds. The status registers hold few spares and small codes, so that BUSY and DONE are the
bits that are written; what a unit becomes is written to it last. -/

namespace Sys2Proof.Machine

set_option Elab.async false

/-! ## ERR_CORE_STAT (R432) -/

theorem State.sparesLeft_le (s : State) (sp : Nat) : s.sparesLeft sp ≤ 4 := by
  have hfit : Config.sparesPerSpire s.variant ≤ 4 := by cases s.variant <;> decide
  have htake : (s.spareCores sp).length ≤ Config.sparesPerSpire s.variant := List.length_take_le ..
  exact (Nat.sub_le ..).trans (htake.trans hfit)

/-- BUSY and DONE of a status word whose lower fields stay below them. -/
theorem nbit_status (busy done : Bool) {st spares : Nat} (hst : st ≤ 12) (hspares : spares ≤ 4) :
    nbit (b2n busy * 2 ^ 31 + b2n done * 2 ^ 30 + st * 2 ^ 16 + spares * 2 ^ 12) 31 = busy ∧
      nbit (b2n busy * 2 ^ 31 + b2n done * 2 ^ 30 + st * 2 ^ 16 + spares * 2 ^ 12) 30 = done := by
  unfold nbit
  rw [Nat.testBit_eq_decide_div_mod_eq, Nat.testBit_eq_decide_div_mod_eq]
  cases busy <;> cases done <;> simp [b2n] <;> omega

theorem State.regBit_coreStat (s : State) (busy done : Bool) (st : Status) (core : Nat) :
    (s.coreStat busy done st core).regBit (errBase + Off.errCoreStat) 31 = busy ∧
      (s.coreStat busy done st core).regBit (errBase + Off.errCoreStat) 30 = done := by
  unfold State.coreStat
  rw [State.regBit_setReg, if_pos rfl, State.regBit_setReg, if_pos rfl]
  exact nbit_status busy done (statusCode_le st) (s.sparesLeft_le _)

theorem State.core_coreStat (s : State) (busy done : Bool) (st : Status) (core k : Nat) :
    (s.coreStat busy done st core).core k = s.core k := State.core_setReg ..

/-! ## Cores (R432, R433) -/

section
variable {s : State} {k : Nat}

theorem State.stopped_setReg (s : State) {a : Nat} (v : Nat) (ha : Off.gstat ≠ a) : (s.setReg a v).stopped = s.stopped := by
  rw [State.stopped, State.regBit_setReg, if_neg ha, State.stopped]

theorem State.coreExists_setReg (s : State) (a v c : Nat) : (s.setReg a v).coreExists c = s.coreExists c := rfl

/-- The test of a core begins: the core is to be drained, and BUSY is set. -/
theorem State.beginTest_core (t : State) (replace done : Bool) (core : Nat) :
    let n := (t.modCore core fun k => { k with testing := some replace, drained := false }).coreStat true done .ok core
    (n.core core).testing = some replace ∧ (n.core core).drained = false ∧ n.regBit (errBase + Off.errCoreStat) 31 = true := by
  dsimp only
  rw [State.core_coreStat, State.modCore_eq, State.core_setCore, if_pos rfl]
  exact ⟨rfl, rfl, (State.regBit_coreStat ..).1⟩

theorem State.testCore_begins (replace : Bool) (hidle : s.regBit (errBase + Off.errCoreStat) 31 = false)
    (hexists : s.coreExists k = true) (hthere : (s.core k).retired = false) (hgoes : s.stopped = false) :
    s.testCore replace k = (s.modCore k fun k => { k with testing := some replace, drained := false }).coreStat true
      (s.regBit (errBase + Off.errCoreStat) 30) .ok k := by
  unfold State.testCore
  dsimp only
  rw [hidle, hexists, hthere, hgoes, if_neg Bool.false_ne_true, if_neg (by decide)]

theorem execErrCoreTest_go {replace : Bool} {core : BitVec 9} (htaken : s.takes .pf (errBase + Off.errCoreTest) = true)
    (hidle : s.regBit (errBase + Off.errCoreStat) 31 = false) (hexists : s.coreExists core.toNat = true)
    (hthere : (s.core core.toNat).retired = false) (hgoes : s.stopped = false) :
    ∃ n, execErrCoreTest (.go .pf replace) core s = .next n ∧ (n.core core.toNat).testing = some replace ∧
      (n.core core.toNat).drained = false ∧ n.regBit (errBase + Off.errCoreStat) 31 = true := by
  unfold execErrCoreTest
  dsimp only
  rw [State.done_onWrite htaken]
  generalize b2n replace * 2 ^ 30 + core.toNat = v
  refine ⟨_, rfl, ?_⟩
  have hidle' : (s.setReg (errBase + Off.errCoreTest) v).regBit (errBase + Off.errCoreStat) 31 = false := by
    rw [State.regBit_setReg, if_neg (by decide), hidle]
  have hgoes' : (s.setReg (errBase + Off.errCoreTest) v).stopped = false := by
    rw [State.stopped_setReg _ _ (by decide), hgoes]
  have hthere' : ((s.setReg (errBase + Off.errCoreTest) v).core core.toNat).retired = false := by rw [State.core_setReg, hthere]
  rw [State.testCore_begins replace hidle' ((State.coreExists_setReg ..).trans hexists) hthere' hgoes']
  exact State.beginTest_core ..

theorem execErrCoreTest_coreUe {core : BitVec 9} (hruns : s.runs = true) (hexists : s.coreExists core.toNat = true)
    (hthere : (s.core core.toNat).retired = false) (hserves : s.serving (Config.groupOfCore core.toNat) = true)
    (hfree : (s.core core.toNat).testing = none) (array : Word) :
    ∃ n, execErrCoreTest (.coreUe array) core s = .next n ∧ (n.core core.toNat).testing = some false ∧
      (n.core core.toNat).drained = false ∧ n.regBit (errBase + Off.errCoreStat) 31 = true := by
  refine ⟨_, rfl, ?_⟩
  unfold State.coreError
  dsimp only
  rw [hruns, hexists, hthere, hserves, hfree, if_neg (by decide), Option.isSome_none, if_neg Bool.false_ne_true]
  exact State.beginTest_core ..

theorem execCoreDrained_drains (hruns : s.runs = true) (htest : (s.core k).testing.isSome = true) (hidle : (s.core k).task = none) :
    ∃ n, execCoreDrained k s = .next n ∧ (n.core k).drained = true := by
  unfold execCoreDrained
  dsimp only
  rw [hruns, htest, hidle, if_pos (by decide)]
  refine ⟨_, rfl, ?_⟩
  rw [State.modCore_eq, State.core_setCore, if_pos rfl]

theorem State.core_replaceCore_out (s : State) {core : Nat} (hnone : s.sparesLeft (s.spireOf core) = 0) :
    ((s.replaceCore core).core core).retired = true ∧ ((s.replaceCore core).core core).phys = none := by
  unfold State.replaceCore
  dsimp only
  rw [if_pos hnone, State.setRegBit_eq, State.core_setReg, State.core_setCore, if_pos rfl]
  exact ⟨rfl, rfl⟩

section
variable (hruns : s.runs = true) (hdrained : (s.core k).drained = true)
include hruns hdrained

/-- A core that passes comes back as the physical core it was, with its own cycle count. -/
theorem execCoreBistDone_back (htest : (s.core k).testing = some false) (hlast : s.otherTests k = false) :
    ∃ n, execCoreBistDone k true s = .next n ∧ (n.core k).testing = none ∧
      (n.core k).phys = some (s.physCore k) ∧ (n.core k).cycles = (s.core k).cycles ∧
      n.regBit (errBase + Off.errCoreStat) 31 = false ∧ n.regBit (errBase + Off.errCoreStat) 30 = true := by
  unfold execCoreBistDone
  dsimp only
  rw [hruns, hdrained, htest, hlast]
  refine ⟨_, rfl, ?_⟩
  rw [State.core_coreStat, State.core_setCore, if_pos rfl]
  exact ⟨rfl, rfl, rfl, State.regBit_coreStat ..⟩

/-- A core that fails with no spare left is retired. -/
theorem execCoreBistDone_retires (htest : (s.core k).testing = some true) (hnone : s.sparesLeft (s.spireOf k) = 0) :
    ∃ n, execCoreBistDone k false s = .next n ∧ (n.core k).retired = true ∧ (n.core k).phys = none := by
  unfold execCoreBistDone
  dsimp only
  rw [hruns, hdrained, htest]
  refine ⟨_, rfl, ?_⟩
  rw [State.core_coreStat]
  exact State.core_replaceCore_out _ hnone

end

end

/-! ## Groups (R443) -/

section
variable {s : State} {k : Nat}

theorem State.group_groupStat (s : State) (busy done : Bool) (st : Status) (g : Nat) :
    (s.groupStat busy done st).group g = s.group g := State.group_setReg ..

theorem State.testGroup_begins (hidle : s.regBit (errBase + Off.errGroupStat) 31 = false) (hunit : k < s.units)
    (hfree : s.owner k = 15) (hserves : (s.group k).outOfService = false) (hgoes : s.stopped = false) :
    s.testGroup k = (s.modGroup k fun x => { x with testing := true }).groupStat true
      (s.regBit (errBase + Off.errGroupStat) 30) .ok := by
  have hunit' : ¬ s.units ≤ k := Nat.not_le.mpr hunit
  unfold State.testGroup
  dsimp only
  rw [hidle, hfree, hserves, hgoes, if_neg Bool.false_ne_true, if_neg (by simp [hunit'])]

theorem execErrGroupTest_begins {group : BitVec 4} (htaken : s.takes .pf (errBase + Off.errGroupTest) = true)
    (hidle : s.regBit (errBase + Off.errGroupStat) 31 = false) (hunit : group.toNat < s.units) (hfree : s.owner group.toNat = 15)
    (hserves : (s.group group.toNat).outOfService = false) (hgoes : s.stopped = false) :
    ∃ n, execErrGroupTest .pf group s = .next n ∧ (n.group group.toNat).testing = true := by
  unfold execErrGroupTest
  rw [State.done_onWrite htaken]
  generalize group.toNat = g at *
  have hidle' : (s.setReg (errBase + Off.errGroupTest) g).regBit (errBase + Off.errGroupStat) 31 = false := by
    rw [State.regBit_setReg, if_neg (by decide), hidle]
  have hgoes' : (s.setReg (errBase + Off.errGroupTest) g).stopped = false := by
    rw [State.stopped_setReg _ _ (by decide), hgoes]
  have hserves' : ((s.setReg (errBase + Off.errGroupTest) g).group g).outOfService = false := by rw [State.group_setReg, hserves]
  have hfree' : (s.setReg (errBase + Off.errGroupTest) g).owner g = 15 := by rw [State.owner, State.tower_setReg]; exact hfree
  have hunit' : g < (s.setReg (errBase + Off.errGroupTest) g).units := by rw [State.units, State.variant_setReg]; exact hunit
  refine ⟨_, rfl, ?_⟩
  rw [State.testGroup_begins hidle' hunit' hfree' hserves' hgoes', State.group_groupStat, State.modGroup_eq, State.group_setGroup,
    if_pos rfl]

/-- A group that passes rests at G4, its tower's contents lost. -/
theorem execGroupTestDone_rests (hruns : s.runs = true) (htest : (s.group k).testing = true) :
    ∃ n, execGroupTestDone k none s = .next n ∧ (n.group k).testing = false ∧ (n.group k).pstate = .g4 ∧ (n.tower k).ram = {} := by
  unfold execGroupTestDone
  rw [hruns, htest, if_neg (by decide)]
  refine ⟨_, rfl, ?_⟩
  rw [State.group_groupStat, State.modGroup_eq, State.group_setGroup, if_pos rfl, State.groupStat, State.tower_setReg,
    State.tower_setGroup, State.tower_exitG4, if_pos rfl]
  exact ⟨rfl, rfl, rfl⟩

/-! ## Floors (R434, R435) -/

theorem State.startEvac_starts {t : Nat} (hcan : s.canEvacuate t = true) (floor : Nat) :
    (s.startEvac t floor).tower t = { s.tower t with
      evac := some floor, running := (s.tower t).running.map fun r => { r with degraded := r.degraded || r.working } } := by
  unfold State.startEvac
  dsimp only
  rw [if_pos hcan, State.tower_setReg, State.modTower_eq, State.tower_setTower, if_pos rfl]

theorem State.canEvacuate_setReg (s : State) {a : Nat} (v t : Nat) (ha : Off.gstat ≠ a) :
    (s.setReg a v).canEvacuate t = s.canEvacuate t := by
  unfold State.canEvacuate
  dsimp only
  rw [State.stopped_setReg _ _ ha, State.tower_setReg]
  rfl

theorem execTwrEvac_starts {t : Nat} {floor : BitVec 4} (htaken : s.takes .pf (towerBase t + Off.twrEvac) = true)
    (hcan : s.canEvacuate t = true) :
    ∃ n, execTwrEvac .pf t floor s = .next n ∧ (n.tower t).evac = some floor.toNat ∧
      ∀ r ∈ (n.tower t).running, r.working = true → r.degraded = true := by
  have hgstat : Off.gstat ≠ towerBase t + Off.twrEvac := by
    simp only [Off.gstat, towerBase, Off.twrEvac]
    omega
  unfold execTwrEvac
  rw [State.done_onWrite htaken]
  refine ⟨_, rfl, ?_⟩
  rw [State.startEvac_starts ((s.canEvacuate_setReg _ t hgstat).trans hcan)]
  refine ⟨rfl, fun r hr hworks => ?_⟩
  obtain ⟨x, -, rfl⟩ := List.mem_map.mp hr
  have hx : x.working = true := hworks
  rw [hx, Bool.or_true]

/-- The floor lies on the spare once its words are copied, whatever the copy finds. -/
theorem execEvacuationDone_ends {t f : Nat} (hruns : s.runs = true) (hevac : (s.tower t).evac = some f) :
    ∃ n, execEvacuationDone t s = .next n ∧ (n.tower t).evac = none ∧ (n.tower t).spareFor = some f := by
  unfold execEvacuationDone
  rw [hevac]
  dsimp only
  rw [hruns, if_neg (by decide)]
  generalize s.copyFloor t f = copied
  refine ⟨_, rfl, ?_⟩
  rw [State.tower_logError, State.tower_writeJournal, State.tower_setReg, State.modTower_eq, State.tower_setTower, if_pos rfl]
  exact ⟨rfl, rfl⟩

/-! ## Channels (R438) -/

theorem execChanFold_bridge {t c : Nat} (hruns : s.runs = true) (hunit : t < s.units) (hchan : c < 32)
    (hgood : nbit (s.tower t).chanFail c = false) :
    ∃ n, execChanFold t c .bridge s = .next n ∧ nbit (n.tower t).chanFail c = true ∧ (n.tower t).ram = (s.tower t).ram := by
  unfold execChanFold
  rw [hruns, decide_eq_true hunit, decide_eq_true hchan, if_pos (by decide)]
  refine ⟨_, rfl, ?_⟩
  unfold State.foldBridge
  dsimp only
  rw [hgood, if_neg Bool.false_ne_true, State.tower_logError, State.tower_writeJournal, State.modTower_eq, State.tower_setTower,
    if_pos rfl]
  refine ⟨?_, rfl⟩
  dsimp only
  rw [nbit, Nat.add_comm, Nat.testBit_two_pow_add_eq, ← nbit, hgood, Bool.not_false]

end

/-- Settles O54: each test, evacuation and fold by the lemma that says what it leaves of its core, group or tower. -/
theorem repairsComplete : Obligations.RepairsComplete := by
  unfold Obligations.RepairsComplete
  intro s replace core group k t c floor f
  refine ⟨execErrCoreTest_go, execErrCoreTest_coreUe, execCoreDrained_drains,
    fun hruns htest hdrained => execCoreBistDone_back hruns hdrained htest,
    fun hruns htest hdrained => execCoreBistDone_retires hruns hdrained htest, execErrGroupTest_begins, execGroupTestDone_rests,
    execTwrEvac_starts, execEvacuationDone_ends, execChanFold_bridge⟩

end Sys2Proof.Machine
end

section
/-! Power at the connector. What start-up does after the rails are up leaves the signals of the rails and the count of boots; a module
that is turned off keeps its flash, OTP and journal. -/

namespace Sys2Proof.Machine

set_option Elab.async false

/-! ## What start-up leaves (R393) -/

/-- Power good, the rails rising, and the count of boots. -/
def State.power (s : State) : Bool × Bool × Nat := (s.mod.modPg, s.mod.rising, s.boots)

theorem State.power_of_outside {s n : State} (h : n.outside = s.outside) : n.power = s.power :=
  congrArg State.power (a₁ := n.outside) (a₂ := s.outside) h

theorem State.power_setReg (s : State) (a v : Nat) : (s.setReg a v).power = s.power := rfl

theorem State.power_setRegBit (s : State) (a i : Nat) (b : Bool) : (s.setRegBit a i b).power = s.power := rfl

theorem State.power_setRegField (s : State) (a lo n v : Nat) : (s.setRegField a lo n v).power = s.power := rfl

theorem State.power_tick (s : State) : s.tick.power = s.power := rfl

theorem State.power_spares (s : State) (l : List (Nat × Nat)) : ({ s with spares := l } : State).power = s.power := rfl

theorem State.power_setCore (s : State) (c : Nat) (x : Core) : (s.setCore c x).power = s.power := rfl

theorem State.power_modGroup (s : State) (g : Nat) (f : Group → Group) : (s.modGroup g f).power = s.power := rfl

theorem State.power_modCore (s : State) (c : Nat) (f : Core → Core) : (s.modCore c f).power = s.power := rfl

theorem State.power_modTower (s : State) (t : Nat) (f : Tower → Tower) : (s.modTower t f).power = s.power := rfl

theorem State.power_modAldeah (s : State) (f : Aldeah → Aldeah) : (s.modAldeah f).power = s.power := rfl

theorem State.power_reportAer (s : State) (fn : Fn) (x : AerSeverity) : (s.reportAer fn x).power = s.power := rfl

theorem State.power_logError (s : State) (e : ErrRec) : (s.logError e).power = s.power := State.power_of_outside (s.logError_outside e)

theorem State.power_writeJournal (s : State) (kind unit floor bank place : Nat) :
    (s.writeJournal kind unit floor bank place).1.power = s.power := State.power_of_outside (s.writeJournal_outside ..)

theorem State.power_logEntry (s : State) (typ : Nat) (body : List Byte) (urgent : Bool) :
    (s.logEntry typ body urgent).power = s.power := by
  obtain ⟨l, x, y, k, h⟩ := s.logEntry_frame typ body urgent
  rw [h]
  rfl

theorem State.power_fatalStop (s : State) : s.fatalStop.power = s.power := by
  unfold State.fatalStop
  split
  · rfl
  · rw [State.power_reportAer, State.power_setRegBit]

/-! ### Links -/

theorem State.power_setPhase (s : State) (l ph : Nat) : (s.setPhase l ph).power = s.power := by
  obtain ⟨g, x, h⟩ := s.setPhase_frame l ph
  rw [h]
  rfl

theorem State.power_setLanes (s : State) (l width lanes : Nat) : (s.setLanes l width lanes).power = s.power := by
  unfold State.setLanes
  dsimp only
  rw [State.power_setRegField, State.power_setRegField, State.power_setRegField, State.power_setRegField]

theorem State.power_dropLink (s : State) (l : Nat) : (s.dropLink l).power = s.power := by
  unfold State.dropLink
  refine (foldl_keeps State.power (fun t x => ?_) _ _).trans rfl
  have hdrop : ((x.1.toList.foldl State.freeBuffer t).logDrop (x.1.map (·.1)) x.2 3).power = t.power := by
    obtain ⟨k, hfree⟩ := State.freeBuffers_frame x.1.toList t
    rw [hfree]
    obtain ⟨g, y, hlog⟩ := State.logDrop_frame { t with links := k } (x.1.map (·.1)) x.2 3
    rw [hlog]
    rfl
  dsimp only
  generalize (x.1.toList.foldl State.freeBuffer t).logDrop (x.1.map (·.1)) x.2 3 = u at hdrop ⊢
  split
  · obtain ⟨k, g, y, hsend⟩ := u.sendFlit_frame none l (u.errFlit x.2 .linkDown)
    rw [hsend]
    exact hdrop
  · exact hdrop

theorem State.power_linkGoesDown (s : State) (l : Nat) : (s.linkGoesDown l).power = s.power := by
  unfold State.linkGoesDown
  rw [State.power_dropLink, State.power_setLanes, State.power_setPhase, State.power_logError]

theorem State.power_enableLink (s : State) (l : Nat) (enable allowX4 : Bool) : (s.enableLink l enable allowX4).power = s.power := by
  unfold State.enableLink
  dsimp only
  split
  · split
    · rw [State.power_setPhase, State.power_setRegField]
    · exact State.power_setRegField ..
  · split
    · exact State.power_setRegField ..
    · split
      · rw [State.power_linkGoesDown, State.power_setRegField]
      · rw [State.power_dropLink, State.power_setLanes, State.power_setPhase, State.power_setRegField]

/-! ### Settings, binding and maps (R19, R405, R441) -/

theorem State.power_startAldeah (s : State) (slotB fallback : Bool) : (s.startAldeah slotB fallback).power = s.power := by
  unfold State.startAldeah
  dsimp only
  rw [State.power_setRegBit, State.power_setRegBit, State.power_setRegBit, State.power_modAldeah]

theorem State.power_settleLinks (s : State) : s.settleLinks.power = s.power :=
  foldl_keeps State.power (fun t l => t.power_enableLink l _ _) _ _

theorem State.power_applySettings (s : State) : s.applySettings.power = s.power := by
  unfold State.applySettings
  refine (foldl_keeps State.power (fun t k => t.power_setReg _ _) _ _).trans ?_
  rw [State.power_setRegField, State.power_setReg, State.power_settleLinks, State.power_setReg]

theorem State.power_bindSpire (s : State) (sp : Nat) : (s.bindSpire sp).power = s.power :=
  foldl_keeps State.power (fun t _ => t.power_modCore _ _) _ _

theorem State.power_factoryBinding (s : State) : s.factoryBinding.power = s.power := by
  unfold State.factoryBinding
  exact (foldl_keeps State.power State.power_bindSpire _ _).trans (foldl_keeps State.power (fun t c => t.power_modCore c _) _ _)

theorem State.power_applyEntry (s : State) (e : JournalEntry) : (s.applyEntry e).power = s.power := by
  unfold State.applyEntry
  split
  · dsimp only
    split <;> rfl
  all_goals rfl

theorem State.power_applyMaps (s : State) : s.applyMaps.power = s.power := by
  unfold State.applyMaps
  exact (foldl_keeps State.power State.power_applyEntry _ _).trans (foldl_keeps State.power (fun t k => t.power_modTower k _) _ _)

theorem State.power_aldeahTakes (s : State) (r : ErrRec) : (s.aldeahTakes r).power = s.power := by
  obtain ⟨l, x, y, k, b, h⟩ := s.aldeahTakes_frame r
  rw [h]
  rfl

theorem State.power_logLatched (s : State) : s.logLatched.power = s.power := by
  have hall : (s.mod.faults.foldl (fun s page =>
      (s.aldeahTakes (s.powerRec .supplyFail page 2 (s.draw 20 page % 2 ^ 32))).tick) s).power = s.power :=
    foldl_keeps State.power (fun _ _ => (State.power_tick _).trans (State.power_aldeahTakes ..)) _ _
  unfold State.logLatched
  exact hall

/-! ### Failures (Table 12-2) -/

theorem State.power_groupOut (s : State) (g detail : Nat) : (s.groupOut g detail).power = s.power := by
  unfold State.groupOut
  dsimp only
  rw [State.power_modGroup, State.power_logError, State.power_writeJournal]

theorem State.power_failFloor (s : State) (t floor step : Nat) : (s.failFloor t floor step).power = s.power := by
  unfold State.failFloor
  split
  · dsimp only
    rw [State.power_logError, State.power_writeJournal, State.power_modTower]
  · exact State.power_groupOut ..

theorem State.power_replaceCore (s : State) (core : Nat) : (s.replaceCore core).power = s.power := by
  unfold State.replaceCore
  dsimp only
  split
  · rw [State.power_setRegBit, State.power_setCore, State.power_logError]
  · rw [State.power_spares, State.power_tick, State.power_setCore, State.power_logError, State.power_writeJournal]

theorem State.power_failCore (s : State) (c : Nat) : (s.failCore c).power = s.power := by
  unfold State.failCore
  dsimp only
  split
  · rfl
  · split
    · exact State.power_groupOut ..
    · exact State.power_replaceCore ..

theorem State.power_bootFailure (s : State) (f : BootFailure) : (s.bootFailure f).power = s.power := by
  have hon : ∀ (g : Nat) (f : State → State), (f s).power = s.power →
      (if g < s.units && !(s.group g).outOfService then f s else s).power = s.power := by
    intro g f h
    split
    · exact h
    · rfl
  unfold State.bootFailure
  cases f with
  | core c => exact hon _ (fun s => s.failCore c) (s.power_failCore c)
  | floor t floor step =>
    refine hon _ (fun s => if floor < 16 then s.failFloor t floor step else s) ?_
    split
    · exact State.power_failFloor ..
    · rfl
  | keep t step => exact hon _ (fun s => s.groupOut t step) (s.power_groupOut t step)
  | repairMap t => exact hon _ (fun s => s.groupOut t 7) (s.power_groupOut t 7)
  | landing => exact s.power_fatalStop

theorem State.power_trainPort (s : State) : s.trainPort.power = s.power := by
  unfold State.trainPort
  split <;> rfl

theorem State.power_logBoot (s : State) (step : Nat) : (s.logBoot step).power = s.power := s.power_logEntry ..

/-- Start-up, however it ends, leaves power good and the count of boots. -/
theorem State.power_startUp (s : State) (failures : List BootFailure) : (s.startUp failures).power = s.power := by
  unfold State.startUp
  split
  · rw [State.power_setRegField, State.power_modAldeah]
  next slotB fallback _ =>
    have hlatched : (s.startAldeah slotB fallback).applySettings.factoryBinding.applyMaps.logLatched.power = s.power := by
      rw [State.power_logLatched, State.power_applyMaps, State.power_factoryBinding, State.power_applySettings,
        State.power_startAldeah]
    dsimp only
    generalize (s.startAldeah slotB fallback).applySettings.factoryBinding.applyMaps.logLatched = t at hlatched ⊢
    have hfailed : ((failures.foldl State.bootFailure t).setRegField Off.gstat 20 4 9).power = s.power := by
      rw [State.power_setRegField]
      exact (foldl_keeps State.power State.power_bootFailure _ _).trans hlatched
    generalize (failures.foldl State.bootFailure t).setRegField Off.gstat 20 4 9 = u at hfailed ⊢
    have hgroups : (if u.anyGroup then u else u.fatalStop).power = s.power := by
      split
      · exact hfailed
      · exact u.power_fatalStop.trans hfailed
    generalize (if u.anyGroup then u else u.fatalStop) = v at hgroups ⊢
    rw [State.power_trainPort]
    split
    · exact (v.power_logBoot 9).trans hgroups
    · exact hgroups

/-! ## The rails rise (R454, Table 14-4) -/

section
variable {s : State}

theorem State.raiseRails_frame (s : State) : ∃ b, s.raiseRails = s.modMod fun m => { m with rising := b } := by
  unfold State.raiseRails
  dsimp only
  split
  · exact ⟨true, rfl⟩
  · exact ⟨s.mod.rising, rfl⟩

theorem State.raiseRails_rises (hbulk : s.mod.bulk = true) (hon : s.mod.pwrEn = true) (hheeded : s.mod.ignore = false)
    (hfallen : s.mod.needFall = false) (hdown : s.mod.modPg = false) :
    s.raiseRails = s.modMod fun m => { m with rising := true } :=
  if_pos (by rw [hbulk, hon, hheeded, hfallen, hdown]; rfl)

/-- While PWR_EN is ignored, or must fall first, the rails do not rise (R457). -/
theorem State.raiseRails_ignored (h : s.mod.ignore = true ∨ s.mod.needFall = true) : s.raiseRails = s :=
  if_neg (by obtain h | h := h <;> simp [h])

theorem execPwrEnIgnoreEnd_heeds (s : State) :
    ∃ n, execPwrEnIgnoreEnd s = .next n ∧ n.mod.ignore = false ∧
      (s.mod.pwrEn = true → s.mod.bulk = true → s.mod.needFall = false → s.mod.modPg = false → n.mod.rising = true) ∧
      (s.mod.needFall = true → n.mod.rising = s.mod.rising) := by
  refine ⟨(s.modMod fun m => { m with ignore := false }).raiseRails, rfl, ?_, fun hon hbulk hfallen hdown => ?_, fun hfall => ?_⟩
  · obtain ⟨b, h⟩ := (s.modMod fun m => { m with ignore := false }).raiseRails_frame
    rw [h]
    rfl
  · rw [State.raiseRails_rises (s := s.modMod fun m => { m with ignore := false }) hbulk hon rfl hfallen hdown]
    rfl
  · rw [State.raiseRails_ignored (s := s.modMod fun m => { m with ignore := false }) (.inr hfall)]
    rfl

theorem execPowerGood_starts (hrising : s.mod.rising = true) (hdown : s.mod.modPg = false) (failures : List BootFailure) :
    ∃ n, execPowerGood failures s = .next n ∧ n.mod.modPg = true ∧ n.mod.rising = false ∧ n.boots = s.boots + 1 := by
  unfold execPowerGood
  rw [hrising, hdown, if_pos (by decide)]
  refine ⟨_, rfl, ?_⟩
  have hpower := State.power_startUp
    { s.modMod (fun m => { m with rising := false, modPg := true }) with boots := s.boots + 1 } failures
  exact ⟨congrArg (·.1) hpower, congrArg (·.2.1) hpower, congrArg (·.2.2) hpower⟩

theorem State.reg_logBoot (s : State) (step : Nat) : (s.logBoot step).reg = s.reg := by
  unfold State.logBoot
  dsimp only
  generalize logBody _ = body
  obtain ⟨l, x, y, k, h⟩ := s.logEntry_frame 2 body true
  rw [h]
  rfl

theorem execReady_readies (hruns : s.runs = true) (hfirst : s.ready = false) (hup : s.aldeah.up = true) :
    ∃ n, execReady s = .next n ∧ n.ready = true ∧ n.regField Off.gstat 20 4 = 10 := by
  unfold execReady
  rw [hruns, hfirst, hup, if_pos (by decide)]
  refine ⟨_, rfl, ?_⟩
  have hready := (s.setRegField Off.gstat 20 4 10).regBit_setRegBit Off.gstat 31 true
  have hphase : ((s.setRegField Off.gstat 20 4 10).setRegBit Off.gstat 31 true).regField Off.gstat 20 4 = 10 := by
    rw [State.regField_setRegBit_apart _ _ (.inr (by decide)), State.setRegField_eq, State.regField_setReg, if_pos rfl,
      field_putField]
    rfl
  rw [State.ready, State.regBit_congr (State.reg_logBoot ..), State.regField_congr (State.reg_logBoot ..)]
  exact ⟨hready, hphase⟩

/-! ## Power-down (R452, R455 to R459) -/

/-- What power-down leaves of a state: the rails off, PWR_EN ignored, and the flash, OTP and journal as they were. -/
def State.OffFrom (s n : State) : Prop :=
  n.mod.modPg = false ∧ n.mod.rising = false ∧ n.mod.ignore = true ∧ n.cores = [] ∧ n.towers = [] ∧ n.regs = [] ∧
    n.otp = s.otp ∧ n.flash = s.flash ∧ n.journal = s.journal

theorem State.offFrom_powerDown (s : State) {f : Module → Module}
    (h : ∀ m, (f m).modPg = m.modPg ∧ (f m).rising = m.rising ∧ (f m).ignore = m.ignore) : s.OffFrom (s.powerDown.modMod f) := by
  obtain ⟨hpower, hrising, hignore⟩ := h s.powerDown.mod
  exact ⟨hpower, hrising, hignore, rfl, rfl, rfl, rfl, rfl, rfl⟩

theorem State.turnOff_eq (h : s.mod.modPg = true ∨ s.mod.rising = true) : s.turnOff = s.powerDown :=
  if_pos (by obtain h | h := h <;> simp [h])

/-- PWR_EN falling ends the latch of an overvoltage, and turns the module off even while the rails rise. -/
theorem execPwrEnDeassert_off (s : State) :
    ∃ n, execPwrEnDeassert s = .next n ∧ n.mod.pwrEn = false ∧ n.mod.needFall = false ∧ n.mod.thermAlert = false ∧
      (s.mod.modPg = true ∨ s.mod.rising = true → s.OffFrom n) := by
  refine ⟨_, rfl, rfl, rfl, rfl, fun hon => ?_⟩
  rw [State.turnOff_eq hon]
  exact s.offFrom_powerDown fun _ => ⟨rfl, rfl, rfl⟩

section
variable (hpower : s.mod.modPg = true)
include hpower

theorem execVinOvervoltage_off {volts : Nat} (hhigh : 64 < volts) :
    ∃ n, execVinOvervoltage volts s = .next n ∧ s.OffFrom n ∧ n.mod.bulk = false ∧ n.mod.needFall = s.mod.pwrEn := by
  unfold execVinOvervoltage
  rw [if_neg (Nat.not_le.mpr hhigh), State.turnOff_eq (.inl hpower)]
  exact ⟨_, rfl, s.offFrom_powerDown fun _ => ⟨rfl, rfl, rfl⟩, rfl, rfl⟩

theorem execHoldUpLoss_off {volts : Nat} (hlow : volts < 26) :
    ∃ n, execHoldUpLoss volts s = .next n ∧ s.OffFrom n ∧ n.mod.bulk = false := by
  unfold execHoldUpLoss
  rw [if_pos hlow, State.turnOff_eq (.inl hpower)]
  exact ⟨_, rfl, s.offFrom_powerDown fun _ => ⟨rfl, rfl, rfl⟩, rfl⟩

theorem execJunctionOvertemp_off {site celsius : Nat} (hhot : 125 ≤ celsius) (hsite : site < 48) :
    ∃ n, execJunctionOvertemp site celsius s = .next n ∧ s.OffFrom n ∧ n.mod.thermAlert = true := by
  unfold execJunctionOvertemp
  rw [hpower, decide_eq_true hhot, decide_eq_true hsite, Bool.true_or, if_pos (by decide)]
  exact ⟨_, rfl, s.offFrom_powerDown fun _ => ⟨rfl, rfl, rfl⟩, rfl⟩

theorem execRegulatorFault_off (page : Nat) :
    ∃ n, execRegulatorFault page s = .next n ∧ s.OffFrom n ∧ n.mod.faults = s.mod.faults ++ [page] := by
  unfold execRegulatorFault
  rw [hpower, Bool.true_or, if_pos rfl]
  exact ⟨_, rfl, s.offFrom_powerDown fun _ => ⟨rfl, rfl, rfl⟩, rfl⟩

end

end

/-- Settles O48: the rails rise by `State.raiseRails`, start-up leaves power good (`State.power_startUp`), and everything that turns the
module off ends in `State.powerDown`. -/
theorem modulePower : Obligations.ModulePower := by
  unfold Obligations.ModulePower
  intro s volts page site celsius failures off
  refine ⟨fun hbulk hheeded hfallen hdown => ?assert, fun hon hheeded hfallen hdown => ?charged, execPwrEnIgnoreEnd_heeds s,
    ⟨_, rfl, fun h => ?assertIgnored⟩, ⟨_, rfl, fun h => ?chargedIgnored⟩, ?deassert,
    fun hrising hdown => execPowerGood_starts hrising hdown failures, execReady_readies,
    fun hpower => ⟨?fall, execVinOvervoltage_off hpower, execHoldUpLoss_off hpower, execJunctionOvertemp_off hpower,
      execRegulatorFault_off hpower page⟩⟩
  case assert =>
    refine ⟨_, rfl, ?_⟩
    rw [State.raiseRails_rises (s := s.modMod fun m => { m with pwrEn := true }) hbulk rfl hheeded hfallen hdown]
    exact ⟨rfl, rfl⟩
  case charged =>
    refine ⟨_, rfl, ?_⟩
    rw [State.raiseRails_rises (s := s.modMod fun m => { m with bulk := true }) rfl hon hheeded hfallen hdown]
    exact ⟨rfl, rfl⟩
  case assertIgnored =>
    rw [State.raiseRails_ignored (s := s.modMod fun m => { m with pwrEn := true }) h]
    rfl
  case chargedIgnored =>
    rw [State.raiseRails_ignored (s := s.modMod fun m => { m with bulk := true }) h]
    rfl
  case deassert =>
    obtain ⟨n, hn, hlow, hfallen, -, hoff⟩ := execPwrEnDeassert_off s
    exact ⟨n, hn, hlow, hfallen, fun hrising => hoff (.inr hrising)⟩
  case fall =>
    obtain ⟨n, hn, hlow, -, halert, hoff⟩ := execPwrEnDeassert_off s
    exact ⟨n, hn, hoff (.inl hpower), halert, hlow⟩

end Sys2Proof.Machine
end
